-- ==== Sys2Proof/Word.lean ====
section
/-!
DEFINITION. The words of the CTU6400 model: registers are 32 bits wide (R9), memory bytes 8 bits, requester IDs
8 bits (R40), samples and weights complex pairs of signed 16-bit parts (R7); and the record that names a register field.
-/
namespace Sys2Proof

/-- A 32-bit register or memory word. -/
abbrev Word := BitVec 32
/-- A byte of memory or of a packet. -/
abbrev Byte := BitVec 8
/-- The requester ID every access carries (R40). -/
abbrev ReqId := BitVec 8
/-- A 64-bit value held as LO and HI words (R45), such as device time (R4). -/
abbrev Wide := BitVec 64

/-- A register field: the absolute address of its register, its lowest bit and its width. -/
structure Fld where
  addr : Nat
  lo : Nat
  w : Nat
  deriving DecidableEq, Repr

/-- A complex value with exact integer parts (R7: I and Q). -/
structure Cx where
  i : Int
  q : Int
  deriving DecidableEq, Repr, Inhabited

end Sys2Proof
end

