-- ==== Sys2Proof/Syntax.lean ====
section
/-!
DEFINITION. The commands of the CTU6400 block: what may be done to it from outside (a register access by a requester,
a frame on a serial port, a packet, a pin, a sample) and the events of its own engines, one constructor per row of the
table of operations and events. A row that is a register write carries the requester ID of its source (R40) and the data
word; an event row carries only what the outside world decides (a level, a code, a reading).
-/
namespace Sys2Proof

/-- One bus access (R40): its source, direction, address, size in bytes, write data and the poison mark of that data (R391). -/
structure Access where
  id : ReqId
  write : Bool
  addr : Word
  size : Nat
  data : Wide
  poison : Bool
  deriving DecidableEq, Repr

/-- The analogue-to-digital converters of R89: the ADC of path p, or the observation converter of stand s. -/
inductive Converter where
  | path (p : Fin 64)
  | obs (s : Fin 8)
  deriving DecidableEq, Repr

/-- The rate gates of R17: the DAC gate of path p, the gate of the calibration transmitter, the egress gate of port q. -/
inductive Gate where
  | dac (p : Fin 64)
  | cal
  | port (q : Fin 4)
  deriving DecidableEq, Repr

/-- The mute registers of R188. -/
inductive MuteReg where | all | stand | pathLo | pathHi
  deriving DecidableEq, Repr

/-- An upset of a stored word that an access finds (R415, R416, R425): a single flipped bit of the 72-bit code word, a
stuck cell, more than the code can correct and a rewrite ends, a stuck cell with a further error, or several stuck cells; in a parity
memory each of them fails the check. -/
inductive Upset where
  | flip (bit : Nat)
  | stuck (bit : Nat)
  | multi
  | stuckMore (bit : Nat)
  | broken
  deriving DecidableEq, Repr

/-- The reset pins of R451. -/
inductive ResetPin where | rstN | wrstN | peerRstiN
  deriving DecidableEq, Repr

/-- Where a MEAS pin lies against the window of its comparator (R250): above hi, below lo, or back inside. -/
inductive PinLevel where | above | below | inside
  deriving DecidableEq, Repr

/-- The monitored rails of R504. -/
inductive Rail where | vaon | vcore | vcnvA | vcnvB | vaux | vneg | vln | vlh | vio
  deriving DecidableEq, Repr

/-- The boundary-scan instructions of R497, and any other opcode. -/
inductive JtagOp where | bypass | idcode | sample | preload | extest | highz | clamp | other
  deriving DecidableEq, Repr

/-- Operations of the pair ALU, class M 0x5 (R365). -/
inductive PairFn where | add | sub | neg | abs | avg
  deriving DecidableEq, Repr

/-- Operations of the scalar ALU, classes M 0x6 and S 0x1 (R365). -/
inductive AluFn where | add | sub | neg | abs
  deriving DecidableEq, Repr

/-- Operations of the logic and shift class, M 0x7 (R365). -/
inductive LogicFn where | and | or | xor | not | shl | shr | sar
  deriving DecidableEq, Repr

/-- Conditions of the compare classes, M 0x8 and S 0x3 (R365, R370). -/
inductive CmpFn where | eq | ne | lt | le | ltu | leu
  deriving DecidableEq, Repr

/-- Predicate logic of class S 0x3 (R365). -/
inductive PredFn where | and | or | xor | not
  deriving DecidableEq, Repr

/-- Addressing modes of R371; the immediate is a signed 10-bit field, in access sizes. -/
inductive AddrMode where
  | indirect | offset (imm : BitVec 10) | indexed | postReg | postImm (imm : BitVec 10) | postRev
  deriving DecidableEq, Repr

/-- The operand of one memory access: pointer number, mode, access size in bytes, sign extension. -/
structure MemOp where
  n : Fin 8
  mode : AddrMode
  size : Nat
  sext : Bool
  deriving DecidableEq, Repr

/-- The registers of the special move (class L 0x6, R365). -/
inductive SpReg where
  | ap (n : Fin 8) | mo (n : Fin 8) | cl (n : Fin 8) | pd | lc (l : Fin 2) | lb (l : Fin 2) | le (l : Fin 2) | rb | ipc | ist
  deriving DecidableEq, Repr

/-- A register as the poison test names it (R391): any that carries a poison bit (R367). -/
inductive TestReg where
  | g (x : Fin 64) | ac (n : Fin 8) | pd (n : Fin 8) | sp (r : SpReg)
  deriving DecidableEq, Repr

/-- A code group that arrives: its ten bits and the 10-bit boundary at which they begin (R280). -/
structure CodeGroup where
  bits : BitVec 10
  bnd : Fin 10
  deriving DecidableEq, Repr

/-- The decoded operands of an M slot, by class (R365, R379 to R381). -/
inductive MOp where
  | nop
  | cmac (ac : Fin 8) (x y : Fin 64) (sub conj clr : Bool)
  | cmul (d x y : Fin 64) (conj : Bool)
  | dmac (ac : Fin 8) (x y : Fin 64) (sub clr : Bool)
  | mag2 (ac : Fin 8) (x : Fin 64)
  | pair (fn : PairFn) (d x y : Fin 64)
  | alu (fn : AluFn) (d x y : Fin 64)
  | logic (fn : LogicFn) (d x y : Fin 64)
  | cmp (fn : CmpFn) (p : Fin 8) (x y : Fin 64)
  | extract (d : Fin 64) (ac : Fin 8) (shift : Fin 16)
  | clearAc (ac : Fin 8)
  | moveAc (d ac : Fin 8)
  | extractIdx (d : Fin 64) (ac : Fin 8) (value : Bool)
  | searchInit (ac : Fin 8) (max : Bool)
  | search (ac : Fin 8) (x : Fin 64) (max mag : Bool)
  deriving DecidableEq, Repr

/-- The decoded operands of the L slot, by class (R365, R371, R372). -/
inductive LOp where
  | nop
  | load (m : MemOp) (d : Fin 64)
  | store (m : MemOp) (x : Fin 64)
  | dualLoad (m0 m1 : MemOp) (d0 d1 : Fin 64)
  | loadStore (ml : MemOp) (d : Fin 64) (ms : MemOp) (x : Fin 64)
  | ptr (n : Fin 8) (mode : AddrMode)
  | ptrMo (n : Fin 8) (imm : Int)
  | ptrCl (n : Fin 8) (k : Nat)
  | special (toG : Bool) (r : SpReg) (g : Fin 64)
  deriving DecidableEq, Repr

/-- The decoded operands of the S slot, by class (R365, R376, R377). -/
inductive SOp where
  | nop
  | alu (fn : AluFn) (d x y : Fin 64)
  | imm (d : Fin 64) (v : Word)
  | cmp (fn : CmpFn) (p : Fin 8) (x y : Fin 64)
  | plogic (fn : PredFn) (p x y : Fin 8)
  | ptest (p : Fin 8) (r : TestReg)
  | branch (target : BitVec 13) (cond : Option (Fin 8 × Bool))
  | call (target : BitVec 13)
  | ret
  | loop (level : Fin 2) (len : Nat) (count : BitVec 12)
  | loopG (level : Fin 2) (len : Nat) (x : Fin 64)
  | di | ei | rti | wait | halt | fence
  deriving DecidableEq, Repr

/-- The operands of the four slots of one bundle. The bundle's classes, guards, sat bits and header are read from IMEM; the
operand fields [19:0] of each slot are given by another manual (chapter Renelo cores), so the command carries them decoded,
together with an upset that the fetch of the bundle or its load finds. -/
structure BundleOps where
  m0 : MOp
  m1 : MOp
  l : LOp
  s : SOp
  fetchUpset : Option Upset
  loadUpset : Option Upset
  deriving DecidableEq, Repr


/-- The commands of the block: one constructor per row of the table of operations and events. -/
inductive Instr where
  /-- REGISTER_WRITE (R9). A write to a register field that has no row of its own takes effect according to its access type, subject to claims, ceilings, locks and range checks. -/
  | registerWrite (a : Access)
  /-- COUNT_CLEAR (R36). Writing 1 to the clear field of a saturating count sets that count to 0. -/
  | countClear (id : ReqId) (addr : Word) (data : Word)
  /-- ERR_CODE_CLEAR (R42). A write with any bit of [15:0] set to ERR_CODE clears the code, the count and ERR_ADDR. -/
  | errCodeClear (id : ReqId) (page : BitVec 8) (data : Word)
  /-- BLOCK_SOFT_RESET (R42). Writing BLK_CTRL.srst resets the block registers from offset 0x040 upwards to their warm values. -/
  | blockSoftReset (id : ReqId) (page : BitVec 8) (data : Word)
  /-- PAGE_LOCK (R44). Writing 0x4C4B_0001 to LOCK locks every RWL field of the page until cold reset. -/
  | pageLock (id : ReqId) (page : BitVec 8) (data : Word)
  /-- IRQ_SET (R521). Writing 1 to a bit of IRQ_SET raises that event in both latches. -/
  | irqSet (id : ReqId) (page : BitVec 8) (data : Word)
  /-- WIDE_READ_LO (R45). A LO read returns the low half and captures the high half into the requester's shadow. -/
  | wideReadLo (id : ReqId) (addr : Word)
  /-- WIDE_READ_HI (R45). A HI read returns the requester's shadow if valid, otherwise the current high half. -/
  | wideReadHi (id : ReqId) (addr : Word)
  /-- WIDE_WRITE_HI (R45). A HI write stages the high half for the requester, with no effect yet. -/
  | wideWriteHi (id : ReqId) (addr : Word) (data : Word)
  /-- WIDE_WRITE_LO (R45). A LO write applies the whole 64-bit value at one instant, using the staged high half if present. -/
  | wideWriteLo (id : ReqId) (addr : Word) (data : Word)
  /-- CLAIM_WRITE (R48). A write of a claim owner takes or releases the resource, or is refused with claim conflict. -/
  | claimWrite (id : ReqId) (n : Fin 64) (data : Word)
  /-- GPIO_WRITE (R53). A write of GPIO_DIR or GPIO_OUT changes only the bits whose claims the writer holds. -/
  | gpioWrite (id : ReqId) (dir : Bool) (data : Word)
  /-- GPIO_INPUT_CHANGE (R53). A changed level on a GPIO ball reaches GPIO_IN after two REFCLK edges and may raise the change event. -/
  | gpioInputChange (n : Fin 16) (level : Bool)
  /-- DOMAIN_WAKE_ON_ACCESS (R54). An access to a block whose domain is off starts a wake and stalls, or fails with domain off. -/
  | domainWakeOnAccess (a : Access)
  /-- DOMAIN_READY (R54). A waking domain reports ready, and the stalled accesses complete in arrival order. -/
  | domainReady (d : Fin 27)
  /-- WAKE_ACCESS_TIMEOUT (R54). A wake that is not complete within 2 ms ends the stalled access with the domain-off error response. -/
  | wakeAccessTimeout (d : Fin 27)
  /-- MGT_READ (R57). A management-port read frame performs one word read and returns marker, data and status. -/
  | mgtRead (target : BitVec 4) (addr : Word)
  /-- MGT_WRITE (R57). A management-port write frame performs one word write and returns marker and status. -/
  | mgtWrite (target : BitVec 4) (addr : Word) (data : Word)
  /-- MGT_READ_BURST (R57). A management-port read-burst frame reads N + 1 words at incrementing addresses. -/
  | mgtReadBurst (target : BitVec 4) (addr : Word) (n : Byte)
  /-- MGT_WRITE_BURST (R57). A management-port write-burst frame writes N + 1 words at incrementing addresses. -/
  | mgtWriteBurst (target : BitVec 4) (addr : Word) (words : List Word)
  /-- MGT_COLD_RESET (R59). A cold-reset frame with the correct confirmation bytes resets the device at the rising edge of MCS_N. -/
  | mgtColdReset (target : BitVec 4) (c0 c1 : Byte)
  /-- MGT_WARM_RESET (R59). A warm-reset frame with the correct confirmation bytes warm-resets the device at the rising edge of MCS_N. -/
  | mgtWarmReset (target : BitVec 4) (c0 c1 : Byte)
  /-- MGT_FRAME_CUT (R59). MCS_N rises before the last host byte of the frame has arrived. -/
  | mgtFrameCut (bytes : List Byte)
  /-- MGT_MARKER (R58). Once all accesses of the frame have completed, the device sends 0xA5, then the data and the status byte. -/
  | mgtMarker (waits after : Nat)
  /-- MGT_ADDRESS_MATCH_WAKE (R61). In a sleep state, a command byte that matches MADR or broadcast raises a wake and buffers the frame. -/
  | mgtAddressMatchWake (cmd : Byte) (rest : List Byte)
  /-- ENTRY_FETCH (R65). The timer fetches the next schedule entry, checks its parity, selects contexts and computes what the entry fires. -/
  | entryFetch (upset : Option (Fin 4))
  /-- ENTRY_START (R62). An entry starts at its air instant, applying deferred settings, gating and symbol boundaries. -/
  | entryStart
  /-- STAND_UNGATE (R83). The timer ungates a stand's converters 32 BT before the next entry that needs them. -/
  | standUngate (st : Fin 8)
  /-- LIST_COMMIT (R70). A commit write takes NEXT_LIST and NEXT_LEN, makes their entries live and starts the list check. -/
  | listCommit (id : ReqId) (data : Word)
  /-- LIST_CHECK_DONE (R70). The list check completes, and the list becomes pending or is refused. -/
  | listCheckDone
  /-- SCHEDULE_ENTRY_WRITE (R72). A write to a schedule-table word takes effect unless the entry is live and not bad. -/
  | scheduleEntryWrite (id : ReqId) (word : Fin 4096) (data : Word)
  /-- SCHEDULE_ENTRY_READ (R69). A read of a schedule word that fails parity returns 0 and records the entry as bad. -/
  | scheduleEntryRead (id : ReqId) (word : Fin 4096) (upset : Bool)
  /-- EVENT_LINE_EDGE (R74). An event line rises or falls at its computed instant, and FEC pins follow 3 rc later. -/
  | eventLineEdge (e : Fin 16) (rise : Bool)
  /-- FEC_RELEASE (R78). Writing CTRL.fec_rel ends the warm-reset hold of every FEC pin. -/
  | fecRelease (id : ReqId) (data : Word)
  /-- FES_TRANSACTION_START (R81). A front-end serial master starts a triggered transaction at entry start plus its offset. -/
  | fesTransactionStart (n : Fin 3)
  /-- FES_TRANSACTION_DONE (R81). The transaction raises CS_N after len + 2 SCK periods, and the received bits go to FES_RX. -/
  | fesTransactionDone (n : Fin 3) (rx : Word)
  /-- TIMER_RUN (R84). Writing CTRL.run = 1 latches the pending list as frame 0 at START, withdraws a stop, or is refused. -/
  | timerRun (id : ReqId) (data : Word)
  /-- TIMER_STOP_REQUEST (R84). Writing CTRL.run = 0 cancels an accepted start or schedules a stop at the frame end. -/
  | timerStopRequest (id : ReqId) (data : Word)
  /-- TSYNC_MODE_WRITE (R85). A write of TSYNC_CTRL.mode arms alignment or check, or is refused while the timer runs or for code 11. -/
  | tsyncModeWrite (id : ReqId) (data : Word)
  /-- TSYNC_EDGE (R85). A captured TSYNC rising edge aligns device time, stamps it, or checks drift, according to the mode. -/
  | tsyncEdge
  /-- PLL_ENABLE_WRITE (R90). A write of PLL_CTRL.en stops or starts the converter PLL, or is refused while converters are enabled. -/
  | pllEnableWrite (id : ReqId) (data : Word)
  /-- PLL_LOCKED (R90). The converter PLL achieves lock, and DACs leave the balance switch at the next symbol boundary. -/
  | pllLocked
  /-- HALF_RATE_WRITE (R91). A write of PLL_CTRL.half changes the converter rate, or is refused while converters are enabled. -/
  | halfRateWrite (id : ReqId) (data : Word)
  /-- PLL_LOCK_LOSS (R93). Loss of PLL lock silences DACs, stops ADC entry and marks symbols as clock loss. -/
  | pllLockLoss
  /-- REFCLK_LOSS (R93). REFCLK is detected absent: as for loss of lock, the timer disables and device time stops. -/
  | refclkLoss
  /-- REFCLK_RETURN (R93). REFCLK returns, the PLL relocks, and a halted release continues. -/
  | refclkReturn
  /-- SLICE_WORD_WRITE (R97). A write of a slice or centre word takes effect unless the slice or converter concerned is running. -/
  | sliceWordWrite (id : ReqId) (addr : Word) (data : Word)
  /-- CNV_CTRL_WRITE (R128). A write of converter enables is refused for a stand on which a running slice fails its band check. -/
  | cnvCtrlWrite (id : ReqId) (st : Fin 8) (data : Word)
  /-- ADC_SAMPLE (R14). An ADC takes a sample that enters the receive datapath. -/
  | adcSample (conv : Converter) (code : BitVec 12)
  /-- EQ_COMMIT (R108). Setting an EQ_COMMIT bit makes the staged equaliser set active at once or at the next entry start. -/
  | eqCommit (id : ReqId) (st : Fin 8) (data : Word)
  /-- CAL_GO (R112). Writing CAL_CTRL.go starts a calibration play at once, or drops it if a play runs. -/
  | calGo (id : ReqId) (data : Word)
  /-- CAL_PLAY_END (R111). A calibration play ends after its repetitions. -/
  | calPlayEnd
  /-- SLICE_START (R123). Writing a slice start bit starts the 2,458-BT start check of a stopped slice. -/
  | sliceStart (id : ReqId) (tx : Bool) (data : Word)
  /-- SLICE_CHECK_DONE (R123). The start check completes, and the slice becomes armed or is refused. -/
  | sliceCheckDone (tx : Bool) (k : Fin 4)
  /-- SLICE_START_INSTANT (R124). An armed slice becomes started at its start instant with zero phase and zero filter state. -/
  | sliceStartInstant (tx : Bool) (k : Fin 4)
  /-- SLICE_STOP (R125). Writing a slice stop bit cancels a check or stops the slice at once or at the next entry. -/
  | sliceStop (id : ReqId) (tx : Bool) (data : Word)
  /-- LEVEL_MONITOR_UPDATE (R138). The level monitors of all paths update after an entry's last sample, and level high may be raised. -/
  | levelMonitorUpdate
  /-- GSTEP_APPLY (R141). At the apply instant the latched factors become active. -/
  | gstepApply
  /-- PORTS_WRITE (R151). A write of BFG PORTS recomputes the units and is refused when over budget or while the slice runs. -/
  | portsWrite (id : ReqId) (g : Fin 4) (data : Word)
  /-- JOIN_WRITE (R148). A write of BF.JOIN joins groups and sets the offsets, subject to the slice and budget checks. -/
  | joinWrite (id : ReqId) (data : Word)
  /-- BF_MODE_WRITE (R171). A write of BF.MODE changes antenna mode or FDD, subject to its checks. -/
  | bfModeWrite (id : ReqId) (data : Word)
  /-- BF_ENABLE_WRITE (R155). A write of BF enable loads the fallback buffers or is refused while slices run. -/
  | bfEnableWrite (id : ReqId) (data : Word)
  /-- WEIGHT_WRITE (R158). A write to a weight word opens its context, or is refused when the context is referenced or sealing. -/
  | weightWrite (id : ReqId) (word : Fin 655360) (data : Word)
  /-- WEIGHT_READ (R153). A weight read returns the word, or 0 with a row mark when parity fails. -/
  | weightRead (id : ReqId) (word : Fin 655360) (upset : Bool)
  /-- CONTEXT_SEAL (R154). Writing BF.SEAL starts the sealing check of an open context. -/
  | contextSeal (id : ReqId) (data : Word)
  /-- SEAL_COMPLETE (R154). The seal check completes and the context becomes sealed with its rows marked. -/
  | sealComplete
  /-- RCMP_POP (R168). A read of BF.RCMP returns and removes the head recompute request. -/
  | rcmpPop (id : ReqId)
  /-- FALLBACK_WRITE (R167). A write of BFG FALLBACK loads a second buffer that takes effect at a later entry start. -/
  | fallbackWrite (id : ReqId) (g : Fin 4) (data : Word)
  /-- TX_RELEASE_START (R192). At a group's release start the flows are checked for completeness, and late flows contribute zero. -/
  | txReleaseStart (g : Fin 4) (upset : Option (Fin 640 × Nat))
  /-- TX_SAMPLE (R15). A transmit sample passes combining, CFR, predistortion and the envelope limiter toward the DAC gate. -/
  | txSample (p : Fin 64)
  /-- RATE_GATE_RELEASE (R18). A rate gate releases a sample to its clocked edge exactly D after its entry. -/
  | rateGateRelease (gate : Gate) (slack : Nat) (upset : Bool)
  /-- RATE_DEFICIT (R23). A sample is missing at its release instant: the gate releases zeros, raises the event and marks the symbol invalid. -/
  | rateDeficit (gate : Gate)
  /-- RG_CLEAR (R27). Writing RG_CTRL.clear resets the deficit count, the record and the slack minima. -/
  | rgClear (id : ReqId) (data : Word)
  /-- MUTE_REGISTER_WRITE (R189). A write of a mute register mutes paths hard or by ramp, or unmutes at the next entry start. -/
  | muteRegisterWrite (id : ReqId) (reg : MuteReg) (data : Word)
  /-- DPD_SWAP_REQUEST (R206). Writing SWAP makes a held swap request per masked path, replacing any held one. -/
  | dpdSwapRequest (id : ReqId) (st : Fin 8) (data : Word)
  /-- DPD_FADE_DONE (R207). A fade reaches its last sample, and the active bank becomes the target. -/
  | dpdFadeDone (p : Fin 64)
  /-- DPD_PENDING_FADE_START (R208). A pending fade starts once the running fade has ended and 16 BT have passed. -/
  | dpdPendingFadeStart (p : Fin 64)
  /-- DPD_ENABLE_WRITE (R209). A write of the device-wide DPD enable takes effect unless a transmit slice runs. -/
  | dpdEnableWrite (id : ReqId) (st : Fin 8) (data : Word)
  /-- DPD_TERMS_WRITE (R199). A write of a term structure or count is refused over the level limit, for bad k, or while the bank is busy. -/
  | dpdTermsWrite (id : ReqId) (addr : Word) (data : Word)
  /-- DPD_BANK_WRITE (R205). A write to a bank-store word is refused while the bank is busy, and otherwise clears the path's marks. -/
  | dpdBankWrite (id : ReqId) (word : Fin 7680) (data : Word)
  /-- DPD_BANK_READ (R214). A bank-store read returns the word, or 0 and marks the bank when parity fails. -/
  | dpdBankRead (id : ReqId) (word : Fin 7680) (upset : Bool)
  /-- DPD_RELOAD_POP (R215). A read of RELOAD returns and removes the head reload request. -/
  | dpdReloadPop (id : ReqId) (st : Fin 8)
  /-- THERMAL_STATE_LOAD (R202). Writing THM_INIT.load sets the path thermal state to its initial value. -/
  | thermalStateLoad (id : ReqId) (p : Fin 64) (data : Word)
  /-- CAPTURE_ARM (R221). Writing CAP_CTRL.arm arms one capture after its checks. -/
  | captureArm (id : ReqId) (data : Word)
  /-- CAPTURE_GO (R221). Writing CAP_CTRL.go arms a capture and starts it at the next BT boundary. -/
  | captureGo (id : ReqId) (data : Word)
  /-- CAPTURE_DONE (R221). A capture completes and sets done with its flags. -/
  | captureDone
  /-- LANDING_READ (R226). A Landing read that fails parity returns 0 and records the detection. -/
  | landingRead (id : ReqId) (word : Fin 2097152) (upset : Bool)
  /-- BIAS_TARGET_WRITE (R233). A write of TARGET checks the window and replaces the target of the slew. -/
  | biasTargetWrite (id : ReqId) (j : Fin 96) (data : Word)
  /-- AUX_TICK_SLEW (R232). At each AUX tick every bias channel steps its code toward its target. -/
  | auxTickSlew
  /-- SPAN_CHANGE_START (R234). A CFG write that changes mode or span starts the span change through the rest value. -/
  | spanChangeStart (id : ReqId) (j : Fin 96) (data : Word)
  /-- SPAN_SETTLE_EXPIRY (R234). After 40 AUX ticks of clamp the clamp is released at the new span. -/
  | spanSettleExpiry (j : Fin 96)
  /-- SCALER_PASS_START (R243). A regular-sequence pass starts at run, or when its period expires. -/
  | scalerPassStart (x : Fin 2)
  /-- SCALER_CONVERSION_DONE (R241). A conversion completes, and its corrected result enters the FIFO. -/
  | scalerConversionDone (x : Fin 2) (code : Int)
  /-- INJECTED_DUE (R245). An injected request reaches its due instant, and its conversion starts. -/
  | injectedDue (x : Fin 2)
  /-- SCALER_CAL_REQUEST (R248). Writing cal_a or cal_b requests a self-calibration of a converter. -/
  | scalerCalRequest (id : ReqId) (data : Word)
  /-- SCALER_CAL_START (R248). A pending calibration starts once the queue is empty and the last conversion has ended. -/
  | scalerCalStart (x : Fin 2)
  /-- SCALER_CAL_DONE (R248). A calibration ends after 2.4 ms and writes its offsets and gains. -/
  | scalerCalDone (x : Fin 2) (r0 r1 : Word × Word)
  /-- COMPARATOR_TRIP (R250). A comparator trips after qualification, and its protection source latches its action. -/
  | comparatorTrip (m : Fin 16) (level : PinLevel)
  /-- PROTECTION_CLEAR (R252). Writing ACT_CLR clears a latched action unless its condition is still present. -/
  | protectionClear (id : ReqId) (data : Word)
  /-- THERMAL_READING_UPDATE (R257). At each window end every sensor is read, cross-checked and compared, and rates of rise are computed. -/
  | thermalReadingUpdate (counts : List Nat)
  /-- THERMAL_HOLD_RELEASE (R272). The centre sites read below 110 °C for 16 windows, and the reset hold ends. -/
  | thermalHoldRelease
  /-- SUSPECT_CLEAR (R261). Writing 1 to a SUSPECT bit clears the mark and its count. -/
  | suspectClear (id : ReqId) (hi : Bool) (data : Word)
  /-- HALT_CLEAR (R271). Writing HALT.clr ends the halt when every reading is below ceiling − 5 °C. -/
  | haltClear (id : ReqId) (data : Word)
  /-- PORT_ENABLE (R278). Setting a port's enable starts it with its width and rate after the overlap checks. -/
  | portEnable (id : ReqId) (q : Fin 4) (data : Word)
  /-- TRAINING_COMPLETE (R290). A training reaches step 7, and the port becomes Active. -/
  | trainingComplete (q : Fin 4) (order : List (Fin 16)) (farQ : Fin 4)
  /-- TRAINING_TIMEOUT (R290). A training that has not completed within 2 ms fails and restarts or goes Down. -/
  | trainingTimeout (q : Fin 4)
  /-- TRAINING_SEQUENCE_RECEIVED (R290). TS1 or TS2 received on an Active or Quiet port puts the port back into training. -/
  | trainingSequenceReceived (q : Fin 4)
  /-- PORT_RETRAIN (R290). Writing CTRL.retrain trains the port now. -/
  | portRetrain (id : ReqId) (q : Fin 4) (data : Word)
  /-- PORT_QUIET (R292). Writing CTRL.quiet sends the quiet notice and idles the port's transmitters. -/
  | portQuiet (id : ReqId) (q : Fin 4) (data : Word)
  /-- QUIET_NOTICE_RECEIVED (R292). A received quiet notice holds the CDR and puts the port into Quiet. -/
  | quietNoticeReceived (q : Fin 4)
  /-- PORT_ACTIVE (R293). Writing CTRL.active brings the port out of Quiet or Deep. -/
  | portActive (id : ReqId) (q : Fin 4) (data : Word)
  /-- PORT_TIMED (R293). Writing CTRL.timed arms an exit from Quiet at EXIT_T. -/
  | portTimed (id : ReqId) (q : Fin 4) (data : Word)
  /-- PORT_TIMED_EXIT (R293). Device time reaches EXIT_T, and the port leaves Quiet. -/
  | portTimedExit (q : Fin 4)
  /-- QUIET_SIGNAL_DETECT (R293). A Quiet port detects signal and relocks, and may wake the device from Idle. -/
  | quietSignalDetect (q : Fin 4)
  /-- PORT_DEEP (R294). Writing CTRL.deep sends the quiet notice and powers the port off. -/
  | portDeep (id : ReqId) (q : Fin 4) (data : Word)
  /-- LANE_FAULT (R296). A lane fault aborts packets, is counted, and retrains the port or takes it Down. -/
  | laneFault (l : Fin 16) (cause : BitVec 3)
  /-- PRBS_ENABLE (R297). A write of PRBS_CTRL runs the engine on its lanes in raw or fill mode under its claim. -/
  | prbsEnable (id : ReqId) (q : Fin 4) (data : Word)
  /-- PRBS_INJECT (R298). Writing PRBS_CTRL.inject inverts one bit on every generating lane. -/
  | prbsInject (id : ReqId) (q : Fin 4) (data : Word)
  /-- EYE_UPDATE (R288). Every 1 ms the eye height estimate of a receiving lane updates. -/
  | eyeUpdate (l : Fin 16) (height : BitVec 10)
  /-- PACKET_RECEIVED (R308). A received packet is checked in order and then staged, repeated, or acted on by type. -/
  | packetReceived (q : Fin 4) (bytes : List Byte) (errs : List Nat)
  /-- UNSCHEDULED_DISCARD (R319). An unscheduled packet is discarded near the release instant it would have had. -/
  | unscheduledDiscard
  /-- PACKET_EGRESS_READY (R135). An egress packet becomes ready and leaves in order, or is discarded if the port is not Active. -/
  | packetEgressReady (q : Fin 4)
  /-- FLOW_ALLOCATE (R305). The allocate command allocates the lowest free flow entry. -/
  | flowAllocate (id : ReqId) (data : Word)
  /-- FLOW_ENABLE (R305). The enable command checks an entry and enables it. -/
  | flowEnable (id : ReqId) (data : Word)
  /-- FLOW_DISABLE (R305). The disable command returns an enabled entry to allocated. -/
  | flowDisable (id : ReqId) (data : Word)
  /-- FLOW_FREE (R305). The free command frees a disabled entry and zeroes its words. -/
  | flowFree (id : ReqId) (data : Word)
  /-- FLOW_CLEAR (R305). The clear command zeroes words 6 and 7 of an entry. -/
  | flowClear (id : ReqId) (data : Word)
  /-- FLOW_TABLE_WRITE (R305). A write to a flow-table word takes effect unless the entry is enabled or the word is device-owned. -/
  | flowTableWrite (id : ReqId) (word : Fin 5120) (data : Word)
  /-- FLOW_TABLE_READ (R309). A flow-table read that fails parity returns 0 and disables the entry. -/
  | flowTableRead (id : ReqId) (word : Fin 5120) (upset : Bool)
  /-- MGMT_CHALLENGE_EXPIRY (R326). A management challenge expires 100 ms after it was issued. -/
  | mgmtChallengeExpiry
  /-- LINK_RESET_START (R327). An accepted link warm reset begins after its response leaves, or 100 µs after acceptance. -/
  | linkResetStart
  /-- COMBINE_INSTANT (R341). At the combine instant the device sums its own output with the partial sums received from below. -/
  | combineInstant (g : Fin 4) (upset : Option (Fin 4 × Nat))
  /-- PAIR_ENABLE (R348). Setting PAR.CFG.en makes the device standby of a mirrored pair. -/
  | pairEnable (id : ReqId) (data : Word)
  /-- PAIR_RESYNC (R351). Writing CTRL.resync starts a full paced mirror pass. -/
  | pairResync (id : ReqId) (data : Word)
  /-- MIRROR_GRANULE_SEND (R351). The mirror engine sends the next dirty granule, or the next paced granule of the initial pass. -/
  | mirrorGranuleSend
  /-- MIRROR_RESEND_TIMEOUT (R351). A granule not acknowledged within 100 µs is resent. -/
  | mirrorResendTimeout
  /-- HEARTBEAT_SEND (R353). A heartbeat is sent at every multiple of 12,288 BT. -/
  | heartbeatSend
  /-- HEARTBEAT_MISSED (R353). A window of 12,288 BT without a heartbeat is counted and may decide a takeover. -/
  | heartbeatMissed
  /-- PAIR_TAKE (R354). Writing CTRL.take on the standby decides a takeover and pulses PEER_RST_N. -/
  | pairTake (id : ReqId) (data : Word)
  /-- TAKEOVER_TKI_LOW (R354). TKI falls during a takeover, and the 20 µs guard starts. -/
  | takeoverTkiLow
  /-- TAKEOVER_TKI_TIMEOUT (R354). TKI has not fallen within 100 µs, and the takeover aborts because the partner holds. -/
  | takeoverTkiTimeout
  /-- TAKEOVER_GUARD_EXPIRY (R354). After 20 µs with TKI low the device drives TKO high and applies the register image. -/
  | takeoverGuardExpiry
  /-- TAKEOVER_SETTLE_EXPIRY (R354). The settle time after TKO ends, the pair mute clears, and the device is active. -/
  | takeoverSettleExpiry
  /-- PEER_RESET_PULSE_END (R354). The 10 µs PEER_RST_N pulse ends. -/
  | peerResetPulseEnd
  /-- PAIR_YIELD (R355). Writing CTRL.yield gives up mastership, and the device becomes standby. -/
  | pairYield (id : ReqId) (data : Word)
  /-- TKI_RISE (R355). TKI rises: an active device loses mastership, a taking device aborts, or the device wakes. -/
  | tkiRise
  /-- BUNDLE_ISSUE (R365). A core issues one bundle, whose slots execute and whose earlier results land. -/
  | bundleIssue (c : Fin 8) (ops : BundleOps)
  /-- FENCE_COMPLETE (R363). The last outstanding store is acknowledged, and issue resumes after a fence. -/
  | fenceComplete (c : Fin 8)
  /-- WAIT_WAKE (R383). An enabled line becomes pending during wait, and the core takes the interrupt or continues. -/
  | waitWake (c : Fin 8)
  /-- CORE_ACCESS_RESPONSE (R361). The response to a core's remote access arrives, and issue resumes. -/
  | coreAccessResponse (c : Fin 8)
  /-- INTERRUPT_ENTRY (R383). At an eligible boundary with an enabled line pending, the core drains and enters its handler. -/
  | interruptEntry (c : Fin 8)
  /-- NMI_ENTRY (R388). A non-maskable interrupt enters at the next eligible boundary, whatever ie is. -/
  | nmiEntry (c : Fin 8)
  /-- DOORBELL (R382). A DOORBELL write sets the writer's interrupt line at the core. -/
  | doorbell (id : ReqId) (c : Fin 8) (data : Word)
  /-- CORE_RUN (R393). Writing CTRL.run = 1 starts a halted core at START.pc, unless no verified image exists. -/
  | coreRun (id : ReqId) (c : Fin 8) (data : Word)
  /-- CORE_HALT_REQUEST (R393). Writing CTRL.run = 0 halts the core at the next eligible boundary. -/
  | coreHaltRequest (id : ReqId) (c : Fin 8) (data : Word)
  /-- CORE_WATCHDOG_KICK (R394). Writing 0x5A5A to WDOG_KICK restarts the core watchdog. -/
  | coreWatchdogKick (id : ReqId) (c : Fin 8) (data : Word)
  /-- CORE_WATCHDOG_EXPIRY (R394). The core watchdog expires and resets only that core. -/
  | coreWatchdogExpiry (c : Fin 8)
  /-- IMEM_WRITE (R360). A write to a core's IMEM takes effect only while the core is halted. -/
  | imemWrite (id : ReqId) (c : Fin 8) (word : Fin 32768) (data : Word)
  /-- YARDER_ENABLE (R409). A write of a channel's enable starts it, or aborts and disables it. -/
  | yarderEnable (id : ReqId) (k : Fin 32) (data : Word)
  /-- YARDER_PROD_WRITE (R402). A write of PROD offers descriptors when the index arithmetic is valid. -/
  | yarderProdWrite (id : ReqId) (k : Fin 32) (data : Word)
  /-- DESCRIPTOR_FETCH (R399). A channel fetches and checks the descriptor at its consumer index and takes its domain references. -/
  | descriptorFetch (k : Fin 32)
  /-- YARDER_BURST_START (R406). A burst starts once the channel wins the engine and its peripheral count covers it. -/
  | yarderBurstStart (k : Fin 32)
  /-- YARDER_BEAT (R396). The engine completes one beat of the winning channel. -/
  | yarderBeat
  /-- YARDER_RESUME (R408). Writing CTRL.resume leaves halt and resumes fetching at CONS. -/
  | yarderResume (id : ReqId) (k : Fin 32) (data : Word)
  /-- YARDER_ABORT (R409). Writing CTRL.abort ends the current descriptor after its burst with status 0x14, and the channel halts. -/
  | yarderAbort (id : ReqId) (k : Fin 32) (data : Word)
  /-- MEMORY_ACCESS (R415). An access to a SECDED memory corrects, writes back or poisons a failing word. -/
  | memoryAccess (a : Access) (upset : Option Upset)
  /-- CRUISER_STEP (R422). The Cruiser reads the next word of its walk at its interval. -/
  | cruiserStep (upset : Option Upset)
  /-- LEVEL_CHANGE_REQUEST (R435). A write of PL_CTRL.target starts a level change or redirects the running one. -/
  | levelChangeRequest (id : ReqId) (data : Word)
  /-- VID_STEP (R434). Every 0.5 µs during a change the VID code steps by one toward its goal. -/
  | vidStep
  /-- VOK_RISE (R435). VOK rises at the new voltage, and the level change completes. -/
  | vokRise
  /-- VOK_TIMEOUT (R436). VOK stays low 100 µs after the last code, and the level change fails back. -/
  | vokTimeout
  /-- VOK_FALL (R436). VOK falls while no change runs and raises VOK lost. -/
  | vokFall
  /-- SLEEP_IDLE_REQUEST (R441). SLEEP_CTRL.target = 1 sends prepare to the Idle participants. -/
  | sleepIdleRequest (id : ReqId) (data : Word)
  /-- SLEEP_REST_REQUEST (R441). SLEEP_CTRL.target = 2 sends prepare to the Rest participants. -/
  | sleepRestRequest (id : ReqId) (data : Word)
  /-- SLEEP_DORMANT_REQUEST (R441). SLEEP_CTRL.target = 3 sends prepare to the Dormant participants. -/
  | sleepDormantRequest (id : ReqId) (data : Word)
  /-- SLEEP_RUN_REQUEST (R447). SLEEP_CTRL.target = 0 in Idle wakes the device. -/
  | sleepRunRequest (id : ReqId) (data : Word)
  /-- PREPARE_ANSWER (R441). A participant acknowledges or refuses prepare, and the next participant is asked. -/
  | prepareAnswer
  /-- PREPARE_TIMEOUT (R442). A participant that has not answered within 100 µs refuses with reason 7. -/
  | prepareTimeout
  /-- SLEEP_COMMIT (R444). Once every participant has acknowledged, the device commits to the sleep state. -/
  | sleepCommit
  /-- DOMAIN_OFF_REQUEST (R445). Setting a DOM_CTRL.off bit prepares and powers down one switchable domain. -/
  | domainOffRequest (id : ReqId) (data : Word)
  /-- DOMAIN_ON_REQUEST (R445). Clearing a DOM_CTRL.off bit wakes the domain. -/
  | domainOnRequest (id : ReqId) (data : Word)
  /-- WAKE_N_LOW (R446). WAKE_N held low for 1 µs ends a sleep state. -/
  | wakeNLow
  /-- WAKE_TIMER (R446). Device time reaches WAKE_T and ends a sleep state. -/
  | wakeTimer
  /-- POWER_ON_RESET (R450). VAON drops below its POR threshold and holds a cold reset. -/
  | powerOnReset
  /-- RST_N_LOW (R450). RST_N held low asserts a cold reset. -/
  | rstNLow
  /-- WRST_N_LOW (R450). WRST_N held low asserts a warm reset. -/
  | wrstNLow
  /-- PEER_RSTI_N_LOW (R450). PEER_RSTI_N held low asserts a warm reset while the pair is enabled. -/
  | peerRstiNLow
  /-- RESET_PIN_RELEASE (R451). A reset pin rises, and the release proceeds synchronously to REFCLK. -/
  | resetPinRelease (pin : ResetPin)
  /-- SOFTWARE_RESET (R452). The key written to RST.SWRST starts a warm reset. -/
  | softwareReset (id : ReqId) (data : Word)
  /-- DEVICE_WATCHDOG_KICK (R452). Writing 0xC3C3 to RST.WDOG_KICK restarts the device watchdog. -/
  | deviceWatchdogKick (id : ReqId) (data : Word)
  /-- DEVICE_WATCHDOG_EXPIRY (R452). The device watchdog expires, freezes and starts a warm reset. -/
  | deviceWatchdogExpiry
  /-- RELEASE_STEP (R455). After each gap the always-on controller releases the next domain of the sequence. -/
  | releaseStep
  /-- OPTION_LOAD_DONE (R459). The option load ends and passes, repeats on a CRC failure, or enters option fault. -/
  | optionLoadDone (crcOk : Bool)
  /-- RESET_VOK_TIMEOUT (R457). VOK is not high 1 ms after reset VID, and VID goes to 0 for 10 ms. -/
  | resetVokTimeout
  /-- RESET_VOK_RETRY (R457). After 10 ms with VID at 0 the reset ramps VID again. -/
  | resetVokRetry
  /-- BOOT_GO (R466). Writing BOOT_CMD.go stages, verifies and loads the host image. -/
  | bootGo (id : ReqId) (data : Word)
  /-- BOOT_IMAGE_CHECKED (R474). Image verification ends, and the image is accepted and started or fails with a result code. -/
  | bootImageChecked
  /-- KEY_ENROL (R477). SEC command 1 checks and burns a new key slot. -/
  | keyEnrol (id : ReqId) (data : Word)
  /-- KEY_REVOKE (R477). SEC command 2 checks and revokes a key slot. -/
  | keyRevoke (id : ReqId) (data : Word)
  /-- QUOTE (R482). SEC command 3 signs an attestation quote over the nonce. -/
  | quote (id : ReqId) (data : Word)
  /-- ADVANCE_ROLLBACK (R479). SEC command 4 raises the rollback counter to the accepted image's index. -/
  | advanceRollback (id : ReqId) (data : Word)
  /-- SEC_CHALLENGE (R476). SEC command 5 places 32 random bytes in NONCE for the requester. -/
  | secChallenge (id : ReqId) (data : Word)
  /-- SEC_COMMAND_COMPLETE (R478). A running SEC command finishes its burns or signature and sets its result. -/
  | secCommandComplete
  /-- SEC_CHALLENGE_EXPIRY (R476). A key-management challenge expires 100 ms after it was issued. -/
  | secChallengeExpiry (id : ReqId)
  /-- RNG_READ (R484). A read of RNG_DATA returns a new random word, or 0xDEAD_0BAD when unhealthy. -/
  | rngRead (id : ReqId)
  /-- RNG_HEALTH_FAIL (R484). A generator health test fails, and the generator stops serving. -/
  | rngHealthFail
  /-- RNG_RETEST (R484). After 1 ms the noise source retests itself, and ok returns if the retest passes. -/
  | rngRetest (pass : Bool)
  /-- CMEM_FENCE_WRITE (R487). A write of CMEM_FENCE fences common SRAM banks, unless a fence would cover the dump region. -/
  | cmemFenceWrite (id : ReqId) (data : Word)
  /-- FREEZE_NOW (R492). Writing FRZ_CMD.now takes a freeze. -/
  | freezeNow (id : ReqId) (data : Word)
  /-- FREEZE_CLEAR (R492). Writing FRZ_CMD.clear empties the freeze area. -/
  | freezeClear (id : ReqId) (data : Word)
  /-- JTAG_INSTRUCTION (R498). A boundary-scan instruction takes effect, or acts as BYPASS outside boot hold or when closed. -/
  | jtagInstruction (ir : JtagOp)
  /-- SUPPLY_OUT_OF_WINDOW (R504). A monitored rail leaves its window, and the device takes the action for that rail. -/
  | supplyOutOfWindow (rail : Rail)
  /-- SUPPLY_IN_WINDOW (R504). A rail returns inside its window, and its action ends. -/
  | supplyInWindow (rail : Rail)
  /-- PRBS_SYNC_ACQUIRED (R298). The PRBS checker of a lane synchronises after 64 error-free received bits and sets its PRBS_STAT.sync bit. -/
  | prbsSyncAcquired (l : Fin 16)
  /-- PRBS_BIT_ERROR (R298). The checker counts a received bit error, raises PORT IRQ_RAW bit 6, and at 32 errors in 1,024 bits loses synchronisation. -/
  | prbsBitError (l : Fin 16)
  /-- MIRROR_SYNC_LOST (R351). A granule has stayed dirty for more than 1 ms, so PAR.STAT.sync falls and PAR raises IRQ_RAW bit 1. -/
  | mirrorSyncLost
  /-- POWER_ON_RELEASE (R450). The power-on hold ends 1 ms after VAON becomes valid, and the AON release follows at the next REFCLK edge. -/
  | powerOnRelease
  /-- INTERNAL_RESET_RELEASE (R451). An internal reset source ends its 2 µs assertion, and the release sequence begins. -/
  | internalResetRelease
  /-- TSYNC_FALLING_EDGE (R85). TSYNC falls, and TSYNC_OUT falls 2 rc later, following the input pulse width. -/
  | tsyncFallingEdge
  /-- CODE_VIOLATION_IN_IDLE (R275). A code group outside the table, or with wrong disparity, arrives between packets; it is counted in VIOL_COUNT and may add to the per-cycle fault count. -/
  | codeViolationInIdle (l : Fin 16) (rd : Bool) (group : CodeGroup)
  deriving DecidableEq, Repr

end Sys2Proof
end

