-- ==== Sys2Proof/Machine/Regs.lean ====
section
/-! DEFINITION. The register pages of R37 and R38 and the name, place and width of every register field the spec tabulates (R9, R38 and the register tables of each chapter).
A register is named PAGE.REGISTER, a field PAGE.REGISTER_field; both are functions of the page instance and of the array index where the spec has them. -/
namespace Sys2Proof.Machine

/-- Base of page SYS (R38). -/
def SYS.base : Nat := 0x40000000
/-- Base of page RST (R38). -/
def RST.base : Nat := 0x40001000
/-- Base of page PWR (R38). -/
def PWR.base : Nat := 0x40002000
/-- Base of page THM (R38). -/
def THM.base : Nat := 0x40003000
/-- Base of page SEC (R38). -/
def SEC.base : Nat := 0x40004000
/-- Base of page OPT (R38). -/
def OPT.base : Nat := 0x40005000
/-- Base of page MEM (R38). -/
def MEM.base : Nat := 0x40006000
/-- Base of page YRD (R38). -/
def YRD.base : Nat := 0x40007000
/-- Base of page MGT (R38). -/
def MGT.base : Nat := 0x40008000
/-- Base of page FTM (R38). -/
def FTM.base : Nat := 0x40009000
/-- Base of page CLK (R38). -/
def CLK.base : Nat := 0x4000A000
/-- Base of page SCL (R38). -/
def SCL.base : Nat := 0x4000B000
/-- Base of page BIA (R38). -/
def BIA.base : Nat := 0x4000C000
/-- Base of page PRT (R38). -/
def PRT.base : Nat := 0x4000D000
/-- Base of page PAR (R38). -/
def PAR.base : Nat := 0x4000E000
/-- Base of page CAS (R38). -/
def CAS.base : Nat := 0x4000F000
/-- Base of page STD (R38). -/
def STD.base (s : Nat) : Nat := 0x40010000 + s * 0x1000
/-- Base of page CORE (R38). -/
def CORE.base (c : Nat) : Nat := 0x40018000 + c * 0x1000
/-- Base of page YCH (R38). -/
def YCH.base (k : Nat) : Nat := 0x40020000 + k * 0x1000
/-- Base of page BF (R38). -/
def BF.base : Nat := 0x40040000
/-- Base of page BFG (R38). -/
def BFG.base (g : Nat) : Nat := 0x40041000 + g * 0x1000
/-- Base of page DPD (R38). -/
def DPD.base (s : Nat) : Nat := 0x40048000 + s * 0x1000
/-- Base of page TXC (R38). -/
def TXC.base : Nat := 0x40050000
/-- Base of page RXC (R38). -/
def RXC.base : Nat := 0x40051000
/-- Base of page LANE (R38). -/
def LANE.base (l : Nat) : Nat := 0x40058000 + l * 0x1000
/-- Base of page PORT (R38). -/
def PORT.base (q : Nat) : Nat := 0x40068000 + q * 0x1000
/-- Base of page PNL (R38). -/
def PNL.base : Nat := 0x4006C000
/-- Base of page LND (R38). -/
def LND.base : Nat := 0x40070000
/-- Base of page DBG (R38). -/
def DBG.base : Nat := 0x40071000

/-- R44 -/
def HDR.LOCK (pg : Nat) : Nat := pg + 0x2C
def HDR.LOCK_locked (pg : Nat) : Fld := ⟨HDR.LOCK pg, 0, 1⟩
/-- R42 -/
def HDR.ERR_ADDR (pg : Nat) : Nat := pg + 0x28
def HDR.ERR_ADDR_addr (pg : Nat) : Fld := ⟨HDR.ERR_ADDR pg, 0, 32⟩
/-- R42 -/
def HDR.ERR_CODE (pg : Nat) : Nat := pg + 0x24
def HDR.ERR_CODE_code (pg : Nat) : Fld := ⟨HDR.ERR_CODE pg, 0, 8⟩
def HDR.ERR_CODE_count (pg : Nat) : Fld := ⟨HDR.ERR_CODE pg, 8, 8⟩
/-- R51 -/
def HDR.CLAIM (pg : Nat) : Nat := pg + 0x20
def HDR.CLAIM_sel (pg : Nat) : Fld := ⟨HDR.CLAIM pg, 0, 6⟩
def HDR.CLAIM_owner (pg : Nat) : Fld := ⟨HDR.CLAIM pg, 8, 8⟩
def HDR.CLAIM_num (pg : Nat) : Fld := ⟨HDR.CLAIM pg, 16, 6⟩
/-- R521 -/
def HDR.IRQ_SET (pg : Nat) : Nat := pg + 0x1C
def HDR.IRQ_SET_set (pg : Nat) : Fld := ⟨HDR.IRQ_SET pg, 0, 32⟩
/-- R521 -/
def HDR.IRQ_PEND (pg : Nat) : Nat := pg + 0x18
def HDR.IRQ_PEND_pend (pg : Nat) : Fld := ⟨HDR.IRQ_PEND pg, 0, 32⟩
/-- R521 -/
def HDR.IRQ_EN (pg : Nat) : Nat := pg + 0x14
def HDR.IRQ_EN_en (pg : Nat) : Fld := ⟨HDR.IRQ_EN pg, 0, 32⟩
/-- R521 -/
def HDR.IRQ_RAW (pg : Nat) : Nat := pg + 0x10
def HDR.IRQ_RAW_raw (pg : Nat) : Fld := ⟨HDR.IRQ_RAW pg, 0, 32⟩
/-- R42 -/
def HDR.BLK_STAT (pg : Nat) : Nat := pg + 0xC
def HDR.BLK_STAT_ready (pg : Nat) : Fld := ⟨HDR.BLK_STAT pg, 0, 1⟩
def HDR.BLK_STAT_busy (pg : Nat) : Fld := ⟨HDR.BLK_STAT pg, 1, 1⟩
def HDR.BLK_STAT_dom (pg : Nat) : Fld := ⟨HDR.BLK_STAT pg, 2, 2⟩
def HDR.BLK_STAT_claimed (pg : Nat) : Fld := ⟨HDR.BLK_STAT pg, 4, 1⟩
def HDR.BLK_STAT_errpend (pg : Nat) : Fld := ⟨HDR.BLK_STAT pg, 5, 1⟩
/-- R42 -/
def HDR.BLK_CTRL (pg : Nat) : Nat := pg + 0x8
def HDR.BLK_CTRL_enable (pg : Nat) : Fld := ⟨HDR.BLK_CTRL pg, 0, 1⟩
def HDR.BLK_CTRL_srst (pg : Nat) : Fld := ⟨HDR.BLK_CTRL pg, 1, 1⟩
def HDR.BLK_CTRL_wake_ok (pg : Nat) : Fld := ⟨HDR.BLK_CTRL pg, 2, 1⟩
/-- R522 -/
def HDR.BLK_VER (pg : Nat) : Nat := pg + 0x4
def HDR.BLK_VER_version (pg : Nat) : Fld := ⟨HDR.BLK_VER pg, 0, 32⟩
/-- R522 -/
def HDR.BLK_ID (pg : Nat) : Nat := pg + 0x0
def HDR.BLK_ID_layout (pg : Nat) : Fld := ⟨HDR.BLK_ID pg, 0, 8⟩
def HDR.BLK_ID_instance (pg : Nat) : Fld := ⟨HDR.BLK_ID pg, 8, 8⟩
def HDR.BLK_ID_type (pg : Nat) : Fld := ⟨HDR.BLK_ID pg, 16, 16⟩
/-- R52 -/
def SYS.ID : Nat := SYS.base + 0x40
def SYS.ID_grade : Fld := ⟨SYS.ID, 8, 4⟩
def SYS.ID_part : Fld := ⟨SYS.ID, 12, 16⟩
def SYS.ID_stepping : Fld := ⟨SYS.ID, 28, 4⟩
/-- R52 -/
def SYS.TIME_LO : Nat := SYS.base + 0x48
def SYS.TIME_LO_t : Fld := ⟨SYS.TIME_LO, 0, 32⟩
/-- R52 -/
def SYS.TIME_HI : Nat := SYS.base + 0x4C
def SYS.TIME_HI_t : Fld := ⟨SYS.TIME_HI, 0, 32⟩
/-- R52 -/
def SYS.GPIO_DIR : Nat := SYS.base + 0x50
def SYS.GPIO_DIR_out : Fld := ⟨SYS.GPIO_DIR, 0, 16⟩
/-- R52 -/
def SYS.GPIO_OUT : Nat := SYS.base + 0x54
def SYS.GPIO_OUT_lvl : Fld := ⟨SYS.GPIO_OUT, 0, 16⟩
/-- R52 -/
def SYS.GPIO_IN : Nat := SYS.base + 0x58
def SYS.GPIO_IN_lvl : Fld := ⟨SYS.GPIO_IN, 0, 16⟩
/-- R52 -/
def SYS.GPIO_IRQ : Nat := SYS.base + 0x5C
def SYS.GPIO_IRQ_en : Fld := ⟨SYS.GPIO_IRQ, 0, 16⟩
/-- R47 -/
def SYS.CLAIM (i : Nat) : Nat := SYS.base + 0x100 + 4 * i
def SYS.CLAIM_owner (i : Nat) : Fld := ⟨SYS.CLAIM i, 0, 8⟩
def SYS.CLAIM_displaced (i : Nat) : Fld := ⟨SYS.CLAIM i, 8, 1⟩
/-- R470 -/
def RST.CAUSE : Nat := RST.base + 0x40
def RST.CAUSE_src : Fld := ⟨RST.CAUSE, 0, 11⟩
/-- R470 -/
def RST.LAST : Nat := RST.base + 0x44
def RST.LAST_src : Fld := ⟨RST.LAST, 0, 4⟩
/-- R470 -/
def RST.GAP : Nat := RST.base + 0x48
def RST.GAP_gap : Fld := ⟨RST.GAP, 0, 11⟩
def RST.GAP_now : Fld := ⟨RST.GAP, 16, 11⟩
/-- R470 -/
def RST.OPT_RESTARTS : Nat := RST.base + 0x4C
def RST.OPT_RESTARTS_restarts : Fld := ⟨RST.OPT_RESTARTS, 0, 8⟩
def RST.OPT_RESTARTS_crc_fail : Fld := ⟨RST.OPT_RESTARTS, 8, 2⟩
/-- R470 -/
def RST.STATE : Nat := RST.base + 0x50
def RST.STATE_stat : Fld := ⟨RST.STATE, 0, 3⟩
def RST.STATE_phase : Fld := ⟨RST.STATE, 4, 3⟩
def RST.STATE_next : Fld := ⟨RST.STATE, 8, 5⟩
/-- R470 -/
def RST.BOOT_STAT : Nat := RST.base + 0x54
def RST.BOOT_STAT_straps : Fld := ⟨RST.BOOT_STAT, 0, 2⟩
def RST.BOOT_STAT_ret : Fld := ⟨RST.BOOT_STAT, 2, 1⟩
def RST.BOOT_STAT_backup : Fld := ⟨RST.BOOT_STAT, 3, 1⟩
def RST.BOOT_STAT_result : Fld := ⟨RST.BOOT_STAT, 4, 4⟩
def RST.BOOT_STAT_slot : Fld := ⟨RST.BOOT_STAT, 8, 2⟩
def RST.BOOT_STAT_accepted : Fld := ⟨RST.BOOT_STAT, 10, 1⟩
/-- R470 -/
def RST.BOOT_CMD : Nat := RST.base + 0x58
def RST.BOOT_CMD_go : Fld := ⟨RST.BOOT_CMD, 0, 1⟩
/-- R470 -/
def RST.BOOT_LEN : Nat := RST.base + 0x5C
def RST.BOOT_LEN_bytes : Fld := ⟨RST.BOOT_LEN, 0, 24⟩
/-- R470 -/
def RST.WBOOT : Nat := RST.base + 0x60
def RST.WBOOT_len : Fld := ⟨RST.WBOOT, 0, 18⟩
def RST.WBOOT_en : Fld := ⟨RST.WBOOT, 31, 1⟩
/-- R470 -/
def RST.SWRST : Nat := RST.base + 0x64
def RST.SWRST_key : Fld := ⟨RST.SWRST, 0, 32⟩
/-- R470 -/
def RST.WDOG : Nat := RST.base + 0x68
def RST.WDOG_timeout : Fld := ⟨RST.WDOG, 0, 16⟩
/-- R470 -/
def RST.WDOG_KICK : Nat := RST.base + 0x6C
def RST.WDOG_KICK_key : Fld := ⟨RST.WDOG_KICK, 0, 16⟩
/-- R470 -/
def RST.DUMP_PTR : Nat := RST.base + 0x70
def RST.DUMP_PTR_base : Fld := ⟨RST.DUMP_PTR, 10, 22⟩
/-- R470 -/
def RST.DUMP_LEN : Nat := RST.base + 0x74
def RST.DUMP_LEN_kib : Fld := ⟨RST.DUMP_LEN, 0, 13⟩
/-- R470 -/
def RST.DUMP_MARK : Nat := RST.base + 0x78
def RST.DUMP_MARK_mark : Fld := ⟨RST.DUMP_MARK, 0, 16⟩
def RST.DUMP_MARK_lost : Fld := ⟨RST.DUMP_MARK, 16, 1⟩
/-- R27 -/
def PWR.RG_CTRL : Nat := PWR.base + 0xC0
def PWR.RG_CTRL_clear : Fld := ⟨PWR.RG_CTRL, 0, 1⟩
/-- R27 -/
def PWR.RG_DEF_COUNT : Nat := PWR.base + 0xC4
def PWR.RG_DEF_COUNT_count : Fld := ⟨PWR.RG_DEF_COUNT, 0, 16⟩
/-- R27 -/
def PWR.RG_DEF_LAST : Nat := PWR.base + 0xC8
def PWR.RG_DEF_LAST_index : Fld := ⟨PWR.RG_DEF_LAST, 0, 7⟩
def PWR.RG_DEF_LAST_class : Fld := ⟨PWR.RG_DEF_LAST, 7, 1⟩
def PWR.RG_DEF_LAST_valid : Fld := ⟨PWR.RG_DEF_LAST, 8, 1⟩
/-- R27 -/
def PWR.RG_DEF_TIME : Nat := PWR.base + 0xCC
def PWR.RG_DEF_TIME_symtime : Fld := ⟨PWR.RG_DEF_TIME, 0, 32⟩
/-- R27 -/
def PWR.RG_SLACK_DAC : Nat := PWR.base + 0xD0
def PWR.RG_SLACK_DAC_min : Fld := ⟨PWR.RG_SLACK_DAC, 0, 16⟩
/-- R27 -/
def PWR.RG_SLACK_PORT : Nat := PWR.base + 0xD4
def PWR.RG_SLACK_PORT_min : Fld := ⟨PWR.RG_SLACK_PORT, 0, 16⟩
/-- R27 -/
def PWR.RG_SLACK_WARN : Nat := PWR.base + 0xD8
def PWR.RG_SLACK_WARN_limit : Fld := ⟨PWR.RG_SLACK_WARN, 0, 16⟩
/-- R449 -/
def PWR.PL_CTRL : Nat := PWR.base + 0x40
def PWR.PL_CTRL_target : Fld := ⟨PWR.PL_CTRL, 0, 2⟩
/-- R449 -/
def PWR.PL_STAT : Nat := PWR.base + 0x44
def PWR.PL_STAT_cur : Fld := ⟨PWR.PL_STAT, 0, 2⟩
def PWR.PL_STAT_need : Fld := ⟨PWR.PL_STAT, 2, 2⟩
def PWR.PL_STAT_changing : Fld := ⟨PWR.PL_STAT, 4, 1⟩
def PWR.PL_STAT_vok : Fld := ⟨PWR.PL_STAT, 5, 1⟩
def PWR.PL_STAT_vid : Fld := ⟨PWR.PL_STAT, 8, 8⟩
/-- R449 -/
def PWR.SLEEP_CTRL : Nat := PWR.base + 0x48
def PWR.SLEEP_CTRL_target : Fld := ⟨PWR.SLEEP_CTRL, 0, 2⟩
def PWR.SLEEP_CTRL_force : Fld := ⟨PWR.SLEEP_CTRL, 2, 1⟩
/-- R449 -/
def PWR.SLEEP_STAT : Nat := PWR.base + 0x4C
def PWR.SLEEP_STAT_state : Fld := ⟨PWR.SLEEP_STAT, 0, 2⟩
def PWR.SLEEP_STAT_busy : Fld := ⟨PWR.SLEEP_STAT, 2, 1⟩
def PWR.SLEEP_STAT_refused : Fld := ⟨PWR.SLEEP_STAT, 3, 1⟩
def PWR.SLEEP_STAT_block : Fld := ⟨PWR.SLEEP_STAT, 8, 5⟩
def PWR.SLEEP_STAT_reason : Fld := ⟨PWR.SLEEP_STAT, 16, 4⟩
/-- R449 -/
def PWR.DOM_CTRL : Nat := PWR.base + 0x50
def PWR.DOM_CTRL_off : Fld := ⟨PWR.DOM_CTRL, 0, 27⟩
def PWR.DOM_CTRL_force : Fld := ⟨PWR.DOM_CTRL, 31, 1⟩
/-- R449 -/
def PWR.DOM_ON : Nat := PWR.base + 0x54
def PWR.DOM_ON_on : Fld := ⟨PWR.DOM_ON, 0, 27⟩
/-- R449 -/
def PWR.WAKE_EN : Nat := PWR.base + 0x58
def PWR.WAKE_EN_mgt : Fld := ⟨PWR.WAKE_EN, 0, 1⟩
def PWR.WAKE_EN_src : Fld := ⟨PWR.WAKE_EN, 1, 4⟩
/-- R449 -/
def PWR.WAKE_CAUSE : Nat := PWR.base + 0x5C
def PWR.WAKE_CAUSE_cause : Fld := ⟨PWR.WAKE_CAUSE, 0, 6⟩
/-- R449 -/
def PWR.WAKE_T_LO : Nat := PWR.base + 0x60
def PWR.WAKE_T_LO_t : Fld := ⟨PWR.WAKE_T_LO, 0, 32⟩
/-- R449 -/
def PWR.WAKE_T_HI : Nat := PWR.base + 0x64
def PWR.WAKE_T_HI_t : Fld := ⟨PWR.WAKE_T_HI, 0, 32⟩
/-- R449 -/
def PWR.EXIT_SET : Nat := PWR.base + 0x68
def PWR.EXIT_SET_set : Fld := ⟨PWR.EXIT_SET, 0, 27⟩
/-- R449 -/
def PWR.IDLE_EV : Nat := PWR.base + 0x6C
def PWR.IDLE_EV_lines : Fld := ⟨PWR.IDLE_EV, 0, 16⟩
/-- R449 -/
def PWR.RESUME (i : Nat) : Nat := PWR.base + 0x80 + 4 * i
def PWR.RESUME_pc (i : Nat) : Fld := ⟨PWR.RESUME i, 0, 13⟩
def PWR.RESUME_en (i : Nat) : Fld := ⟨PWR.RESUME i, 16, 1⟩
/-- R273 -/
def THM.CTRL : Nat := THM.base + 0x40
def THM.CTRL_xchk_en : Fld := ⟨THM.CTRL, 0, 1⟩
def THM.CTRL_auto_hot : Fld := ⟨THM.CTRL, 1, 1⟩
def THM.CTRL_auto_rise : Fld := ⟨THM.CTRL, 2, 1⟩
/-- R273 -/
def THM.STAT : Nat := THM.base + 0x44
def THM.STAT_halt : Fld := ⟨THM.STAT, 0, 1⟩
def THM.STAT_hot : Fld := ⟨THM.STAT, 1, 1⟩
def THM.STAT_alarm : Fld := ⟨THM.STAT, 2, 1⟩
def THM.STAT_stale : Fld := ⟨THM.STAT, 3, 1⟩
def THM.STAT_suspects : Fld := ⟨THM.STAT, 16, 6⟩
/-- R273 -/
def THM.CEIL : Nat := THM.base + 0x48
def THM.CEIL_ceil : Fld := ⟨THM.CEIL, 0, 16⟩
def THM.CEIL_grade : Fld := ⟨THM.CEIL, 16, 1⟩
/-- R273 -/
def THM.ALARM_TEMP : Nat := THM.base + 0x4C
def THM.ALARM_TEMP_temp : Fld := ⟨THM.ALARM_TEMP, 0, 16⟩
/-- R273 -/
def THM.THR_TEMP : Nat := THM.base + 0x50
def THM.THR_TEMP_temp : Fld := ⟨THM.THR_TEMP, 0, 16⟩
/-- R273 -/
def THM.THR_CTRL : Nat := THM.base + 0x54
def THM.THR_CTRL_k : Fld := ⟨THM.THR_CTRL, 0, 4⟩
def THM.THR_CTRL_hot_k : Fld := ⟨THM.THR_CTRL, 4, 4⟩
def THM.THR_CTRL_step : Fld := ⟨THM.THR_CTRL, 8, 4⟩
def THM.THR_CTRL_exempt : Fld := ⟨THM.THR_CTRL, 16, 5⟩
/-- R273 -/
def THM.XCHK_LIMIT : Nat := THM.base + 0x58
def THM.XCHK_LIMIT_limit : Fld := ⟨THM.XCHK_LIMIT, 0, 10⟩
/-- R273 -/
def THM.SUSPECT_LO : Nat := THM.base + 0x60
def THM.SUSPECT_LO_susp : Fld := ⟨THM.SUSPECT_LO, 0, 32⟩
/-- R273 -/
def THM.SUSPECT_HI : Nat := THM.base + 0x64
def THM.SUSPECT_HI_susp : Fld := ⟨THM.SUSPECT_HI, 0, 8⟩
/-- R273 -/
def THM.HALT : Nat := THM.base + 0x68
def THM.HALT_clr : Fld := ⟨THM.HALT, 0, 1⟩
def THM.HALT_site : Fld := ⟨THM.HALT, 8, 6⟩
/-- R273 -/
def THM.MAX : Nat := THM.base + 0x6C
def THM.MAX_temp : Fld := ⟨THM.MAX, 0, 16⟩
def THM.MAX_site : Fld := ⟨THM.MAX, 16, 6⟩
/-- R273 -/
def THM.RISE_STAT : Nat := THM.base + 0x70
def THM.RISE_STAT_grp : Fld := ⟨THM.RISE_STAT, 0, 6⟩
def THM.RISE_STAT_ext : Fld := ⟨THM.RISE_STAT, 8, 8⟩
/-- R273 -/
def THM.TEMP (i : Nat) : Nat := THM.base + 0x100 + 4 * i
def THM.TEMP_rep (i : Nat) : Fld := ⟨THM.TEMP i, 0, 16⟩
def THM.TEMP_raw (i : Nat) : Fld := ⟨THM.TEMP i, 16, 16⟩
/-- R273 -/
def THM.NBR (i : Nat) : Nat := THM.base + 0x200 + 4 * i
def THM.NBR_n0 (i : Nat) : Fld := ⟨THM.NBR i, 0, 6⟩
def THM.NBR_n1 (i : Nat) : Fld := ⟨THM.NBR i, 8, 6⟩
def THM.NBR_n2 (i : Nat) : Fld := ⟨THM.NBR i, 16, 6⟩
/-- R273 -/
def THM.RISE_LIM (i : Nat) : Nat := THM.base + 0x300 + 4 * i
def THM.RISE_LIM_lim (i : Nat) : Fld := ⟨THM.RISE_LIM i, 0, 16⟩
def THM.RISE_LIM_en (i : Nat) : Fld := ⟨THM.RISE_LIM i, 16, 1⟩
/-- R273 -/
def THM.RISE_RATE (i : Nat) : Nat := THM.base + 0x340 + 4 * i
def THM.RISE_RATE_delta (i : Nat) : Fld := ⟨THM.RISE_RATE i, 0, 16⟩
/-- R273 -/
def THM.EXT_TEMP (i : Nat) : Nat := THM.base + 0x380 + 4 * i
def THM.EXT_TEMP_temp (i : Nat) : Fld := ⟨THM.EXT_TEMP i, 0, 16⟩
def THM.EXT_TEMP_stale (i : Nat) : Fld := ⟨THM.EXT_TEMP i, 16, 1⟩
/-- R273 -/
def THM.EXT (i : Nat) : Nat := THM.base + 0x400 + 128 * i
def THM.EXT_ch (i : Nat) : Fld := ⟨THM.EXT i, 0, 6⟩
def THM.EXT_en (i : Nat) : Fld := ⟨THM.EXT i, 8, 1⟩
/-- R273 -/
def THM.EXT_LUT (n i : Nat) : Nat := THM.base + 0x404 + 0x80 * n + 4 * i
def THM.EXT_LUT_l (n i : Nat) : Fld := ⟨THM.EXT_LUT n i, 0, 16⟩
/-- R485 -/
def SEC.CMD : Nat := SEC.base + 0x40
def SEC.CMD_op : Fld := ⟨SEC.CMD, 0, 4⟩
/-- R485 -/
def SEC.CMD_ADDR : Nat := SEC.base + 0x44
def SEC.CMD_ADDR_addr : Fld := ⟨SEC.CMD_ADDR, 2, 30⟩
/-- R485 -/
def SEC.STAT : Nat := SEC.base + 0x48
def SEC.STAT_busy : Fld := ⟨SEC.STAT, 0, 1⟩
def SEC.STAT_op : Fld := ⟨SEC.STAT, 4, 4⟩
def SEC.STAT_result : Fld := ⟨SEC.STAT, 8, 8⟩
/-- R485 -/
def SEC.SLOTS : Nat := SEC.base + 0x4C
def SEC.SLOTS_state_0 : Fld := ⟨SEC.SLOTS, 0, 2⟩
def SEC.SLOTS_state_1 : Fld := ⟨SEC.SLOTS, 8, 2⟩
def SEC.SLOTS_state_2 : Fld := ⟨SEC.SLOTS, 16, 2⟩
def SEC.SLOTS_state_3 : Fld := ⟨SEC.SLOTS, 24, 2⟩
def SEC.SLOTS_perm_0 : Fld := ⟨SEC.SLOTS, 2, 3⟩
def SEC.SLOTS_perm_1 : Fld := ⟨SEC.SLOTS, 10, 3⟩
def SEC.SLOTS_perm_2 : Fld := ⟨SEC.SLOTS, 18, 3⟩
def SEC.SLOTS_perm_3 : Fld := ⟨SEC.SLOTS, 26, 3⟩
/-- R485 -/
def SEC.ROLL : Nat := SEC.base + 0x50
def SEC.ROLL_count : Fld := ⟨SEC.ROLL, 0, 7⟩
/-- R485 -/
def SEC.CTRL : Nat := SEC.base + 0x54
def SEC.CTRL_km_dis : Fld := ⟨SEC.CTRL, 0, 1⟩
/-- R485 -/
def SEC.LOCKS : Nat := SEC.base + 0x58
def SEC.LOCKS_rst_ok : Fld := ⟨SEC.LOCKS, 0, 1⟩
def SEC.LOCKS_dbg_closed : Fld := ⟨SEC.LOCKS, 1, 1⟩
def SEC.LOCKS_seeded : Fld := ⟨SEC.LOCKS, 2, 1⟩
def SEC.LOCKS_id_bad : Fld := ⟨SEC.LOCKS, 3, 1⟩
/-- R485 -/
def SEC.RNG_DATA : Nat := SEC.base + 0x5C
def SEC.RNG_DATA_data : Fld := ⟨SEC.RNG_DATA, 0, 32⟩
/-- R485 -/
def SEC.RNG_STAT : Nat := SEC.base + 0x60
def SEC.RNG_STAT_ok : Fld := ⟨SEC.RNG_STAT, 0, 1⟩
def SEC.RNG_STAT_fail : Fld := ⟨SEC.RNG_STAT, 8, 8⟩
/-- R485 -/
def SEC.IMG : Nat := SEC.base + 0x64
def SEC.IMG_slot : Fld := ⟨SEC.IMG, 0, 2⟩
def SEC.IMG_rollback : Fld := ⟨SEC.IMG, 8, 7⟩
/-- R485 -/
def SEC.NONCE (i : Nat) : Nat := SEC.base + 0x80 + 4 * i
def SEC.NONCE_word (i : Nat) : Fld := ⟨SEC.NONCE i, 0, 32⟩
/-- R485 -/
def SEC.SLOT_HASH (i : Nat) : Nat := SEC.base + 0x100 + 4 * i
def SEC.SLOT_HASH_word (i : Nat) : Fld := ⟨SEC.SLOT_HASH i, 0, 32⟩
/-- R485 -/
def SEC.ID_PK (i : Nat) : Nat := SEC.base + 0x200 + 4 * i
def SEC.ID_PK_word (i : Nat) : Fld := ⟨SEC.ID_PK i, 0, 32⟩
/-- R485 -/
def SEC.MEAS_ROM (i : Nat) : Nat := SEC.base + 0x240 + 4 * i
def SEC.MEAS_ROM_word (i : Nat) : Fld := ⟨SEC.MEAS_ROM i, 0, 32⟩
/-- R485 -/
def SEC.MEAS_IMG (i : Nat) : Nat := SEC.base + 0x260 + 4 * i
def SEC.MEAS_IMG_word (i : Nat) : Fld := ⟨SEC.MEAS_IMG i, 0, 32⟩
/-- R428 -/
def MEM.CRU_CTRL : Nat := MEM.base + 0x40
def MEM.CRU_CTRL_en : Fld := ⟨MEM.CRU_CTRL, 0, 1⟩
def MEM.CRU_CTRL_ivl : Fld := ⟨MEM.CRU_CTRL, 12, 20⟩
/-- R428 -/
def MEM.CRU_MASK : Nat := MEM.base + 0x44
def MEM.CRU_MASK_secded : Fld := ⟨MEM.CRU_MASK, 0, 18⟩
def MEM.CRU_MASK_chk : Fld := ⟨MEM.CRU_MASK, 24, 5⟩
/-- R428 -/
def MEM.CRU_STAT : Nat := MEM.base + 0x48
def MEM.CRU_STAT_addr : Fld := ⟨MEM.CRU_STAT, 0, 32⟩
/-- R428 -/
def MEM.CRU_PASS_COUNT : Nat := MEM.base + 0x4C
def MEM.CRU_PASS_COUNT_count : Fld := ⟨MEM.CRU_PASS_COUNT, 0, 16⟩
def MEM.CRU_PASS_COUNT_clear : Fld := ⟨MEM.CRU_PASS_COUNT, 16, 1⟩
/-- R428 -/
def MEM.DET_STAGE_COUNT : Nat := MEM.base + 0x50
def MEM.DET_STAGE_COUNT_count : Fld := ⟨MEM.DET_STAGE_COUNT, 0, 16⟩
def MEM.DET_STAGE_COUNT_clear : Fld := ⟨MEM.DET_STAGE_COUNT, 16, 1⟩
/-- R428 -/
def MEM.DET_RG_COUNT : Nat := MEM.base + 0x54
def MEM.DET_RG_COUNT_count : Fld := ⟨MEM.DET_RG_COUNT, 0, 16⟩
def MEM.DET_RG_COUNT_clear : Fld := ⟨MEM.DET_RG_COUNT, 16, 1⟩
/-- R428 -/
def MEM.RET_LOSS_COUNT : Nat := MEM.base + 0x58
def MEM.RET_LOSS_COUNT_count : Fld := ⟨MEM.RET_LOSS_COUNT, 0, 16⟩
def MEM.RET_LOSS_COUNT_clear : Fld := ⟨MEM.RET_LOSS_COUNT, 16, 1⟩
/-- R428 -/
def MEM.RET_LOSS_ADDR : Nat := MEM.base + 0x5C
def MEM.RET_LOSS_ADDR_addr : Fld := ⟨MEM.RET_LOSS_ADDR, 0, 32⟩
/-- R428 -/
def MEM.CORR_COUNT (i : Nat) : Nat := MEM.base + 0x100 + 16 * i
def MEM.CORR_COUNT_count (i : Nat) : Fld := ⟨MEM.CORR_COUNT i, 0, 16⟩
def MEM.CORR_COUNT_clear (i : Nat) : Fld := ⟨MEM.CORR_COUNT i, 16, 1⟩
def MEM.CORR_COUNT_bit (i : Nat) : Fld := ⟨MEM.CORR_COUNT i, 17, 7⟩
/-- R428 -/
def MEM.CORR_ADDR (i : Nat) : Nat := MEM.base + 0x104 + 16 * i
def MEM.CORR_ADDR_repeat (i : Nat) : Fld := ⟨MEM.CORR_ADDR i, 0, 1⟩
def MEM.CORR_ADDR_addr (i : Nat) : Fld := ⟨MEM.CORR_ADDR i, 3, 29⟩
/-- R428 -/
def MEM.UNC_COUNT (i : Nat) : Nat := MEM.base + 0x108 + 16 * i
def MEM.UNC_COUNT_count (i : Nat) : Fld := ⟨MEM.UNC_COUNT i, 0, 16⟩
def MEM.UNC_COUNT_clear (i : Nat) : Fld := ⟨MEM.UNC_COUNT i, 16, 1⟩
/-- R428 -/
def MEM.UNC_ADDR (i : Nat) : Nat := MEM.base + 0x10C + 16 * i
def MEM.UNC_ADDR_addr (i : Nat) : Fld := ⟨MEM.UNC_ADDR i, 3, 29⟩
/-- R413 -/
def YRD.ACTIVE : Nat := YRD.base + 0x40
def YRD.ACTIVE_k : Fld := ⟨YRD.ACTIVE, 0, 5⟩
def YRD.ACTIVE_busy : Fld := ⟨YRD.ACTIVE, 8, 1⟩
/-- R413 -/
def YRD.HALT_MAP : Nat := YRD.base + 0x44
def YRD.HALT_MAP_map : Fld := ⟨YRD.HALT_MAP, 0, 32⟩
/-- R413 -/
def YRD.PAUSE_MAP : Nat := YRD.base + 0x48
def YRD.PAUSE_MAP_map : Fld := ⟨YRD.PAUSE_MAP, 0, 32⟩
/-- R413 -/
def YRD.DOMREF : Nat := YRD.base + 0x4C
def YRD.DOMREF_aon : Fld := ⟨YRD.DOMREF, 0, 1⟩
def YRD.DOMREF_sec : Fld := ⟨YRD.DOMREF, 1, 1⟩
def YRD.DOMREF_fab : Fld := ⟨YRD.DOMREF, 2, 1⟩
def YRD.DOMREF_core : Fld := ⟨YRD.DOMREF, 3, 8⟩
def YRD.DOMREF_cmem : Fld := ⟨YRD.DOMREF, 11, 1⟩
def YRD.DOMREF_bf : Fld := ⟨YRD.DOMREF, 12, 1⟩
def YRD.DOMREF_lnd : Fld := ⟨YRD.DOMREF, 13, 1⟩
def YRD.DOMREF_std : Fld := ⟨YRD.DOMREF, 14, 8⟩
def YRD.DOMREF_port : Fld := ⟨YRD.DOMREF, 22, 4⟩
def YRD.DOMREF_aux : Fld := ⟨YRD.DOMREF, 26, 1⟩
/-- R413 -/
def YRD.BEATS_LO : Nat := YRD.base + 0x50
def YRD.BEATS_LO_count : Fld := ⟨YRD.BEATS_LO, 0, 32⟩
/-- R413 -/
def YRD.BEATS_HI : Nat := YRD.base + 0x54
def YRD.BEATS_HI_count : Fld := ⟨YRD.BEATS_HI, 0, 32⟩
/-- R87 -/
def FTM.CTRL : Nat := FTM.base + 0x40
def FTM.CTRL_run : Fld := ⟨FTM.CTRL, 0, 1⟩
def FTM.CTRL_clear : Fld := ⟨FTM.CTRL, 1, 1⟩
def FTM.CTRL_fec_rel : Fld := ⟨FTM.CTRL, 2, 1⟩
def FTM.CTRL_running : Fld := ⟨FTM.CTRL, 8, 1⟩
/-- R87 -/
def FTM.ACT_LIST : Nat := FTM.base + 0x44
def FTM.ACT_LIST_base : Fld := ⟨FTM.ACT_LIST, 0, 10⟩
def FTM.ACT_LIST_count : Fld := ⟨FTM.ACT_LIST, 10, 11⟩
/-- R87 -/
def FTM.ACT_LEN : Nat := FTM.base + 0x48
def FTM.ACT_LEN_len : Fld := ⟨FTM.ACT_LEN, 0, 24⟩
/-- R87 -/
def FTM.NEXT_LIST : Nat := FTM.base + 0x4C
def FTM.NEXT_LIST_base : Fld := ⟨FTM.NEXT_LIST, 0, 10⟩
def FTM.NEXT_LIST_count : Fld := ⟨FTM.NEXT_LIST, 10, 11⟩
/-- R87 -/
def FTM.NEXT_LEN : Nat := FTM.base + 0x50
def FTM.NEXT_LEN_len : Fld := ⟨FTM.NEXT_LEN, 0, 24⟩
/-- R87 -/
def FTM.NEXT_CTRL : Nat := FTM.base + 0x54
def FTM.NEXT_CTRL_commit : Fld := ⟨FTM.NEXT_CTRL, 0, 1⟩
def FTM.NEXT_CTRL_pending : Fld := ⟨FTM.NEXT_CTRL, 1, 1⟩
/-- R87 -/
def FTM.CUR_ENTRY : Nat := FTM.base + 0x58
def FTM.CUR_ENTRY_index : Fld := ⟨FTM.CUR_ENTRY, 0, 10⟩
def FTM.CUR_ENTRY_valid : Fld := ⟨FTM.CUR_ENTRY, 16, 1⟩
/-- R87 -/
def FTM.START_LO : Nat := FTM.base + 0x60
def FTM.START_LO_t : Fld := ⟨FTM.START_LO, 8, 24⟩
/-- R87 -/
def FTM.START_HI : Nat := FTM.base + 0x64
def FTM.START_HI_t : Fld := ⟨FTM.START_HI, 0, 32⟩
/-- R87 -/
def FTM.FRAME_T_LO : Nat := FTM.base + 0x68
def FTM.FRAME_T_LO_t : Fld := ⟨FTM.FRAME_T_LO, 0, 32⟩
/-- R87 -/
def FTM.FRAME_T_HI : Nat := FTM.base + 0x6C
def FTM.FRAME_T_HI_t : Fld := ⟨FTM.FRAME_T_HI, 0, 32⟩
/-- R87 -/
def FTM.COUNTS : Nat := FTM.base + 0x70
def FTM.COUNTS_late : Fld := ⟨FTM.COUNTS, 0, 8⟩
def FTM.COUNTS_ovr : Fld := ⟨FTM.COUNTS, 8, 8⟩
def FTM.COUNTS_bad : Fld := ⟨FTM.COUNTS, 16, 8⟩
/-- R87 -/
def FTM.BAD_ENTRY : Nat := FTM.base + 0x74
def FTM.BAD_ENTRY_index : Fld := ⟨FTM.BAD_ENTRY, 0, 10⟩
def FTM.BAD_ENTRY_valid : Fld := ⟨FTM.BAD_ENTRY, 16, 1⟩
/-- R87 -/
def FTM.EV_CFG (i : Nat) : Nat := FTM.base + 0x100 + 8 * i
def FTM.EV_CFG_en (i : Nat) : Fld := ⟨FTM.EV_CFG i, 0, 1⟩
def FTM.EV_CFG_pulse (i : Nat) : Fld := ⟨FTM.EV_CFG i, 1, 1⟩
/-- R87 -/
def FTM.EV_TIME (i : Nat) : Nat := FTM.base + 0x104 + 8 * i
def FTM.EV_TIME_offset (i : Nat) : Fld := ⟨FTM.EV_TIME i, 0, 16⟩
def FTM.EV_TIME_width (i : Nat) : Fld := ⟨FTM.EV_TIME i, 16, 16⟩
/-- R87 -/
def FTM.FEC_MAP (i : Nat) : Nat := FTM.base + 0x180 + 4 * i
def FTM.FEC_MAP_lines (i : Nat) : Fld := ⟨FTM.FEC_MAP i, 0, 16⟩
def FTM.FEC_MAP_inv (i : Nat) : Fld := ⟨FTM.FEC_MAP i, 16, 1⟩
def FTM.FEC_MAP_force (i : Nat) : Fld := ⟨FTM.FEC_MAP i, 17, 1⟩
def FTM.FEC_MAP_fval (i : Nat) : Fld := ⟨FTM.FEC_MAP i, 18, 1⟩
/-- R87 -/
def FTM.FES_CFG (i : Nat) : Nat := FTM.base + 0x200 + 4 * i
def FTM.FES_CFG_en (i : Nat) : Fld := ⟨FTM.FES_CFG i, 0, 1⟩
def FTM.FES_CFG_mode3 (i : Nat) : Fld := ⟨FTM.FES_CFG i, 1, 1⟩
def FTM.FES_CFG_div (i : Nat) : Fld := ⟨FTM.FES_CFG i, 2, 8⟩
def FTM.FES_CFG_offset (i : Nat) : Fld := ⟨FTM.FES_CFG i, 16, 16⟩
/-- R87 -/
def FTM.FES_RX (i : Nat) : Nat := FTM.base + 0x210 + 4 * i
def FTM.FES_RX_rx (i : Nat) : Fld := ⟨FTM.FES_RX i, 0, 32⟩
/-- R87 -/
def FTM.FES_DATA (i : Nat) : Nat := FTM.base + 0x400 + 8 * i
def FTM.FES_DATA_data (i : Nat) : Fld := ⟨FTM.FES_DATA i, 0, 32⟩
/-- R87 -/
def FTM.FES_FMT (i : Nat) : Nat := FTM.base + 0x404 + 8 * i
def FTM.FES_FMT_len (i : Nat) : Fld := ⟨FTM.FES_FMT i, 0, 5⟩
/-- R88 -/
def CLK.TSYNC_CTRL : Nat := CLK.base + 0x200
def CLK.TSYNC_CTRL_mode : Fld := ⟨CLK.TSYNC_CTRL, 0, 2⟩
def CLK.TSYNC_CTRL_armed : Fld := ⟨CLK.TSYNC_CTRL, 8, 1⟩
def CLK.TSYNC_CTRL_aligned : Fld := ⟨CLK.TSYNC_CTRL, 9, 1⟩
/-- R88 -/
def CLK.TSYNC_COMP : Nat := CLK.base + 0x204
def CLK.TSYNC_COMP_rc : Fld := ⟨CLK.TSYNC_COMP, 0, 16⟩
/-- R88 -/
def CLK.TSYNC_LOAD_LO : Nat := CLK.base + 0x208
def CLK.TSYNC_LOAD_LO_t : Fld := ⟨CLK.TSYNC_LOAD_LO, 5, 27⟩
/-- R88 -/
def CLK.TSYNC_LOAD_HI : Nat := CLK.base + 0x20C
def CLK.TSYNC_LOAD_HI_t : Fld := ⟨CLK.TSYNC_LOAD_HI, 0, 32⟩
/-- R88 -/
def CLK.TSYNC_STAMP_LO : Nat := CLK.base + 0x210
def CLK.TSYNC_STAMP_LO_t : Fld := ⟨CLK.TSYNC_STAMP_LO, 0, 32⟩
/-- R88 -/
def CLK.TSYNC_STAMP_HI : Nat := CLK.base + 0x214
def CLK.TSYNC_STAMP_HI_t : Fld := ⟨CLK.TSYNC_STAMP_HI, 0, 32⟩
/-- R88 -/
def CLK.TSYNC_ERR : Nat := CLK.base + 0x218
def CLK.TSYNC_ERR_err : Fld := ⟨CLK.TSYNC_ERR, 0, 16⟩
def CLK.TSYNC_ERR_limit : Fld := ⟨CLK.TSYNC_ERR, 16, 16⟩
/-- R117 -/
def CLK.PLL_CTRL : Nat := CLK.base + 0x40
def CLK.PLL_CTRL_en : Fld := ⟨CLK.PLL_CTRL, 0, 1⟩
def CLK.PLL_CTRL_half : Fld := ⟨CLK.PLL_CTRL, 1, 1⟩
/-- R117 -/
def CLK.PLL_STAT : Nat := CLK.base + 0x44
def CLK.PLL_STAT_locked : Fld := ⟨CLK.PLL_STAT, 0, 1⟩
def CLK.PLL_STAT_ref_ok : Fld := ⟨CLK.PLL_STAT, 1, 1⟩
/-- R117 -/
def CLK.LOCK_LOSS_COUNT : Nat := CLK.base + 0x48
def CLK.LOCK_LOSS_COUNT_count : Fld := ⟨CLK.LOCK_LOSS_COUNT, 0, 8⟩
/-- R254 -/
def SCL.CTRL : Nat := SCL.base + 0x40
def SCL.CTRL_en_aen_b : Fld := ⟨SCL.CTRL, 0, 2⟩
def SCL.CTRL_keep_akeep_b : Fld := ⟨SCL.CTRL, 2, 2⟩
def SCL.CTRL_cal_acal_b : Fld := ⟨SCL.CTRL, 4, 2⟩
def SCL.CTRL_cal_busy : Fld := ⟨SCL.CTRL, 8, 2⟩
/-- R254 -/
def SCL.RB_SEL : Nat := SCL.base + 0x44
def SCL.RB_SEL_j : Fld := ⟨SCL.RB_SEL, 0, 7⟩
/-- R254 -/
def SCL.SEQ_CFG (i : Nat) : Nat := SCL.base + 0x50 + 4 * i
def SCL.SEQ_CFG_len (i : Nat) : Fld := ⟨SCL.SEQ_CFG i, 0, 6⟩
def SCL.SEQ_CFG_run (i : Nat) : Fld := ⟨SCL.SEQ_CFG i, 8, 1⟩
def SCL.SEQ_CFG_repeat (i : Nat) : Fld := ⟨SCL.SEQ_CFG i, 9, 1⟩
def SCL.SEQ_CFG_period (i : Nat) : Fld := ⟨SCL.SEQ_CFG i, 16, 16⟩
/-- R254 -/
def SCL.RES_CFG (i : Nat) : Nat := SCL.base + 0x58 + 4 * i
def SCL.RES_CFG_en (i : Nat) : Fld := ⟨SCL.RES_CFG i, 0, 1⟩
def SCL.RES_CFG_burst (i : Nat) : Fld := ⟨SCL.RES_CFG i, 1, 2⟩
/-- R254 -/
def SCL.MISSED_COUNT : Nat := SCL.base + 0x60
def SCL.MISSED_COUNT_a : Fld := ⟨SCL.MISSED_COUNT, 0, 8⟩
def SCL.MISSED_COUNT_b : Fld := ⟨SCL.MISSED_COUNT, 8, 8⟩
def SCL.MISSED_COUNT_clear : Fld := ⟨SCL.MISSED_COUNT, 16, 1⟩
/-- R254 -/
def SCL.RES_LOST_COUNT : Nat := SCL.base + 0x64
def SCL.RES_LOST_COUNT_count : Fld := ⟨SCL.RES_LOST_COUNT, 0, 16⟩
def SCL.RES_LOST_COUNT_clear : Fld := ⟨SCL.RES_LOST_COUNT, 16, 1⟩
/-- R254 -/
def SCL.SNAP_LO (i : Nat) : Nat := SCL.base + 0x70 + 8 * i
def SCL.SNAP_LO_snap (i : Nat) : Fld := ⟨SCL.SNAP_LO i, 0, 32⟩
/-- R254 -/
def SCL.SNAP_HI (i : Nat) : Nat := SCL.base + 0x74 + 8 * i
def SCL.SNAP_HI_snap (i : Nat) : Fld := ⟨SCL.SNAP_HI i, 0, 32⟩
/-- R254 -/
def SCL.CAL_OFS (i : Nat) : Nat := SCL.base + 0xA0 + 4 * i
def SCL.CAL_OFS_o (i : Nat) : Fld := ⟨SCL.CAL_OFS i, 0, 16⟩
/-- R254 -/
def SCL.CAL_GAIN (i : Nat) : Nat := SCL.base + 0xB0 + 4 * i
def SCL.CAL_GAIN_g (i : Nat) : Fld := ⟨SCL.CAL_GAIN i, 0, 16⟩
/-- R254 -/
def SCL.SEQ (i : Nat) : Nat := SCL.base + 0x200 + 4 * i
def SCL.SEQ_ch (i : Nat) : Fld := ⟨SCL.SEQ i, 0, 6⟩
def SCL.SEQ_range (i : Nat) : Fld := ⟨SCL.SEQ i, 6, 1⟩
def SCL.SEQ_avg (i : Nat) : Fld := ⟨SCL.SEQ i, 8, 8⟩
/-- R254 -/
def SCL.INJ (i : Nat) : Nat := SCL.base + 0x300 + 8 * i
def SCL.INJ_en (i : Nat) : Fld := ⟨SCL.INJ i, 0, 1⟩
def SCL.INJ_line (i : Nat) : Fld := ⟨SCL.INJ i, 4, 4⟩
def SCL.INJ_ch (i : Nat) : Fld := ⟨SCL.INJ i, 8, 6⟩
def SCL.INJ_range (i : Nat) : Fld := ⟨SCL.INJ i, 14, 1⟩
def SCL.INJ_avg (i : Nat) : Fld := ⟨SCL.INJ i, 16, 8⟩
def SCL.INJ_tag (i : Nat) : Fld := ⟨SCL.INJ i, 24, 8⟩
/-- R254 -/
def SCL.INJ_DLY (i : Nat) : Nat := SCL.base + 0x304 + 8 * i
def SCL.INJ_DLY_delay (i : Nat) : Fld := ⟨SCL.INJ_DLY i, 0, 16⟩
/-- R253 -/
def BIA.STAT : Nat := BIA.base + 0x40
def BIA.STAT_vaux_ok : Fld := ⟨BIA.STAT, 0, 1⟩
def BIA.STAT_vneg_ok : Fld := ⟨BIA.STAT, 1, 1⟩
def BIA.STAT_hiz : Fld := ⟨BIA.STAT, 2, 1⟩
/-- R253 -/
def BIA.CFG (i : Nat) : Nat := BIA.base + 0x100 + 16 * i
def BIA.CFG_mode (i : Nat) : Fld := ⟨BIA.CFG i, 0, 1⟩
def BIA.CFG_span (i : Nat) : Fld := ⟨BIA.CFG i, 1, 2⟩
/-- R253 -/
def BIA.TARGET (i : Nat) : Nat := BIA.base + 0x104 + 16 * i
def BIA.TARGET_target (i : Nat) : Fld := ⟨BIA.TARGET i, 0, 16⟩
/-- R253 -/
def BIA.CODE (i : Nat) : Nat := BIA.base + 0x108 + 16 * i
def BIA.CODE_code (i : Nat) : Fld := ⟨BIA.CODE i, 0, 16⟩
def BIA.CODE_clamp (i : Nat) : Fld := ⟨BIA.CODE i, 16, 1⟩
def BIA.CODE_fault (i : Nat) : Fld := ⟨BIA.CODE i, 17, 1⟩
def BIA.CODE_changing (i : Nat) : Fld := ⟨BIA.CODE i, 18, 1⟩
def BIA.CODE_abort (i : Nat) : Fld := ⟨BIA.CODE i, 19, 1⟩
/-- R253 -/
def BIA.SLEW (i : Nat) : Nat := BIA.base + 0x10C + 16 * i
def BIA.SLEW_step (i : Nat) : Fld := ⟨BIA.SLEW i, 0, 12⟩
def BIA.SLEW_ivl (i : Nat) : Fld := ⟨BIA.SLEW i, 16, 16⟩
/-- R253 -/
def BIA.LIM (i : Nat) : Nat := BIA.base + 0x800 + 4 * i
def BIA.LIM_lo (i : Nat) : Fld := ⟨BIA.LIM i, 0, 16⟩
def BIA.LIM_hi (i : Nat) : Fld := ⟨BIA.LIM i, 16, 16⟩
/-- R253 -/
def BIA.SAFE_CEIL (i : Nat) : Nat := BIA.base + 0xA00 + 4 * i
def BIA.SAFE_CEIL_ceil (i : Nat) : Fld := ⟨BIA.SAFE_CEIL i, 0, 16⟩
def BIA.SAFE_CEIL_rest (i : Nat) : Fld := ⟨BIA.SAFE_CEIL i, 16, 1⟩
/-- R255 -/
def PRT.ACT_STAT : Nat := PRT.base + 0x40
def PRT.ACT_STAT_act : Fld := ⟨PRT.ACT_STAT, 0, 28⟩
/-- R255 -/
def PRT.ACT_CLR : Nat := PRT.base + 0x44
def PRT.ACT_CLR_clr : Fld := ⟨PRT.ACT_CLR, 0, 28⟩
/-- R255 -/
def PRT.TRIP_RAW : Nat := PRT.base + 0x48
def PRT.TRIP_RAW_raw : Fld := ⟨PRT.TRIP_RAW, 0, 28⟩
/-- R255 -/
def PRT.SRC_CFG (i : Nat) : Nat := PRT.base + 0x100 + 4 * i
def PRT.SRC_CFG_act (i : Nat) : Fld := ⟨PRT.SRC_CFG i, 0, 4⟩
def PRT.SRC_CFG_path (i : Nat) : Fld := ⟨PRT.SRC_CFG i, 8, 6⟩
def PRT.SRC_CFG_safe (i : Nat) : Fld := ⟨PRT.SRC_CFG i, 16, 16⟩
/-- R255 -/
def PRT.SRC_MIN (i : Nat) : Nat := PRT.base + 0x180 + 4 * i
def PRT.SRC_MIN_act (i : Nat) : Fld := ⟨PRT.SRC_MIN i, 0, 4⟩
/-- R255 -/
def PRT.CMP (i : Nat) : Nat := PRT.base + 0x200 + 4 * i
def PRT.CMP_hi (i : Nat) : Fld := ⟨PRT.CMP i, 0, 12⟩
def PRT.CMP_lo (i : Nat) : Fld := ⟨PRT.CMP i, 16, 12⟩
def PRT.CMP_q (i : Nat) : Fld := ⟨PRT.CMP i, 28, 3⟩
def PRT.CMP_en (i : Nat) : Fld := ⟨PRT.CMP i, 31, 1⟩
/-- R255 -/
def PRT.TRIP_COUNT (i : Nat) : Nat := PRT.base + 0x280 + 4 * i
def PRT.TRIP_COUNT_count (i : Nat) : Fld := ⟨PRT.TRIP_COUNT i, 0, 8⟩
def PRT.TRIP_COUNT_clear (i : Nat) : Fld := ⟨PRT.TRIP_COUNT i, 8, 1⟩
/-- R357 -/
def PAR.CFG : Nat := PAR.base + 0x40
def PAR.CFG_en : Fld := ⟨PAR.CFG, 0, 1⟩
def PAR.CFG_auto : Fld := ⟨PAR.CFG, 1, 1⟩
def PAR.CFG_rank : Fld := ⟨PAR.CFG, 2, 1⟩
def PAR.CFG_miss : Fld := ⟨PAR.CFG, 8, 8⟩
def PAR.CFG_settle : Fld := ⟨PAR.CFG, 16, 16⟩
/-- R357 -/
def PAR.CTRL : Nat := PAR.base + 0x44
def PAR.CTRL_take : Fld := ⟨PAR.CTRL, 0, 1⟩
def PAR.CTRL_yield : Fld := ⟨PAR.CTRL, 1, 1⟩
def PAR.CTRL_resync : Fld := ⟨PAR.CTRL, 2, 1⟩
/-- R357 -/
def PAR.STAT : Nat := PAR.base + 0x48
def PAR.STAT_role : Fld := ⟨PAR.STAT, 0, 2⟩
def PAR.STAT_sync : Fld := ⟨PAR.STAT, 2, 1⟩
def PAR.STAT_init_done : Fld := ⟨PAR.STAT, 3, 1⟩
def PAR.STAT_tki : Fld := ⟨PAR.STAT, 4, 1⟩
def PAR.STAT_tko : Fld := ⟨PAR.STAT, 5, 1⟩
def PAR.STAT_rank_err : Fld := ⟨PAR.STAT, 6, 1⟩
def PAR.STAT_missed : Fld := ⟨PAR.STAT, 8, 8⟩
def PAR.STAT_abort : Fld := ⟨PAR.STAT, 16, 2⟩
/-- R357 -/
def PAR.MIR_CFG : Nat := PAR.base + 0x4C
def PAR.MIR_CFG_tx : Fld := ⟨PAR.MIR_CFG, 0, 10⟩
def PAR.MIR_CFG_rx : Fld := ⟨PAR.MIR_CFG, 16, 10⟩
def PAR.MIR_CFG_pace : Fld := ⟨PAR.MIR_CFG, 28, 4⟩
/-- R357 -/
def PAR.DIRTY : Nat := PAR.base + 0x50
def PAR.DIRTY_count : Fld := ⟨PAR.DIRTY, 0, 13⟩
def PAR.DIRTY_lag : Fld := ⟨PAR.DIRTY, 16, 16⟩
/-- R357 -/
def PAR.COUNTS : Nat := PAR.base + 0x54
def PAR.COUNTS_tko : Fld := ⟨PAR.COUNTS, 0, 8⟩
def PAR.COUNTS_abort : Fld := ⟨PAR.COUNTS, 8, 8⟩
def PAR.COUNTS_img_ref : Fld := ⟨PAR.COUNTS, 16, 8⟩
def PAR.COUNTS_clear : Fld := ⟨PAR.COUNTS, 24, 1⟩
/-- R357 -/
def PAR.REG_BASE (i : Nat) : Nat := PAR.base + 0x80 + 8 * i
def PAR.REG_BASE_base (i : Nat) : Fld := ⟨PAR.REG_BASE i, 10, 22⟩
/-- R357 -/
def PAR.REG_LEN (i : Nat) : Nat := PAR.base + 0x84 + 8 * i
def PAR.REG_LEN_kib (i : Nat) : Fld := ⟨PAR.REG_LEN i, 0, 12⟩
/-- R356 -/
def CAS.CFG : Nat := CAS.base + 0x40
def CAS.CFG_role : Fld := ⟨CAS.CFG, 0, 2⟩
def CAS.CFG_topo : Fld := ⟨CAS.CFG, 2, 2⟩
def CAS.CFG_height_fwd : Fld := ⟨CAS.CFG, 4, 4⟩
def CAS.CFG_height_rev : Fld := ⟨CAS.CFG, 8, 4⟩
def CAS.CFG_wire : Fld := ⟨CAS.CFG, 16, 8⟩
/-- R356 -/
def CAS.DOWN_EN : Nat := CAS.base + 0x44
def CAS.DOWN_EN_ports : Fld := ⟨CAS.DOWN_EN, 0, 4⟩
def CAS.DOWN_EN_pending : Fld := ⟨CAS.DOWN_EN, 4, 4⟩
/-- R356 -/
def CAS.HOP : Nat := CAS.base + 0x48
def CAS.HOP_ct : Fld := ⟨CAS.HOP, 0, 16⟩
def CAS.HOP_valid : Fld := ⟨CAS.HOP, 16, 1⟩
/-- R356 -/
def CAS.ORIENT : Nat := CAS.base + 0x4C
def CAS.ORIENT_target : Fld := ⟨CAS.ORIENT, 0, 1⟩
def CAS.ORIENT_cur : Fld := ⟨CAS.ORIENT, 8, 1⟩
def CAS.ORIENT_pending : Fld := ⟨CAS.ORIENT, 9, 1⟩
/-- R356 -/
def CAS.ORIENT_T_LO : Nat := CAS.base + 0x50
def CAS.ORIENT_T_LO_t : Fld := ⟨CAS.ORIENT_T_LO, 0, 32⟩
/-- R356 -/
def CAS.ORIENT_T_HI : Nat := CAS.base + 0x54
def CAS.ORIENT_T_HI_t : Fld := ⟨CAS.ORIENT_T_HI, 0, 32⟩
/-- R356 -/
def CAS.MISS_MAP : Nat := CAS.base + 0x58
def CAS.MISS_MAP_ports : Fld := ⟨CAS.MISS_MAP, 0, 4⟩
/-- R356 -/
def CAS.COMB_SAT_COUNT (i : Nat) : Nat := CAS.base + 0x60 + 4 * i
def CAS.COMB_SAT_COUNT_count (i : Nat) : Fld := ⟨CAS.COMB_SAT_COUNT i, 0, 16⟩
def CAS.COMB_SAT_COUNT_clear (i : Nat) : Fld := ⟨CAS.COMB_SAT_COUNT i, 16, 1⟩
/-- R356 -/
def CAS.MISS_COUNT (i : Nat) : Nat := CAS.base + 0x70 + 4 * i
def CAS.MISS_COUNT_count (i : Nat) : Fld := ⟨CAS.MISS_COUNT i, 0, 16⟩
def CAS.MISS_COUNT_clear (i : Nat) : Fld := ⟨CAS.MISS_COUNT i, 16, 1⟩
/-- R116 -/
def STD.CNV_CTRL (s : Nat) : Nat := STD.base s + 0x40
def STD.CNV_CTRL_adc (s : Nat) : Fld := ⟨STD.CNV_CTRL s, 0, 8⟩
def STD.CNV_CTRL_dac (s : Nat) : Fld := ⟨STD.CNV_CTRL s, 8, 8⟩
/-- R116 -/
def STD.CNV_STAT (s : Nat) : Nat := STD.base s + 0x44
def STD.CNV_STAT_adc_rdy (s : Nat) : Fld := ⟨STD.CNV_STAT s, 0, 8⟩
def STD.CNV_STAT_dac_rdy (s : Nat) : Fld := ⟨STD.CNV_STAT s, 8, 8⟩
def STD.CNV_STAT_obs_rdy (s : Nat) : Fld := ⟨STD.CNV_STAT s, 16, 1⟩
/-- R116 -/
def STD.RX_CENTRE_LO (s : Nat) : Nat := STD.base s + 0x48
def STD.RX_CENTRE_LO_w (s : Nat) : Fld := ⟨STD.RX_CENTRE_LO s, 0, 32⟩
/-- R116 -/
def STD.RX_CENTRE_HI (s : Nat) : Nat := STD.base s + 0x4C
def STD.RX_CENTRE_HI_w (s : Nat) : Fld := ⟨STD.RX_CENTRE_HI s, 0, 16⟩
/-- R116 -/
def STD.TX_CENTRE_LO (s : Nat) : Nat := STD.base s + 0x50
def STD.TX_CENTRE_LO_w (s : Nat) : Fld := ⟨STD.TX_CENTRE_LO s, 0, 32⟩
/-- R116 -/
def STD.TX_CENTRE_HI (s : Nat) : Nat := STD.base s + 0x54
def STD.TX_CENTRE_HI_w (s : Nat) : Fld := ⟨STD.TX_CENTRE_HI s, 0, 16⟩
/-- R116 -/
def STD.OBS_CENTRE_LO (s : Nat) : Nat := STD.base s + 0x58
def STD.OBS_CENTRE_LO_w (s : Nat) : Fld := ⟨STD.OBS_CENTRE_LO s, 0, 32⟩
/-- R116 -/
def STD.OBS_CENTRE_HI (s : Nat) : Nat := STD.base s + 0x5C
def STD.OBS_CENTRE_HI_w (s : Nat) : Fld := ⟨STD.OBS_CENTRE_HI s, 0, 16⟩
/-- R116 -/
def STD.OBS_CTRL (s : Nat) : Nat := STD.base s + 0x60
def STD.OBS_CTRL_en (s : Nat) : Fld := ⟨STD.OBS_CTRL s, 0, 1⟩
def STD.OBS_CTRL_follow (s : Nat) : Fld := ⟨STD.OBS_CTRL s, 1, 1⟩
/-- R116 -/
def STD.OVR_CFG (s : Nat) : Nat := STD.base s + 0x64
def STD.OVR_CFG_limit (s : Nat) : Fld := ⟨STD.OVR_CFG s, 0, 16⟩
/-- R116 -/
def STD.OVR_COUNT_OBS (s : Nat) : Nat := STD.base s + 0x68
def STD.OVR_COUNT_OBS_count (s : Nat) : Fld := ⟨STD.OVR_COUNT_OBS s, 0, 16⟩
def STD.OVR_COUNT_OBS_clear (s : Nat) : Fld := ⟨STD.OVR_COUNT_OBS s, 16, 1⟩
/-- R116 -/
def STD.EQ_SAT_COUNT (s : Nat) : Nat := STD.base s + 0x6C
def STD.EQ_SAT_COUNT_count (s : Nat) : Fld := ⟨STD.EQ_SAT_COUNT s, 0, 16⟩
def STD.EQ_SAT_COUNT_clear (s : Nat) : Fld := ⟨STD.EQ_SAT_COUNT s, 16, 1⟩
/-- R116 -/
def STD.EQ_COMMIT (s : Nat) : Nat := STD.base s + 0x70
def STD.EQ_COMMIT_commit (s : Nat) : Fld := ⟨STD.EQ_COMMIT s, 0, 32⟩
/-- R116 -/
def STD.RX_NCO_LO (s i : Nat) : Nat := STD.base s + 0x80 + 16 * i
def STD.RX_NCO_LO_w (s i : Nat) : Fld := ⟨STD.RX_NCO_LO s i, 0, 32⟩
/-- R116 -/
def STD.RX_NCO_HI (s i : Nat) : Nat := STD.base s + 0x84 + 16 * i
def STD.RX_NCO_HI_w (s i : Nat) : Fld := ⟨STD.RX_NCO_HI s i, 0, 16⟩
/-- R116 -/
def STD.TX_NCO_LO (s i : Nat) : Nat := STD.base s + 0x88 + 16 * i
def STD.TX_NCO_LO_w (s i : Nat) : Fld := ⟨STD.TX_NCO_LO s i, 0, 32⟩
/-- R116 -/
def STD.TX_NCO_HI (s i : Nat) : Nat := STD.base s + 0x8C + 16 * i
def STD.TX_NCO_HI_w (s i : Nat) : Fld := ⟨STD.TX_NCO_HI s i, 0, 16⟩
/-- R116 -/
def STD.ZONE (s : Nat) : Nat := STD.base s + 0xC0
def STD.ZONE_rx (s : Nat) : Fld := ⟨STD.ZONE s, 0, 1⟩
def STD.ZONE_tx (s : Nat) : Fld := ⟨STD.ZONE s, 1, 1⟩
def STD.ZONE_obs (s : Nat) : Fld := ⟨STD.ZONE s, 2, 1⟩
def STD.ZONE_nz_rxnz_txnz_obs (s : Nat) : Fld := ⟨STD.ZONE s, 3, 3⟩
/-- R116 -/
def STD.BAND_ERR (s : Nat) : Nat := STD.base s + 0xC4
def STD.BAND_ERR_slice (s : Nat) : Fld := ⟨STD.BAND_ERR s, 0, 2⟩
def STD.BAND_ERR_dir (s : Nat) : Fld := ⟨STD.BAND_ERR s, 2, 1⟩
def STD.BAND_ERR_check (s : Nat) : Fld := ⟨STD.BAND_ERR s, 3, 3⟩
/-- R116 -/
def STD.PATH_DLY (s i : Nat) : Nat := STD.base s + 0x100 + 4 * i
def STD.PATH_DLY_tau (s i : Nat) : Fld := ⟨STD.PATH_DLY s i, 0, 14⟩
/-- R116 -/
def STD.SPINE_TRIM (s i : Nat) : Nat := STD.base s + 0x120 + 4 * i
def STD.SPINE_TRIM_adc (s i : Nat) : Fld := ⟨STD.SPINE_TRIM s i, 0, 6⟩
def STD.SPINE_TRIM_dac (s i : Nat) : Fld := ⟨STD.SPINE_TRIM s i, 8, 6⟩
/-- R116 -/
def STD.DAC_FS (s i : Nat) : Nat := STD.base s + 0x140 + 4 * i
def STD.DAC_FS_code (s i : Nat) : Fld := ⟨STD.DAC_FS s i, 0, 6⟩
/-- R116 -/
def STD.OVR_COUNT (s i : Nat) : Nat := STD.base s + 0x160 + 4 * i
def STD.OVR_COUNT_count (s i : Nat) : Fld := ⟨STD.OVR_COUNT s i, 0, 16⟩
def STD.OVR_COUNT_clear (s i : Nat) : Fld := ⟨STD.OVR_COUNT s i, 16, 1⟩
/-- R116 -/
def STD.EQ (s i : Nat) : Nat := STD.base s + 0x800 + 4 * i
def STD.EQ_i (s i : Nat) : Fld := ⟨STD.EQ s i, 0, 16⟩
def STD.EQ_q (s i : Nat) : Fld := ⟨STD.EQ s i, 16, 16⟩
/-- R395 -/
def CORE.CTRL (c : Nat) : Nat := CORE.base c + 0x40
def CORE.CTRL_run (c : Nat) : Fld := ⟨CORE.CTRL c, 0, 1⟩
def CORE.CTRL_aerr_exc (c : Nat) : Fld := ⟨CORE.CTRL c, 1, 1⟩
/-- R395 -/
def CORE.START (c : Nat) : Nat := CORE.base c + 0x44
def CORE.START_pc (c : Nat) : Fld := ⟨CORE.START c, 0, 13⟩
/-- R395 -/
def CORE.STAT (c : Nat) : Nat := CORE.base c + 0x48
def CORE.STAT_state (c : Nat) : Fld := ⟨CORE.STAT c, 0, 2⟩
def CORE.STAT_wdog (c : Nat) : Fld := ⟨CORE.STAT c, 2, 1⟩
def CORE.STAT_double (c : Nat) : Fld := ⟨CORE.STAT c, 3, 1⟩
def CORE.STAT_hpc (c : Nat) : Fld := ⟨CORE.STAT c, 16, 13⟩
/-- R395 -/
def CORE.VEC (c : Nat) : Nat := CORE.base c + 0x4C
def CORE.VEC_irq (c : Nat) : Fld := ⟨CORE.VEC c, 0, 13⟩
def CORE.VEC_exc (c : Nat) : Fld := ⟨CORE.VEC c, 16, 13⟩
/-- R395 -/
def CORE.VEC_NMI (c : Nat) : Nat := CORE.base c + 0x50
def CORE.VEC_NMI_nmi (c : Nat) : Fld := ⟨CORE.VEC_NMI c, 0, 13⟩
/-- R395 -/
def CORE.IPC (c : Nat) : Nat := CORE.base c + 0x54
def CORE.IPC_ipc (c : Nat) : Fld := ⟨CORE.IPC c, 0, 13⟩
/-- R395 -/
def CORE.IST (c : Nat) : Nat := CORE.base c + 0x58
def CORE.IST_ist (c : Nat) : Fld := ⟨CORE.IST c, 0, 32⟩
/-- R395 -/
def CORE.EXC (c : Nat) : Nat := CORE.base c + 0x5C
def CORE.EXC_cause (c : Nat) : Fld := ⟨CORE.EXC c, 0, 4⟩
def CORE.EXC_slot (c : Nat) : Fld := ⟨CORE.EXC c, 4, 2⟩
def CORE.EXC_ds (c : Nat) : Fld := ⟨CORE.EXC c, 6, 1⟩
def CORE.EXC_pc (c : Nat) : Fld := ⟨CORE.EXC c, 8, 13⟩
/-- R395 -/
def CORE.EXC_ADDR (c : Nat) : Nat := CORE.base c + 0x60
def CORE.EXC_ADDR_addr (c : Nat) : Fld := ⟨CORE.EXC_ADDR c, 0, 32⟩
/-- R395 -/
def CORE.INT_PEND_LO (c : Nat) : Nat := CORE.base c + 0x64
def CORE.INT_PEND_LO_pend (c : Nat) : Fld := ⟨CORE.INT_PEND_LO c, 0, 32⟩
/-- R395 -/
def CORE.INT_PEND_HI (c : Nat) : Nat := CORE.base c + 0x68
def CORE.INT_PEND_HI_pend (c : Nat) : Fld := ⟨CORE.INT_PEND_HI c, 0, 32⟩
/-- R395 -/
def CORE.INT_EN_LO (c : Nat) : Nat := CORE.base c + 0x6C
def CORE.INT_EN_LO_en (c : Nat) : Fld := ⟨CORE.INT_EN_LO c, 0, 32⟩
/-- R395 -/
def CORE.INT_EN_HI (c : Nat) : Nat := CORE.base c + 0x70
def CORE.INT_EN_HI_en (c : Nat) : Fld := ⟨CORE.INT_EN_HI c, 0, 32⟩
/-- R395 -/
def CORE.INT_ACT (c : Nat) : Nat := CORE.base c + 0x74
def CORE.INT_ACT_line (c : Nat) : Fld := ⟨CORE.INT_ACT c, 0, 6⟩
def CORE.INT_ACT_valid (c : Nat) : Fld := ⟨CORE.INT_ACT c, 8, 1⟩
/-- R395 -/
def CORE.DOORBELL (c : Nat) : Nat := CORE.base c + 0x78
def CORE.DOORBELL_ring (c : Nat) : Fld := ⟨CORE.DOORBELL c, 0, 1⟩
/-- R395 -/
def CORE.WDOG (c : Nat) : Nat := CORE.base c + 0x7C
def CORE.WDOG_timeout (c : Nat) : Fld := ⟨CORE.WDOG c, 0, 24⟩
/-- R395 -/
def CORE.WDOG_KICK (c : Nat) : Nat := CORE.base c + 0x80
def CORE.WDOG_KICK_key (c : Nat) : Fld := ⟨CORE.WDOG_KICK c, 0, 16⟩
/-- R395 -/
def CORE.IRQ_ROUTE (c i : Nat) : Nat := CORE.base c + 0xA0 + 4 * i
def CORE.IRQ_ROUTE_page (c i : Nat) : Fld := ⟨CORE.IRQ_ROUTE c i, 0, 7⟩
def CORE.IRQ_ROUTE_en (c i : Nat) : Fld := ⟨CORE.IRQ_ROUTE c i, 7, 1⟩
/-- R412 -/
def YCH.CFG (k : Nat) : Nat := YCH.base k + 0x40
def YCH.CFG_prio (k : Nat) : Fld := ⟨YCH.CFG k, 0, 3⟩
def YCH.CFG_periph (k : Nat) : Fld := ⟨YCH.CFG k, 8, 8⟩
/-- R412 -/
def YCH.CTRL (k : Nat) : Nat := YCH.base k + 0x44
def YCH.CTRL_en (k : Nat) : Fld := ⟨YCH.CTRL k, 0, 1⟩
def YCH.CTRL_resume (k : Nat) : Fld := ⟨YCH.CTRL k, 1, 1⟩
def YCH.CTRL_abort (k : Nat) : Fld := ⟨YCH.CTRL k, 2, 1⟩
/-- R412 -/
def YCH.RING_BASE (k : Nat) : Nat := YCH.base k + 0x48
def YCH.RING_BASE_base (k : Nat) : Fld := ⟨YCH.RING_BASE k, 5, 27⟩
/-- R412 -/
def YCH.RING_SIZE (k : Nat) : Nat := YCH.base k + 0x4C
def YCH.RING_SIZE_n (k : Nat) : Fld := ⟨YCH.RING_SIZE k, 0, 16⟩
/-- R412 -/
def YCH.PROD (k : Nat) : Nat := YCH.base k + 0x50
def YCH.PROD_idx (k : Nat) : Fld := ⟨YCH.PROD k, 0, 16⟩
def YCH.PROD_wrap (k : Nat) : Fld := ⟨YCH.PROD k, 16, 1⟩
/-- R412 -/
def YCH.CONS (k : Nat) : Nat := YCH.base k + 0x54
def YCH.CONS_idx (k : Nat) : Fld := ⟨YCH.CONS k, 0, 16⟩
def YCH.CONS_wrap (k : Nat) : Fld := ⟨YCH.CONS k, 16, 1⟩
/-- R412 -/
def YCH.STAT (k : Nat) : Nat := YCH.base k + 0x58
def YCH.STAT_state (k : Nat) : Fld := ⟨YCH.STAT k, 0, 2⟩
def YCH.STAT_waking (k : Nat) : Fld := ⟨YCH.STAT k, 2, 1⟩
def YCH.STAT_status (k : Nat) : Fld := ⟨YCH.STAT k, 8, 8⟩
/-- R412 -/
def YCH.POS (k : Nat) : Nat := YCH.base k + 0x5C
def YCH.POS_bytes (k : Nat) : Fld := ⟨YCH.POS k, 0, 25⟩
/-- R412 -/
def YCH.LAST_CRC (k : Nat) : Nat := YCH.base k + 0x60
def YCH.LAST_CRC_crc (k : Nat) : Fld := ⟨YCH.LAST_CRC k, 0, 32⟩
/-- R412 -/
def YCH.COUNTS (k : Nat) : Nat := YCH.base k + 0x64
def YCH.COUNTS_undr (k : Nat) : Fld := ⟨YCH.COUNTS k, 0, 8⟩
def YCH.COUNTS_halt (k : Nat) : Fld := ⟨YCH.COUNTS k, 8, 8⟩
def YCH.COUNTS_clear (k : Nat) : Fld := ⟨YCH.COUNTS k, 16, 1⟩
/-- R172 -/
def BF.MODE : Nat := BF.base + 0x40
def BF.MODE_ant_rx : Fld := ⟨BF.MODE, 0, 1⟩
def BF.MODE_ant_tx : Fld := ⟨BF.MODE, 1, 1⟩
def BF.MODE_fdd : Fld := ⟨BF.MODE, 2, 1⟩
/-- R172 -/
def BF.JOIN : Nat := BF.base + 0x44
def BF.JOIN_en_0 : Fld := ⟨BF.JOIN, 0, 1⟩
def BF.JOIN_en_1 : Fld := ⟨BF.JOIN, 1, 1⟩
def BF.JOIN_delta_0 : Fld := ⟨BF.JOIN, 8, 8⟩
def BF.JOIN_delta_1 : Fld := ⟨BF.JOIN, 16, 8⟩
/-- R172 -/
def BF.FDD_CFG : Nat := BF.base + 0x48
def BF.FDD_CFG_delta : Fld := ⟨BF.FDD_CFG, 0, 8⟩
/-- R172 -/
def BF.UNITS : Nat := BF.base + 0x4C
def BF.UNITS_rx : Fld := ⟨BF.UNITS, 0, 9⟩
def BF.UNITS_tx : Fld := ⟨BF.UNITS, 16, 9⟩
/-- R172 -/
def BF.SEAL : Nat := BF.base + 0x50
def BF.SEAL_x : Fld := ⟨BF.SEAL, 0, 8⟩
/-- R172 -/
def BF.SEAL_STAT : Nat := BF.base + 0x54
def BF.SEAL_STAT_busy : Fld := ⟨BF.SEAL_STAT, 0, 1⟩
def BF.SEAL_STAT_marked : Fld := ⟨BF.SEAL_STAT, 1, 1⟩
def BF.SEAL_STAT_x : Fld := ⟨BF.SEAL_STAT, 8, 8⟩
/-- R172 -/
def BF.CTX_SEL : Nat := BF.base + 0x58
def BF.CTX_SEL_x : Fld := ⟨BF.CTX_SEL, 0, 8⟩
/-- R172 -/
def BF.CTX_STATE : Nat := BF.base + 0x5C
def BF.CTX_STATE_open : Fld := ⟨BF.CTX_STATE, 0, 1⟩
def BF.CTX_STATE_locked : Fld := ⟨BF.CTX_STATE, 1, 1⟩
def BF.CTX_STATE_fallback : Fld := ⟨BF.CTX_STATE, 2, 1⟩
def BF.CTX_STATE_marks : Fld := ⟨BF.CTX_STATE, 8, 7⟩
/-- R172 -/
def BF.BAD_MAP_LO : Nat := BF.base + 0x60
def BF.BAD_MAP_LO_map : Fld := ⟨BF.BAD_MAP_LO, 0, 32⟩
/-- R172 -/
def BF.BAD_MAP_HI : Nat := BF.base + 0x64
def BF.BAD_MAP_HI_map : Fld := ⟨BF.BAD_MAP_HI, 0, 32⟩
/-- R172 -/
def BF.RCMP : Nat := BF.base + 0x68
def BF.RCMP_ctx : Fld := ⟨BF.RCMP, 0, 8⟩
def BF.RCMP_row : Fld := ⟨BF.RCMP, 8, 6⟩
def BF.RCMP_src : Fld := ⟨BF.RCMP, 16, 2⟩
def BF.RCMP_valid : Fld := ⟨BF.RCMP, 31, 1⟩
/-- R172 -/
def BF.RCMP_COUNT : Nat := BF.base + 0x6C
def BF.RCMP_COUNT_pending : Fld := ⟨BF.RCMP_COUNT, 0, 5⟩
def BF.RCMP_COUNT_lost : Fld := ⟨BF.RCMP_COUNT, 8, 8⟩
def BF.RCMP_COUNT_clear : Fld := ⟨BF.RCMP_COUNT, 16, 1⟩
/-- R172 -/
def BF.OPEN_NAMED : Nat := BF.base + 0x70
def BF.OPEN_NAMED_ctx : Fld := ⟨BF.OPEN_NAMED, 0, 8⟩
def BF.OPEN_NAMED_group : Fld := ⟨BF.OPEN_NAMED, 8, 2⟩
def BF.OPEN_NAMED_count : Fld := ⟨BF.OPEN_NAMED, 16, 8⟩
/-- R173 -/
def BFG.PORTS (g : Nat) : Nat := BFG.base g + 0x40
def BFG.PORTS_rx (g : Nat) : Fld := ⟨BFG.PORTS g, 0, 7⟩
def BFG.PORTS_tx (g : Nat) : Fld := ⟨BFG.PORTS g, 16, 7⟩
/-- R173 -/
def BFG.SHIFT (g : Nat) : Nat := BFG.base g + 0x44
def BFG.SHIFT_rx (g : Nat) : Fld := ⟨BFG.SHIFT g, 0, 4⟩
def BFG.SHIFT_tx (g : Nat) : Fld := ⟨BFG.SHIFT g, 8, 4⟩
/-- R173 -/
def BFG.FALLBACK (g : Nat) : Nat := BFG.base g + 0x48
def BFG.FALLBACK_rx (g : Nat) : Fld := ⟨BFG.FALLBACK g, 0, 8⟩
def BFG.FALLBACK_tx (g : Nat) : Fld := ⟨BFG.FALLBACK g, 8, 8⟩
/-- R173 -/
def BFG.CUR_CTX (g : Nat) : Nat := BFG.base g + 0x4C
def BFG.CUR_CTX_rx (g : Nat) : Fld := ⟨BFG.CUR_CTX g, 0, 8⟩
def BFG.CUR_CTX_tx (g : Nat) : Fld := ⟨BFG.CUR_CTX g, 8, 8⟩
/-- R173 -/
def BFG.SAT_COUNT_RX (g : Nat) : Nat := BFG.base g + 0x50
def BFG.SAT_COUNT_RX_count (g : Nat) : Fld := ⟨BFG.SAT_COUNT_RX g, 0, 16⟩
def BFG.SAT_COUNT_RX_clear (g : Nat) : Fld := ⟨BFG.SAT_COUNT_RX g, 16, 1⟩
/-- R173 -/
def BFG.SAT_COUNT_TX (g : Nat) : Nat := BFG.base g + 0x54
def BFG.SAT_COUNT_TX_count (g : Nat) : Fld := ⟨BFG.SAT_COUNT_TX g, 0, 16⟩
def BFG.SAT_COUNT_TX_clear (g : Nat) : Fld := ⟨BFG.SAT_COUNT_TX g, 16, 1⟩
/-- R173 -/
def BFG.SUB_COUNT (g : Nat) : Nat := BFG.base g + 0x58
def BFG.SUB_COUNT_count (g : Nat) : Fld := ⟨BFG.SUB_COUNT g, 0, 16⟩
def BFG.SUB_COUNT_clear (g : Nat) : Fld := ⟨BFG.SUB_COUNT g, 16, 1⟩
/-- R227 -/
def DPD.CTRL (s : Nat) : Nat := DPD.base s + 0x40
def DPD.CTRL_en (s : Nat) : Fld := ⟨DPD.CTRL s, 0, 1⟩
/-- R227 -/
def DPD.SWAP (s : Nat) : Nat := DPD.base s + 0x44
def DPD.SWAP_mask (s : Nat) : Fld := ⟨DPD.SWAP s, 0, 8⟩
def DPD.SWAP_bank (s : Nat) : Fld := ⟨DPD.SWAP s, 8, 1⟩
def DPD.SWAP_fade (s : Nat) : Fld := ⟨DPD.SWAP s, 16, 8⟩
/-- R227 -/
def DPD.BYP (s : Nat) : Nat := DPD.base s + 0x48
def DPD.BYP_byp (s : Nat) : Fld := ⟨DPD.BYP s, 0, 8⟩
/-- R227 -/
def DPD.BACKOFF (s : Nat) : Nat := DPD.base s + 0x4C
def DPD.BACKOFF_factor (s : Nat) : Fld := ⟨DPD.BACKOFF s, 0, 16⟩
def DPD.BACKOFF_db (s : Nat) : Fld := ⟨DPD.BACKOFF s, 16, 8⟩
/-- R227 -/
def DPD.TERMS (s : Nat) : Nat := DPD.base s + 0x50
def DPD.TERMS_a (s : Nat) : Fld := ⟨DPD.TERMS s, 0, 6⟩
def DPD.TERMS_b (s : Nat) : Fld := ⟨DPD.TERMS s, 16, 6⟩
/-- R227 -/
def DPD.RELOAD (s : Nat) : Nat := DPD.base s + 0x54
def DPD.RELOAD_u (s : Nat) : Fld := ⟨DPD.RELOAD s, 0, 3⟩
def DPD.RELOAD_bank (s : Nat) : Fld := ⟨DPD.RELOAD s, 8, 1⟩
def DPD.RELOAD_src (s : Nat) : Fld := ⟨DPD.RELOAD s, 16, 2⟩
def DPD.RELOAD_valid (s : Nat) : Fld := ⟨DPD.RELOAD s, 31, 1⟩
/-- R227 -/
def DPD.RELOAD_COUNT (s : Nat) : Nat := DPD.base s + 0x58
def DPD.RELOAD_COUNT_pending (s : Nat) : Fld := ⟨DPD.RELOAD_COUNT s, 0, 4⟩
def DPD.RELOAD_COUNT_lost (s : Nat) : Fld := ⟨DPD.RELOAD_COUNT s, 8, 8⟩
def DPD.RELOAD_COUNT_clear (s : Nat) : Fld := ⟨DPD.RELOAD_COUNT s, 16, 1⟩
/-- R227 -/
def DPD.COUNTS (s : Nat) : Nat := DPD.base s + 0x5C
def DPD.COUNTS_ovr (s : Nat) : Fld := ⟨DPD.COUNTS s, 0, 8⟩
def DPD.COUNTS_ibyp (s : Nat) : Fld := ⟨DPD.COUNTS s, 8, 8⟩
def DPD.COUNTS_clear (s : Nat) : Fld := ⟨DPD.COUNTS s, 16, 1⟩
/-- R227 -/
def DPD.ENV_SAT_COUNT (s : Nat) : Nat := DPD.base s + 0x60
def DPD.ENV_SAT_COUNT_count (s : Nat) : Fld := ⟨DPD.ENV_SAT_COUNT s, 0, 16⟩
def DPD.ENV_SAT_COUNT_clear (s : Nat) : Fld := ⟨DPD.ENV_SAT_COUNT s, 16, 1⟩
/-- R227 -/
def DPD.PATH_STAT (s i : Nat) : Nat := DPD.base s + 0x80 + 4 * i
def DPD.PATH_STAT_active (s i : Nat) : Fld := ⟨DPD.PATH_STAT s i, 0, 1⟩
def DPD.PATH_STAT_fading (s i : Nat) : Fld := ⟨DPD.PATH_STAT s i, 1, 1⟩
def DPD.PATH_STAT_held (s i : Nat) : Fld := ⟨DPD.PATH_STAT s i, 2, 1⟩
def DPD.PATH_STAT_held_bank (s i : Nat) : Fld := ⟨DPD.PATH_STAT s i, 3, 1⟩
def DPD.PATH_STAT_ibyp (s i : Nat) : Fld := ⟨DPD.PATH_STAT s i, 4, 1⟩
def DPD.PATH_STAT_fbyp (s i : Nat) : Fld := ⟨DPD.PATH_STAT s i, 5, 1⟩
def DPD.PATH_STAT_mark_a (s i : Nat) : Fld := ⟨DPD.PATH_STAT s i, 8, 1⟩
def DPD.PATH_STAT_mark_b (s i : Nat) : Fld := ⟨DPD.PATH_STAT s i, 9, 1⟩
/-- R227 -/
def DPD.THM_CFG (s i : Nat) : Nat := DPD.base s + 0xA0 + 4 * i
def DPD.THM_CFG_k (s i : Nat) : Fld := ⟨DPD.THM_CFG s i, 0, 5⟩
def DPD.THM_CFG_ref (s i : Nat) : Fld := ⟨DPD.THM_CFG s i, 16, 16⟩
/-- R227 -/
def DPD.THM_STATE (s i : Nat) : Nat := DPD.base s + 0xC0 + 4 * i
def DPD.THM_STATE_theta (s i : Nat) : Fld := ⟨DPD.THM_STATE s i, 0, 16⟩
/-- R227 -/
def DPD.THM_INIT (s i : Nat) : Nat := DPD.base s + 0xE0 + 4 * i
def DPD.THM_INIT_init (s i : Nat) : Fld := ⟨DPD.THM_INIT s i, 0, 16⟩
def DPD.THM_INIT_load (s i : Nat) : Fld := ⟨DPD.THM_INIT s i, 31, 1⟩
/-- R227 -/
def DPD.TERM_A (s i : Nat) : Nat := DPD.base s + 0x100 + 4 * i
def DPD.TERM_A_a (s i : Nat) : Fld := ⟨DPD.TERM_A s i, 0, 3⟩
def DPD.TERM_A_b (s i : Nat) : Fld := ⟨DPD.TERM_A s i, 4, 3⟩
def DPD.TERM_A_k (s i : Nat) : Fld := ⟨DPD.TERM_A s i, 8, 4⟩
def DPD.TERM_A_th (s i : Nat) : Fld := ⟨DPD.TERM_A s i, 12, 1⟩
/-- R227 -/
def DPD.TERM_B (s i : Nat) : Nat := DPD.base s + 0x200 + 4 * i
def DPD.TERM_B_a (s i : Nat) : Fld := ⟨DPD.TERM_B s i, 0, 3⟩
def DPD.TERM_B_b (s i : Nat) : Fld := ⟨DPD.TERM_B s i, 4, 3⟩
def DPD.TERM_B_k (s i : Nat) : Fld := ⟨DPD.TERM_B s i, 8, 4⟩
def DPD.TERM_B_th (s i : Nat) : Fld := ⟨DPD.TERM_B s i, 12, 1⟩
/-- R195 -/
def TXC.SLICE_CFG (i : Nat) : Nat := TXC.base + 0x40 + 4 * i
def TXC.SLICE_CFG_rate (i : Nat) : Fld := ⟨TXC.SLICE_CFG i, 0, 3⟩
def TXC.SLICE_CFG_preset (i : Nat) : Fld := ⟨TXC.SLICE_CFG i, 4, 2⟩
def TXC.SLICE_CFG_at_time (i : Nat) : Fld := ⟨TXC.SLICE_CFG i, 8, 1⟩
def TXC.SLICE_CFG_armed (i : Nat) : Fld := ⟨TXC.SLICE_CFG i, 16, 1⟩
def TXC.SLICE_CFG_started (i : Nat) : Fld := ⟨TXC.SLICE_CFG i, 17, 1⟩
/-- R195 -/
def TXC.SLICE_CTRL : Nat := TXC.base + 0x50
def TXC.SLICE_CTRL_start : Fld := ⟨TXC.SLICE_CTRL, 0, 4⟩
def TXC.SLICE_CTRL_stop : Fld := ⟨TXC.SLICE_CTRL, 4, 4⟩
/-- R195 -/
def TXC.SLICE_T_LO : Nat := TXC.base + 0x58
def TXC.SLICE_T_LO_t : Fld := ⟨TXC.SLICE_T_LO, 8, 24⟩
/-- R195 -/
def TXC.SLICE_T_HI : Nat := TXC.base + 0x5C
def TXC.SLICE_T_HI_t : Fld := ⟨TXC.SLICE_T_HI, 0, 32⟩
/-- R195 -/
def TXC.SLICE_GAIN (i : Nat) : Nat := TXC.base + 0x60 + 4 * i
def TXC.SLICE_GAIN_gain (i : Nat) : Fld := ⟨TXC.SLICE_GAIN i, 0, 16⟩
/-- R195 -/
def TXC.CFR_CTRL : Nat := TXC.base + 0x70
def TXC.CFR_CTRL_en : Fld := ⟨TXC.CFR_CTRL, 0, 1⟩
def TXC.CFR_CTRL_stages : Fld := ⟨TXC.CFR_CTRL, 4, 4⟩
def TXC.CFR_CTRL_papr : Fld := ⟨TXC.CFR_CTRL, 8, 8⟩
/-- R195 -/
def TXC.CFR_REF : Nat := TXC.base + 0x74
def TXC.CFR_REF_ref : Fld := ⟨TXC.CFR_REF, 0, 16⟩
/-- R195 -/
def TXC.CFR_STAT : Nat := TXC.base + 0x78
def TXC.CFR_STAT_a : Fld := ⟨TXC.CFR_STAT, 0, 16⟩
/-- R195 -/
def TXC.CFR_BYP_LO : Nat := TXC.base + 0x80
def TXC.CFR_BYP_LO_byp : Fld := ⟨TXC.CFR_BYP_LO, 0, 32⟩
/-- R195 -/
def TXC.CFR_BYP_HI : Nat := TXC.base + 0x84
def TXC.CFR_BYP_HI_byp : Fld := ⟨TXC.CFR_BYP_HI, 0, 32⟩
/-- R195 -/
def TXC.EDGE : Nat := TXC.base + 0x88
def TXC.EDGE_ramp : Fld := ⟨TXC.EDGE, 0, 2⟩
/-- R195 -/
def TXC.MUTE_CFG : Nat := TXC.base + 0x8C
def TXC.MUTE_CFG_ramp : Fld := ⟨TXC.MUTE_CFG, 0, 2⟩
/-- R195 -/
def TXC.MUTE_ALL : Nat := TXC.base + 0x90
def TXC.MUTE_ALL_all : Fld := ⟨TXC.MUTE_ALL, 0, 1⟩
/-- R195 -/
def TXC.MUTE_STAND : Nat := TXC.base + 0x94
def TXC.MUTE_STAND_stand : Fld := ⟨TXC.MUTE_STAND, 0, 8⟩
/-- R195 -/
def TXC.MUTE_PATH_LO : Nat := TXC.base + 0x98
def TXC.MUTE_PATH_LO_path : Fld := ⟨TXC.MUTE_PATH_LO, 0, 32⟩
/-- R195 -/
def TXC.MUTE_PATH_HI : Nat := TXC.base + 0x9C
def TXC.MUTE_PATH_HI_path : Fld := ⟨TXC.MUTE_PATH_HI, 0, 32⟩
/-- R195 -/
def TXC.MUTE_STAT_LO : Nat := TXC.base + 0xA0
def TXC.MUTE_STAT_LO_muted : Fld := ⟨TXC.MUTE_STAT_LO, 0, 32⟩
/-- R195 -/
def TXC.MUTE_STAT_HI : Nat := TXC.base + 0xA4
def TXC.MUTE_STAT_HI_muted : Fld := ⟨TXC.MUTE_STAT_HI, 0, 32⟩
/-- R195 -/
def TXC.MUTE_SRC : Nat := TXC.base + 0xA8
def TXC.MUTE_SRC_reg : Fld := ⟨TXC.MUTE_SRC, 0, 1⟩
def TXC.MUTE_SRC_prt : Fld := ⟨TXC.MUTE_SRC, 1, 1⟩
def TXC.MUTE_SRC_thm : Fld := ⟨TXC.MUTE_SRC, 2, 1⟩
def TXC.MUTE_SRC_pair : Fld := ⟨TXC.MUTE_SRC, 3, 1⟩
/-- R195 -/
def TXC.SYM_STAT (i : Nat) : Nat := TXC.base + 0xB0 + 4 * i
def TXC.SYM_STAT_status (i : Nat) : Fld := ⟨TXC.SYM_STAT i, 0, 10⟩
/-- R195 -/
def TXC.SYM_DEG_COUNT (i : Nat) : Nat := TXC.base + 0xC0 + 4 * i
def TXC.SYM_DEG_COUNT_count (i : Nat) : Fld := ⟨TXC.SYM_DEG_COUNT i, 0, 16⟩
def TXC.SYM_DEG_COUNT_clear (i : Nat) : Fld := ⟨TXC.SYM_DEG_COUNT i, 16, 1⟩
/-- R195 -/
def TXC.COMB_SAT_COUNT : Nat := TXC.base + 0xD0
def TXC.COMB_SAT_COUNT_count : Fld := ⟨TXC.COMB_SAT_COUNT, 0, 16⟩
def TXC.COMB_SAT_COUNT_clear : Fld := ⟨TXC.COMB_SAT_COUNT, 16, 1⟩
/-- R195 -/
def TXC.CFR_SKIP_COUNT : Nat := TXC.base + 0xD4
def TXC.CFR_SKIP_COUNT_count : Fld := ⟨TXC.CFR_SKIP_COUNT, 0, 16⟩
def TXC.CFR_SKIP_COUNT_clear : Fld := ⟨TXC.CFR_SKIP_COUNT, 16, 1⟩
/-- R195 -/
def TXC.CFR_RESID_COUNT : Nat := TXC.base + 0xD8
def TXC.CFR_RESID_COUNT_count : Fld := ⟨TXC.CFR_RESID_COUNT, 0, 16⟩
def TXC.CFR_RESID_COUNT_clear : Fld := ⟨TXC.CFR_RESID_COUNT, 16, 1⟩
/-- R195 -/
def TXC.ENV_CEIL : Nat := TXC.base + 0xDC
def TXC.ENV_CEIL_ceil : Fld := ⟨TXC.ENV_CEIL, 0, 16⟩
/-- R195 -/
def TXC.DEF_MAP_LO : Nat := TXC.base + 0xE0
def TXC.DEF_MAP_LO_map : Fld := ⟨TXC.DEF_MAP_LO, 0, 32⟩
/-- R195 -/
def TXC.DEF_MAP_HI : Nat := TXC.base + 0xE4
def TXC.DEF_MAP_HI_map : Fld := ⟨TXC.DEF_MAP_HI, 0, 32⟩
/-- R195 -/
def TXC.ENV_LIM (i : Nat) : Nat := TXC.base + 0x100 + 4 * i
def TXC.ENV_LIM_lim (i : Nat) : Fld := ⟨TXC.ENV_LIM i, 0, 16⟩
/-- R195 -/
def TXC.ENV_COUNT (i : Nat) : Nat := TXC.base + 0x200 + 4 * i
def TXC.ENV_COUNT_count (i : Nat) : Fld := ⟨TXC.ENV_COUNT i, 0, 16⟩
def TXC.ENV_COUNT_clear (i : Nat) : Fld := ⟨TXC.ENV_COUNT i, 16, 1⟩
/-- R118 -/
def TXC.CAL_CTRL : Nat := TXC.base + 0x800
def TXC.CAL_CTRL_en : Fld := ⟨TXC.CAL_CTRL, 0, 1⟩
def TXC.CAL_CTRL_go : Fld := ⟨TXC.CAL_CTRL, 1, 1⟩
def TXC.CAL_CTRL_line : Fld := ⟨TXC.CAL_CTRL, 4, 4⟩
/-- R118 -/
def TXC.CAL_NCO_LO : Nat := TXC.base + 0x808
def TXC.CAL_NCO_LO_w : Fld := ⟨TXC.CAL_NCO_LO, 0, 32⟩
/-- R118 -/
def TXC.CAL_NCO_HI : Nat := TXC.base + 0x80C
def TXC.CAL_NCO_HI_w : Fld := ⟨TXC.CAL_NCO_HI, 0, 16⟩
/-- R118 -/
def TXC.CAL_SEQ : Nat := TXC.base + 0x810
def TXC.CAL_SEQ_base : Fld := ⟨TXC.CAL_SEQ, 0, 11⟩
def TXC.CAL_SEQ_len : Fld := ⟨TXC.CAL_SEQ, 16, 12⟩
/-- R118 -/
def TXC.CAL_PLAY : Nat := TXC.base + 0x814
def TXC.CAL_PLAY_reps : Fld := ⟨TXC.CAL_PLAY, 0, 8⟩
def TXC.CAL_PLAY_atten : Fld := ⟨TXC.CAL_PLAY, 8, 6⟩
/-- R118 -/
def TXC.CAL_STAT : Nat := TXC.base + 0x818
def TXC.CAL_STAT_playing : Fld := ⟨TXC.CAL_STAT, 0, 1⟩
def TXC.CAL_STAT_invalid : Fld := ⟨TXC.CAL_STAT, 1, 1⟩
def TXC.CAL_STAT_dropped : Fld := ⟨TXC.CAL_STAT, 8, 8⟩
/-- R145 -/
def RXC.SLICE_CFG (i : Nat) : Nat := RXC.base + 0x40 + 4 * i
def RXC.SLICE_CFG_rate (i : Nat) : Fld := ⟨RXC.SLICE_CFG i, 0, 3⟩
def RXC.SLICE_CFG_preset (i : Nat) : Fld := ⟨RXC.SLICE_CFG i, 4, 2⟩
def RXC.SLICE_CFG_at_time (i : Nat) : Fld := ⟨RXC.SLICE_CFG i, 8, 1⟩
def RXC.SLICE_CFG_armed (i : Nat) : Fld := ⟨RXC.SLICE_CFG i, 16, 1⟩
def RXC.SLICE_CFG_started (i : Nat) : Fld := ⟨RXC.SLICE_CFG i, 17, 1⟩
/-- R145 -/
def RXC.SLICE_CTRL : Nat := RXC.base + 0x50
def RXC.SLICE_CTRL_start : Fld := ⟨RXC.SLICE_CTRL, 0, 4⟩
def RXC.SLICE_CTRL_stop : Fld := ⟨RXC.SLICE_CTRL, 4, 4⟩
/-- R145 -/
def RXC.SLICE_T_LO : Nat := RXC.base + 0x58
def RXC.SLICE_T_LO_t : Fld := ⟨RXC.SLICE_T_LO, 8, 24⟩
/-- R145 -/
def RXC.SLICE_T_HI : Nat := RXC.base + 0x5C
def RXC.SLICE_T_HI_t : Fld := ⟨RXC.SLICE_T_HI, 0, 32⟩
/-- R145 -/
def RXC.LVL_CTRL : Nat := RXC.base + 0x60
def RXC.LVL_CTRL_slice : Fld := ⟨RXC.LVL_CTRL, 0, 2⟩
def RXC.LVL_CTRL_hold : Fld := ⟨RXC.LVL_CTRL, 2, 1⟩
/-- R145 -/
def RXC.LVL_STAT : Nat := RXC.base + 0x64
def RXC.LVL_STAT_wb_new : Fld := ⟨RXC.LVL_STAT, 0, 1⟩
def RXC.LVL_STAT_sl_new : Fld := ⟨RXC.LVL_STAT, 1, 1⟩
/-- R145 -/
def RXC.LVL_HI : Nat := RXC.base + 0x68
def RXC.LVL_HI_limit : Fld := ⟨RXC.LVL_HI, 0, 16⟩
/-- R145 -/
def RXC.LVL_HI_MAP_LO : Nat := RXC.base + 0x70
def RXC.LVL_HI_MAP_LO_map : Fld := ⟨RXC.LVL_HI_MAP_LO, 0, 32⟩
/-- R145 -/
def RXC.LVL_HI_MAP_HI : Nat := RXC.base + 0x74
def RXC.LVL_HI_MAP_HI_map : Fld := ⟨RXC.LVL_HI_MAP_HI, 0, 32⟩
/-- R145 -/
def RXC.GSTEP_CTRL : Nat := RXC.base + 0x80
def RXC.GSTEP_CTRL_en : Fld := ⟨RXC.GSTEP_CTRL, 0, 1⟩
def RXC.GSTEP_CTRL_line : Fld := ⟨RXC.GSTEP_CTRL, 4, 4⟩
def RXC.GSTEP_CTRL_delay : Fld := ⟨RXC.GSTEP_CTRL, 16, 16⟩
/-- R145 -/
def RXC.GSTEP_ARM_LO : Nat := RXC.base + 0x88
def RXC.GSTEP_ARM_LO_arm : Fld := ⟨RXC.GSTEP_ARM_LO, 0, 32⟩
/-- R145 -/
def RXC.GSTEP_ARM_HI : Nat := RXC.base + 0x8C
def RXC.GSTEP_ARM_HI_arm : Fld := ⟨RXC.GSTEP_ARM_HI, 0, 32⟩
/-- R145 -/
def RXC.GSTEP_COUNT : Nat := RXC.base + 0x90
def RXC.GSTEP_COUNT_applied : Fld := ⟨RXC.GSTEP_COUNT, 0, 8⟩
def RXC.GSTEP_COUNT_ovr : Fld := ⟨RXC.GSTEP_COUNT, 8, 8⟩
def RXC.GSTEP_COUNT_clear : Fld := ⟨RXC.GSTEP_COUNT, 16, 1⟩
/-- R145 -/
def RXC.SYM_STAT (i : Nat) : Nat := RXC.base + 0xA0 + 4 * i
def RXC.SYM_STAT_status (i : Nat) : Fld := ⟨RXC.SYM_STAT i, 0, 9⟩
/-- R145 -/
def RXC.SYM_INV_COUNT (i : Nat) : Nat := RXC.base + 0xB0 + 4 * i
def RXC.SYM_INV_COUNT_count (i : Nat) : Fld := ⟨RXC.SYM_INV_COUNT i, 0, 16⟩
def RXC.SYM_INV_COUNT_clear (i : Nat) : Fld := ⟨RXC.SYM_INV_COUNT i, 16, 1⟩
/-- R145 -/
def RXC.SAT_COUNT (i : Nat) : Nat := RXC.base + 0xC0 + 4 * i
def RXC.SAT_COUNT_count (i : Nat) : Fld := ⟨RXC.SAT_COUNT i, 0, 16⟩
def RXC.SAT_COUNT_clear (i : Nat) : Fld := ⟨RXC.SAT_COUNT i, 16, 1⟩
/-- R145 -/
def RXC.GSTEP_STAGE (i : Nat) : Nat := RXC.base + 0x200 + 8 * i
def RXC.GSTEP_STAGE_i (i : Nat) : Fld := ⟨RXC.GSTEP_STAGE i, 0, 16⟩
def RXC.GSTEP_STAGE_q (i : Nat) : Fld := ⟨RXC.GSTEP_STAGE i, 16, 16⟩
/-- R145 -/
def RXC.GSTEP_SHIFT (i : Nat) : Nat := RXC.base + 0x204 + 8 * i
def RXC.GSTEP_SHIFT_shift (i : Nat) : Fld := ⟨RXC.GSTEP_SHIFT i, 0, 2⟩
def RXC.GSTEP_SHIFT_act_shift (i : Nat) : Fld := ⟨RXC.GSTEP_SHIFT i, 8, 2⟩
/-- R145 -/
def RXC.GSTEP_ACT (i : Nat) : Nat := RXC.base + 0x400 + 4 * i
def RXC.GSTEP_ACT_i (i : Nat) : Fld := ⟨RXC.GSTEP_ACT i, 0, 16⟩
def RXC.GSTEP_ACT_q (i : Nat) : Fld := ⟨RXC.GSTEP_ACT i, 16, 16⟩
/-- R145 -/
def RXC.LVL_WB_MEAN (i : Nat) : Nat := RXC.base + 0x500 + 8 * i
def RXC.LVL_WB_MEAN_mean (i : Nat) : Fld := ⟨RXC.LVL_WB_MEAN i, 0, 32⟩
/-- R145 -/
def RXC.LVL_WB_PEAK (i : Nat) : Nat := RXC.base + 0x504 + 8 * i
def RXC.LVL_WB_PEAK_peak (i : Nat) : Fld := ⟨RXC.LVL_WB_PEAK i, 0, 16⟩
/-- R145 -/
def RXC.LVL_SL_MEAN (i : Nat) : Nat := RXC.base + 0x700 + 8 * i
def RXC.LVL_SL_MEAN_mean (i : Nat) : Fld := ⟨RXC.LVL_SL_MEAN i, 0, 32⟩
/-- R145 -/
def RXC.LVL_SL_PEAK (i : Nat) : Nat := RXC.base + 0x704 + 8 * i
def RXC.LVL_SL_PEAK_peak (i : Nat) : Fld := ⟨RXC.LVL_SL_PEAK i, 0, 16⟩
/-- R299 -/
def LANE.CFG (l : Nat) : Nat := LANE.base l + 0x40
def LANE.CFG_rx_inv (l : Nat) : Fld := ⟨LANE.CFG l, 0, 1⟩
def LANE.CFG_tx_inv (l : Nat) : Fld := ⟨LANE.CFG l, 1, 1⟩
def LANE.CFG_eq (l : Nat) : Fld := ⟨LANE.CFG l, 2, 1⟩
def LANE.CFG_dfe_freeze (l : Nat) : Fld := ⟨LANE.CFG l, 3, 1⟩
def LANE.CFG_peak (l : Nat) : Fld := ⟨LANE.CFG l, 4, 5⟩
/-- R299 -/
def LANE.TX_EQ (l : Nat) : Nat := LANE.base l + 0x44
def LANE.TX_EQ_swing (l : Nat) : Fld := ⟨LANE.TX_EQ l, 0, 5⟩
def LANE.TX_EQ_pre (l : Nat) : Fld := ⟨LANE.TX_EQ l, 8, 3⟩
def LANE.TX_EQ_post (l : Nat) : Fld := ⟨LANE.TX_EQ l, 16, 4⟩
/-- R299 -/
def LANE.STAT (l : Nat) : Nat := LANE.base l + 0x48
def LANE.STAT_sig (l : Nat) : Fld := ⟨LANE.STAT l, 0, 1⟩
def LANE.STAT_cdr_lock (l : Nat) : Fld := ⟨LANE.STAT l, 1, 1⟩
def LANE.STAT_comma (l : Nat) : Fld := ⟨LANE.STAT l, 2, 1⟩
def LANE.STAT_skew (l : Nat) : Fld := ⟨LANE.STAT l, 8, 6⟩
def LANE.STAT_lanechar (l : Nat) : Fld := ⟨LANE.STAT l, 16, 8⟩
def LANE.STAT_cause (l : Nat) : Fld := ⟨LANE.STAT l, 24, 3⟩
/-- R299 -/
def LANE.VIOL_LIM (l : Nat) : Nat := LANE.base l + 0x4C
def LANE.VIOL_LIM_lim (l : Nat) : Fld := ⟨LANE.VIOL_LIM l, 0, 8⟩
/-- R299 -/
def LANE.VIOL_COUNT (l : Nat) : Nat := LANE.base l + 0x50
def LANE.VIOL_COUNT_count (l : Nat) : Fld := ⟨LANE.VIOL_COUNT l, 0, 16⟩
def LANE.VIOL_COUNT_clear (l : Nat) : Fld := ⟨LANE.VIOL_COUNT l, 16, 1⟩
/-- R299 -/
def LANE.FAULT_COUNT (l : Nat) : Nat := LANE.base l + 0x54
def LANE.FAULT_COUNT_count (l : Nat) : Fld := ⟨LANE.FAULT_COUNT l, 0, 8⟩
def LANE.FAULT_COUNT_clear (l : Nat) : Fld := ⟨LANE.FAULT_COUNT l, 16, 1⟩
/-- R299 -/
def LANE.EYE (l : Nat) : Nat := LANE.base l + 0x58
def LANE.EYE_height (l : Nat) : Fld := ⟨LANE.EYE l, 0, 10⟩
def LANE.EYE_valid (l : Nat) : Fld := ⟨LANE.EYE l, 16, 1⟩
/-- R299 -/
def LANE.DFE_TAP (l i : Nat) : Nat := LANE.base l + 0x60 + 4 * i
def LANE.DFE_TAP_tap (l i : Nat) : Fld := ⟨LANE.DFE_TAP l i, 0, 8⟩
/-- R300 -/
def PORT.CFG (q : Nat) : Nat := PORT.base q + 0x40
def PORT.CFG_width (q : Nat) : Fld := ⟨PORT.CFG q, 0, 3⟩
def PORT.CFG_rate (q : Nat) : Fld := ⟨PORT.CFG q, 4, 4⟩
def PORT.CFG_auto_retrain (q : Nat) : Fld := ⟨PORT.CFG q, 8, 1⟩
def PORT.CFG_keep_train (q : Nat) : Fld := ⟨PORT.CFG q, 9, 1⟩
def PORT.CFG_allow_rev (q : Nat) : Fld := ⟨PORT.CFG q, 10, 1⟩
/-- R300 -/
def PORT.CTRL (q : Nat) : Nat := PORT.base q + 0x44
def PORT.CTRL_quiet (q : Nat) : Fld := ⟨PORT.CTRL q, 0, 1⟩
def PORT.CTRL_deep (q : Nat) : Fld := ⟨PORT.CTRL q, 1, 1⟩
def PORT.CTRL_active (q : Nat) : Fld := ⟨PORT.CTRL q, 2, 1⟩
def PORT.CTRL_retrain (q : Nat) : Fld := ⟨PORT.CTRL q, 3, 1⟩
def PORT.CTRL_timed (q : Nat) : Fld := ⟨PORT.CTRL q, 4, 1⟩
/-- R300 -/
def PORT.STAT (q : Nat) : Nat := PORT.base q + 0x48
def PORT.STAT_state (q : Nat) : Fld := ⟨PORT.STAT q, 0, 3⟩
def PORT.STAT_reversed (q : Nat) : Fld := ⟨PORT.STAT q, 3, 1⟩
def PORT.STAT_far_q (q : Nat) : Fld := ⟨PORT.STAT q, 4, 2⟩
def PORT.STAT_timed_armed (q : Nat) : Fld := ⟨PORT.STAT q, 6, 1⟩
def PORT.STAT_fault_map (q : Nat) : Fld := ⟨PORT.STAT q, 16, 16⟩
/-- R300 -/
def PORT.LANES (q : Nat) : Nat := PORT.base q + 0x4C
def PORT.LANES_mask (q : Nat) : Fld := ⟨PORT.LANES q, 0, 16⟩
/-- R300 -/
def PORT.EXIT_T_LO (q : Nat) : Nat := PORT.base q + 0x50
def PORT.EXIT_T_LO_t (q : Nat) : Fld := ⟨PORT.EXIT_T_LO q, 0, 32⟩
/-- R300 -/
def PORT.EXIT_T_HI (q : Nat) : Nat := PORT.base q + 0x54
def PORT.EXIT_T_HI_t (q : Nat) : Fld := ⟨PORT.EXIT_T_HI q, 0, 32⟩
/-- R300 -/
def PORT.RETRAIN_COUNT (q : Nat) : Nat := PORT.base q + 0x58
def PORT.RETRAIN_COUNT_done (q : Nat) : Fld := ⟨PORT.RETRAIN_COUNT q, 0, 8⟩
def PORT.RETRAIN_COUNT_fail (q : Nat) : Fld := ⟨PORT.RETRAIN_COUNT q, 8, 8⟩
def PORT.RETRAIN_COUNT_clear (q : Nat) : Fld := ⟨PORT.RETRAIN_COUNT q, 16, 1⟩
/-- R300 -/
def PORT.QUIET_DROP_COUNT (q : Nat) : Nat := PORT.base q + 0x5C
def PORT.QUIET_DROP_COUNT_count (q : Nat) : Fld := ⟨PORT.QUIET_DROP_COUNT q, 0, 16⟩
def PORT.QUIET_DROP_COUNT_clear (q : Nat) : Fld := ⟨PORT.QUIET_DROP_COUNT q, 16, 1⟩
/-- R300 -/
def PORT.PRBS_CTRL (q : Nat) : Nat := PORT.base q + 0x80
def PORT.PRBS_CTRL_en (q : Nat) : Fld := ⟨PORT.PRBS_CTRL q, 0, 1⟩
def PORT.PRBS_CTRL_poly (q : Nat) : Fld := ⟨PORT.PRBS_CTRL q, 1, 2⟩
def PORT.PRBS_CTRL_mode (q : Nat) : Fld := ⟨PORT.PRBS_CTRL q, 3, 1⟩
def PORT.PRBS_CTRL_gen (q : Nat) : Fld := ⟨PORT.PRBS_CTRL q, 4, 1⟩
def PORT.PRBS_CTRL_chk (q : Nat) : Fld := ⟨PORT.PRBS_CTRL q, 5, 1⟩
def PORT.PRBS_CTRL_inject (q : Nat) : Fld := ⟨PORT.PRBS_CTRL q, 6, 1⟩
/-- R300 -/
def PORT.PRBS_LANES (q : Nat) : Nat := PORT.base q + 0x84
def PORT.PRBS_LANES_mask (q : Nat) : Fld := ⟨PORT.PRBS_LANES q, 0, 16⟩
/-- R300 -/
def PORT.PRBS_SEL (q : Nat) : Nat := PORT.base q + 0x88
def PORT.PRBS_SEL_l (q : Nat) : Fld := ⟨PORT.PRBS_SEL q, 0, 4⟩
/-- R300 -/
def PORT.PRBS_ERR (q : Nat) : Nat := PORT.base q + 0x8C
def PORT.PRBS_ERR_count (q : Nat) : Fld := ⟨PORT.PRBS_ERR q, 0, 32⟩
/-- R300 -/
def PORT.PRBS_BITS_LO (q : Nat) : Nat := PORT.base q + 0x90
def PORT.PRBS_BITS_LO_bits (q : Nat) : Fld := ⟨PORT.PRBS_BITS_LO q, 0, 32⟩
/-- R300 -/
def PORT.PRBS_BITS_HI (q : Nat) : Nat := PORT.base q + 0x94
def PORT.PRBS_BITS_HI_bits (q : Nat) : Fld := ⟨PORT.PRBS_BITS_HI q, 0, 32⟩
/-- R300 -/
def PORT.PRBS_STAT (q : Nat) : Nat := PORT.base q + 0x98
def PORT.PRBS_STAT_sync (q : Nat) : Fld := ⟨PORT.PRBS_STAT q, 0, 16⟩
/-- R329 -/
def PORT.RX_PKT_LO (q : Nat) : Nat := PORT.base q + 0x100
def PORT.RX_PKT_LO_count (q : Nat) : Fld := ⟨PORT.RX_PKT_LO q, 0, 32⟩
/-- R329 -/
def PORT.RX_PKT_HI (q : Nat) : Nat := PORT.base q + 0x104
def PORT.RX_PKT_HI_count (q : Nat) : Fld := ⟨PORT.RX_PKT_HI q, 0, 32⟩
/-- R329 -/
def PORT.TX_PKT_LO (q : Nat) : Nat := PORT.base q + 0x108
def PORT.TX_PKT_LO_count (q : Nat) : Fld := ⟨PORT.TX_PKT_LO q, 0, 32⟩
/-- R329 -/
def PORT.TX_PKT_HI (q : Nat) : Nat := PORT.base q + 0x10C
def PORT.TX_PKT_HI_count (q : Nat) : Fld := ⟨PORT.TX_PKT_HI q, 0, 32⟩
/-- R329 -/
def PORT.HDR_ERR_COUNT (q : Nat) : Nat := PORT.base q + 0x110
def PORT.HDR_ERR_COUNT_count (q : Nat) : Fld := ⟨PORT.HDR_ERR_COUNT q, 0, 16⟩
def PORT.HDR_ERR_COUNT_clear (q : Nat) : Fld := ⟨PORT.HDR_ERR_COUNT q, 16, 1⟩
/-- R329 -/
def PORT.CRC_ERR_COUNT (q : Nat) : Nat := PORT.base q + 0x114
def PORT.CRC_ERR_COUNT_count (q : Nat) : Fld := ⟨PORT.CRC_ERR_COUNT q, 0, 16⟩
def PORT.CRC_ERR_COUNT_clear (q : Nat) : Fld := ⟨PORT.CRC_ERR_COUNT q, 16, 1⟩
/-- R329 -/
def PORT.UNKNOWN_COUNT (q : Nat) : Nat := PORT.base q + 0x118
def PORT.UNKNOWN_COUNT_count (q : Nat) : Fld := ⟨PORT.UNKNOWN_COUNT q, 0, 16⟩
def PORT.UNKNOWN_COUNT_clear (q : Nat) : Fld := ⟨PORT.UNKNOWN_COUNT q, 16, 1⟩
/-- R329 -/
def PORT.HOP_DROP_COUNT (q : Nat) : Nat := PORT.base q + 0x11C
def PORT.HOP_DROP_COUNT_count (q : Nat) : Fld := ⟨PORT.HOP_DROP_COUNT q, 0, 16⟩
def PORT.HOP_DROP_COUNT_clear (q : Nat) : Fld := ⟨PORT.HOP_DROP_COUNT q, 16, 1⟩
/-- R329 -/
def PORT.STALE_COUNT (q : Nat) : Nat := PORT.base q + 0x120
def PORT.STALE_COUNT_count (q : Nat) : Fld := ⟨PORT.STALE_COUNT q, 0, 16⟩
def PORT.STALE_COUNT_clear (q : Nat) : Fld := ⟨PORT.STALE_COUNT q, 16, 1⟩
/-- R329 -/
def PORT.FMT_ERR_COUNT (q : Nat) : Nat := PORT.base q + 0x124
def PORT.FMT_ERR_COUNT_count (q : Nat) : Fld := ⟨PORT.FMT_ERR_COUNT q, 0, 16⟩
def PORT.FMT_ERR_COUNT_clear (q : Nat) : Fld := ⟨PORT.FMT_ERR_COUNT q, 16, 1⟩
/-- R329 -/
def PORT.EARLY_COUNT (q : Nat) : Nat := PORT.base q + 0x128
def PORT.EARLY_COUNT_count (q : Nat) : Fld := ⟨PORT.EARLY_COUNT q, 0, 16⟩
def PORT.EARLY_COUNT_clear (q : Nat) : Fld := ⟨PORT.EARLY_COUNT q, 16, 1⟩
/-- R329 -/
def PORT.LATE_COUNT (q : Nat) : Nat := PORT.base q + 0x12C
def PORT.LATE_COUNT_count (q : Nat) : Fld := ⟨PORT.LATE_COUNT q, 0, 16⟩
def PORT.LATE_COUNT_clear (q : Nat) : Fld := ⟨PORT.LATE_COUNT q, 16, 1⟩
/-- R329 -/
def PORT.UNSCHED_COUNT (q : Nat) : Nat := PORT.base q + 0x130
def PORT.UNSCHED_COUNT_count (q : Nat) : Fld := ⟨PORT.UNSCHED_COUNT q, 0, 16⟩
def PORT.UNSCHED_COUNT_clear (q : Nat) : Fld := ⟨PORT.UNSCHED_COUNT q, 16, 1⟩
/-- R329 -/
def PORT.OVF_COUNT (q : Nat) : Nat := PORT.base q + 0x134
def PORT.OVF_COUNT_count (q : Nat) : Fld := ⟨PORT.OVF_COUNT q, 0, 16⟩
def PORT.OVF_COUNT_clear (q : Nat) : Fld := ⟨PORT.OVF_COUNT q, 16, 1⟩
/-- R329 -/
def PORT.EGRESS_WAIT (q : Nat) : Nat := PORT.base q + 0x138
def PORT.EGRESS_WAIT_cols (q : Nat) : Fld := ⟨PORT.EGRESS_WAIT q, 0, 16⟩
def PORT.EGRESS_WAIT_clear (q : Nat) : Fld := ⟨PORT.EGRESS_WAIT q, 16, 1⟩
/-- R329 -/
def PORT.TIME_SENT_LO (q : Nat) : Nat := PORT.base q + 0x140
def PORT.TIME_SENT_LO_t (q : Nat) : Fld := ⟨PORT.TIME_SENT_LO q, 0, 32⟩
/-- R329 -/
def PORT.TIME_SENT_HI (q : Nat) : Nat := PORT.base q + 0x144
def PORT.TIME_SENT_HI_t (q : Nat) : Fld := ⟨PORT.TIME_SENT_HI q, 0, 32⟩
/-- R329 -/
def PORT.TIME_ARR_LO (q : Nat) : Nat := PORT.base q + 0x148
def PORT.TIME_ARR_LO_t (q : Nat) : Fld := ⟨PORT.TIME_ARR_LO q, 0, 32⟩
/-- R329 -/
def PORT.TIME_ARR_HI (q : Nat) : Nat := PORT.base q + 0x14C
def PORT.TIME_ARR_HI_t (q : Nat) : Fld := ⟨PORT.TIME_ARR_HI q, 0, 32⟩
/-- R328 -/
def PNL.FLOW_CMD : Nat := PNL.base + 0x40
def PNL.FLOW_CMD_index : Fld := ⟨PNL.FLOW_CMD, 0, 10⟩
def PNL.FLOW_CMD_op : Fld := ⟨PNL.FLOW_CMD, 16, 3⟩
/-- R328 -/
def PNL.FLOW_STAT : Nat := PNL.base + 0x44
def PNL.FLOW_STAT_index : Fld := ⟨PNL.FLOW_STAT, 0, 10⟩
def PNL.FLOW_STAT_busy : Fld := ⟨PNL.FLOW_STAT, 16, 1⟩
def PNL.FLOW_STAT_ok : Fld := ⟨PNL.FLOW_STAT, 17, 1⟩
/-- R328 -/
def PNL.FLOW_COUNT : Nat := PNL.base + 0x48
def PNL.FLOW_COUNT_enabled : Fld := ⟨PNL.FLOW_COUNT, 0, 10⟩
def PNL.FLOW_COUNT_used : Fld := ⟨PNL.FLOW_COUNT, 16, 10⟩
/-- R328 -/
def PNL.STAGE_FREE : Nat := PNL.base + 0x4C
def PNL.STAGE_FREE_granules : Fld := ⟨PNL.STAGE_FREE, 0, 14⟩
/-- R328 -/
def PNL.SESS_STAT : Nat := PNL.base + 0x50
def PNL.SESS_STAT_active : Fld := ⟨PNL.SESS_STAT, 0, 1⟩
def PNL.SESS_STAT_fid : Fld := ⟨PNL.SESS_STAT, 4, 12⟩
def PNL.SESS_STAT_port : Fld := ⟨PNL.SESS_STAT, 16, 2⟩
def PNL.SESS_STAT_rst_ok : Fld := ⟨PNL.SESS_STAT, 24, 1⟩
/-- R328 -/
def PNL.DET_COUNT : Nat := PNL.base + 0x54
def PNL.DET_COUNT_count : Fld := ⟨PNL.DET_COUNT, 0, 16⟩
def PNL.DET_COUNT_clear : Fld := ⟨PNL.DET_COUNT, 16, 1⟩
/-- R328 -/
def PNL.DET_ENTRY : Nat := PNL.base + 0x58
def PNL.DET_ENTRY_index : Fld := ⟨PNL.DET_ENTRY, 0, 10⟩
def PNL.DET_ENTRY_valid : Fld := ⟨PNL.DET_ENTRY, 16, 1⟩
/-- R328 -/
def PNL.LOAD (i : Nat) : Nat := PNL.base + 0x60 + 4 * i
def PNL.LOAD_rx (i : Nat) : Fld := ⟨PNL.LOAD i, 0, 13⟩
def PNL.LOAD_tx (i : Nat) : Fld := ⟨PNL.LOAD i, 16, 13⟩
/-- R228 -/
def LND.CAP_CTRL : Nat := LND.base + 0x40
def LND.CAP_CTRL_en : Fld := ⟨LND.CAP_CTRL, 0, 1⟩
def LND.CAP_CTRL_go : Fld := ⟨LND.CAP_CTRL, 1, 1⟩
def LND.CAP_CTRL_arm : Fld := ⟨LND.CAP_CTRL, 2, 1⟩
def LND.CAP_CTRL_mode : Fld := ⟨LND.CAP_CTRL, 4, 2⟩
def LND.CAP_CTRL_ref : Fld := ⟨LND.CAP_CTRL, 6, 2⟩
def LND.CAP_CTRL_line : Fld := ⟨LND.CAP_CTRL, 8, 4⟩
/-- R228 -/
def LND.CAP_DLY : Nat := LND.base + 0x44
def LND.CAP_DLY_delay : Fld := ⟨LND.CAP_DLY, 0, 16⟩
def LND.CAP_DLY_obs : Fld := ⟨LND.CAP_DLY, 16, 12⟩
/-- R228 -/
def LND.CAP_LEN : Nat := LND.base + 0x48
def LND.CAP_LEN_len : Fld := ⟨LND.CAP_LEN, 0, 12⟩
/-- R228 -/
def LND.CAP_BASE : Nat := LND.base + 0x4C
def LND.CAP_BASE_base : Fld := ⟨LND.CAP_BASE, 0, 11⟩
/-- R228 -/
def LND.CAP_SEL_LO : Nat := LND.base + 0x50
def LND.CAP_SEL_LO_sel : Fld := ⟨LND.CAP_SEL_LO, 0, 32⟩
/-- R228 -/
def LND.CAP_SEL_HI : Nat := LND.base + 0x54
def LND.CAP_SEL_HI_sel : Fld := ⟨LND.CAP_SEL_HI, 0, 32⟩
/-- R228 -/
def LND.CAP_STAT : Nat := LND.base + 0x58
def LND.CAP_STAT_busy : Fld := ⟨LND.CAP_STAT, 0, 1⟩
def LND.CAP_STAT_done : Fld := ⟨LND.CAP_STAT, 1, 1⟩
def LND.CAP_STAT_flags : Fld := ⟨LND.CAP_STAT, 4, 6⟩
def LND.CAP_STAT_dropped : Fld := ⟨LND.CAP_STAT, 16, 8⟩
def LND.CAP_STAT_clear : Fld := ⟨LND.CAP_STAT, 24, 1⟩
/-- R228 -/
def LND.CAP_T_LO : Nat := LND.base + 0x60
def LND.CAP_T_LO_t : Fld := ⟨LND.CAP_T_LO, 0, 32⟩
/-- R228 -/
def LND.CAP_T_HI : Nat := LND.base + 0x64
def LND.CAP_T_HI_t : Fld := ⟨LND.CAP_T_HI, 0, 32⟩
/-- R228 -/
def LND.DET_COUNT : Nat := LND.base + 0x68
def LND.DET_COUNT_count : Fld := ⟨LND.DET_COUNT, 0, 16⟩
def LND.DET_COUNT_clear : Fld := ⟨LND.DET_COUNT, 16, 1⟩
/-- R228 -/
def LND.DET_ADDR : Nat := LND.base + 0x6C
def LND.DET_ADDR_addr : Fld := ⟨LND.DET_ADDR, 0, 32⟩
/-- R228 -/
def LND.CAP_THETA (i : Nat) : Nat := LND.base + 0x100 + 4 * i
def LND.CAP_THETA_theta (i : Nat) : Fld := ⟨LND.CAP_THETA i, 0, 16⟩
/-- R499 -/
def DBG.FRZ_STAT : Nat := DBG.base + 0x40
def DBG.FRZ_STAT_valid : Fld := ⟨DBG.FRZ_STAT, 0, 1⟩
def DBG.FRZ_STAT_cause : Fld := ⟨DBG.FRZ_STAT, 4, 4⟩
def DBG.FRZ_STAT_more : Fld := ⟨DBG.FRZ_STAT, 8, 8⟩
/-- R499 -/
def DBG.FRZ_CMD : Nat := DBG.base + 0x44
def DBG.FRZ_CMD_now : Fld := ⟨DBG.FRZ_CMD, 0, 1⟩
def DBG.FRZ_CMD_clear : Fld := ⟨DBG.FRZ_CMD, 1, 1⟩
/-- R499 -/
def DBG.CMEM_FENCE : Nat := DBG.base + 0x48
def DBG.CMEM_FENCE_bank : Fld := ⟨DBG.CMEM_FENCE, 0, 16⟩
/-- R499 -/
def DBG.CHAR : Nat := DBG.base + 0x4C
def DBG.CHAR_lvl_ovr : Fld := ⟨DBG.CHAR, 0, 1⟩
/-- R499 -/
def DBG.IRQN_SEL (i : Nat) : Nat := DBG.base + 0x60 + 4 * i
def DBG.IRQN_SEL_pages (i : Nat) : Fld := ⟨DBG.IRQN_SEL i, 0, 32⟩
/-- R499 -/
def DBG.ERR_SUM (i : Nat) : Nat := DBG.base + 0xA0 + 4 * i
def DBG.ERR_SUM_pages (i : Nat) : Fld := ⟨DBG.ERR_SUM i, 0, 32⟩
/-- R499 -/
def DBG.FRZ (i : Nat) : Nat := DBG.base + 0x100 + 4 * i
def DBG.FRZ_word (i : Nat) : Fld := ⟨DBG.FRZ i, 0, 32⟩

end Sys2Proof.Machine
end

