-- ==== Sys2Proof/Machine/RegTable.lean ====
section
/-! DEFINITION. The register tables of the spec as data: for every register its offset, its array count and its fields with their access type, retention mark and reset values (R9, R10, R11 and the Cold and Warm columns of every register table). A Cold or Warm value that is no plain number (fused, fixed, sampled, per instance) is 0 here and is given by `coldField`. -/
namespace Sys2Proof.Machine

/-- The pages of R38, and the header R41 that every page starts with. -/
inductive PageKind where
  | hdr | sys | rst | pwr | thm | sec | opt | mem | yrd | mgt | ftm | clk | scl | bia | prt | par | cas | std | core | ych | bf | bfg | dpd | txc | rxc | lane | port | pnl | lnd | dbg
  deriving DecidableEq, Repr

/-- Access types of R9. -/
inductive Acc where | rw | ro | w1c | w1s | wo | rwl
  deriving DecidableEq, Repr

/-- One field of a register table: lowest bit, width, access, retained (/K, R10), Cold value, and whether the Warm column says kept (otherwise the warm value is the cold value). -/
structure FldRow where
  lo : Nat
  w : Nat
  acc : Acc
  keep : Bool
  cold : Nat
  warmKept : Bool
  deriving DecidableEq, Repr

/-- One register (or array of registers) of a register table. -/
structure RegRow where
  off : Nat
  stride : Nat
  count : Nat
  fields : List FldRow
  deriving DecidableEq, Repr

def rowsHDR : List RegRow :=
  [
   ⟨0x0, 0, 1, [⟨0, 8, .ro, false, 0x1, false⟩, ⟨8, 8, .ro, false, 0x0, false⟩, ⟨16, 16, .ro, false, 0x0, false⟩]⟩,
   ⟨0x4, 0, 1, [⟨0, 32, .ro, false, 0x1, false⟩]⟩,
   ⟨0x8, 0, 1, [⟨0, 1, .rw, true, 0x0, false⟩, ⟨1, 1, .wo, false, 0x0, false⟩, ⟨2, 1, .rw, true, 0x1, false⟩]⟩,
   ⟨0xC, 0, 1, [⟨0, 1, .ro, false, 0x0, false⟩, ⟨1, 1, .ro, false, 0x0, false⟩, ⟨2, 2, .ro, false, 0x0, false⟩, ⟨4, 1, .ro, false, 0x0, false⟩, ⟨5, 1, .ro, false, 0x0, false⟩]⟩,
   ⟨0x10, 0, 1, [⟨0, 32, .w1c, false, 0x0, false⟩]⟩,
   ⟨0x14, 0, 1, [⟨0, 32, .rw, false, 0x0, false⟩]⟩,
   ⟨0x18, 0, 1, [⟨0, 32, .w1c, false, 0x0, false⟩]⟩,
   ⟨0x1C, 0, 1, [⟨0, 32, .wo, false, 0x0, false⟩]⟩,
   ⟨0x20, 0, 1, [⟨0, 6, .rw, false, 0x0, false⟩, ⟨8, 8, .ro, false, 0x0, false⟩, ⟨16, 6, .ro, false, 0x0, false⟩]⟩,
   ⟨0x24, 0, 1, [⟨0, 8, .w1c, false, 0x0, false⟩, ⟨8, 8, .w1c, false, 0x0, false⟩]⟩,
   ⟨0x28, 0, 1, [⟨0, 32, .ro, false, 0x0, false⟩]⟩,
   ⟨0x2C, 0, 1, [⟨0, 1, .rw, false, 0x0, true⟩]⟩
  ]
def rowsSYS : List RegRow :=
  [
   ⟨0x40, 0, 1, [⟨8, 4, .ro, false, 0x0, false⟩, ⟨12, 16, .ro, false, 0x6400, false⟩, ⟨28, 4, .ro, false, 0x1, false⟩]⟩,
   ⟨0x48, 0, 1, [⟨0, 32, .ro, false, 0x0, true⟩]⟩,
   ⟨0x4C, 0, 1, [⟨0, 32, .ro, false, 0x0, true⟩]⟩,
   ⟨0x50, 0, 1, [⟨0, 16, .rw, false, 0x0, true⟩]⟩,
   ⟨0x54, 0, 1, [⟨0, 16, .rw, false, 0x0, true⟩]⟩,
   ⟨0x58, 0, 1, [⟨0, 16, .ro, false, 0x0, false⟩]⟩,
   ⟨0x5C, 0, 1, [⟨0, 16, .rw, false, 0x0, true⟩]⟩,
   ⟨0x100, 4, 64, [⟨0, 8, .rw, true, 0x0, false⟩, ⟨8, 1, .ro, true, 0x0, false⟩]⟩
  ]
def rowsRST : List RegRow :=
  [
   ⟨0x40, 0, 1, [⟨0, 11, .ro, false, 0x0, true⟩]⟩,
   ⟨0x44, 0, 1, [⟨0, 4, .ro, false, 0x0, false⟩]⟩,
   ⟨0x48, 0, 1, [⟨0, 11, .rw, false, 0x0, true⟩, ⟨16, 11, .ro, false, 0x0, false⟩]⟩,
   ⟨0x4C, 0, 1, [⟨0, 8, .ro, false, 0x0, true⟩, ⟨8, 2, .ro, false, 0x0, true⟩]⟩,
   ⟨0x50, 0, 1, [⟨0, 3, .ro, false, 0x2, false⟩, ⟨4, 3, .ro, false, 0x0, false⟩, ⟨8, 5, .ro, false, 0x0, false⟩]⟩,
   ⟨0x54, 0, 1, [⟨0, 2, .ro, false, 0x0, true⟩, ⟨2, 1, .ro, false, 0x0, false⟩, ⟨3, 1, .ro, false, 0x0, false⟩, ⟨4, 4, .ro, false, 0x0, false⟩, ⟨8, 2, .ro, false, 0x0, false⟩, ⟨10, 1, .ro, false, 0x0, false⟩]⟩,
   ⟨0x58, 0, 1, [⟨0, 1, .wo, false, 0x0, false⟩]⟩,
   ⟨0x5C, 0, 1, [⟨0, 24, .rw, false, 0x0, false⟩]⟩,
   ⟨0x60, 0, 1, [⟨0, 18, .rw, false, 0x0, true⟩, ⟨31, 1, .rw, false, 0x0, true⟩]⟩,
   ⟨0x64, 0, 1, [⟨0, 32, .wo, false, 0x0, false⟩]⟩,
   ⟨0x68, 0, 1, [⟨0, 16, .rw, false, 0x0, false⟩]⟩,
   ⟨0x6C, 0, 1, [⟨0, 16, .wo, false, 0x0, false⟩]⟩
  ] ++
  [
   ⟨0x70, 0, 1, [⟨10, 22, .rw, false, 0x0, true⟩]⟩,
   ⟨0x74, 0, 1, [⟨0, 13, .rw, false, 0x0, true⟩]⟩,
   ⟨0x78, 0, 1, [⟨0, 16, .rw, false, 0x0, true⟩, ⟨16, 1, .ro, false, 0x0, true⟩]⟩
  ]
def rowsPWR : List RegRow :=
  [
   ⟨0x40, 0, 1, [⟨0, 2, .rw, false, 0x2, true⟩]⟩,
   ⟨0x44, 0, 1, [⟨0, 2, .ro, false, 0x2, true⟩, ⟨2, 2, .ro, false, 0x0, false⟩, ⟨4, 1, .ro, false, 0x0, false⟩, ⟨5, 1, .ro, false, 0x0, false⟩, ⟨8, 8, .ro, false, 0x5A, true⟩]⟩,
   ⟨0x48, 0, 1, [⟨0, 2, .wo, false, 0x0, false⟩, ⟨2, 1, .wo, false, 0x0, false⟩]⟩,
   ⟨0x4C, 0, 1, [⟨0, 2, .ro, false, 0x0, false⟩, ⟨2, 1, .ro, false, 0x0, false⟩, ⟨3, 1, .w1c, false, 0x0, false⟩, ⟨8, 5, .ro, false, 0x0, false⟩, ⟨16, 4, .ro, false, 0x0, false⟩]⟩,
   ⟨0x50, 0, 1, [⟨0, 27, .rw, false, 0x0, false⟩, ⟨31, 1, .wo, false, 0x0, false⟩]⟩,
   ⟨0x54, 0, 1, [⟨0, 27, .ro, false, 0x7FFFFFF, false⟩]⟩,
   ⟨0x58, 0, 1, [⟨0, 1, .ro, false, 0x1, false⟩, ⟨1, 4, .rw, false, 0xF, true⟩]⟩,
   ⟨0x5C, 0, 1, [⟨0, 6, .w1c, false, 0x0, false⟩]⟩,
   ⟨0x60, 0, 1, [⟨0, 32, .rw, false, 0x0, true⟩]⟩,
   ⟨0x64, 0, 1, [⟨0, 32, .rw, false, 0x0, true⟩]⟩,
   ⟨0x68, 0, 1, [⟨0, 27, .rw, false, 0x7FFFFFF, true⟩]⟩,
   ⟨0x6C, 0, 1, [⟨0, 16, .rw, false, 0x0, true⟩]⟩
  ] ++
  [
   ⟨0x80, 4, 8, [⟨0, 13, .rw, false, 0x0, true⟩, ⟨16, 1, .rw, false, 0x0, true⟩]⟩,
   ⟨0xC0, 0, 1, [⟨0, 1, .wo, false, 0x0, false⟩]⟩,
   ⟨0xC4, 0, 1, [⟨0, 16, .ro, false, 0x0, false⟩]⟩,
   ⟨0xC8, 0, 1, [⟨0, 7, .ro, false, 0x0, false⟩, ⟨7, 1, .ro, false, 0x0, false⟩, ⟨8, 1, .ro, false, 0x0, false⟩]⟩,
   ⟨0xCC, 0, 1, [⟨0, 32, .ro, false, 0x0, false⟩]⟩,
   ⟨0xD0, 0, 1, [⟨0, 16, .ro, false, 0xFFFF, false⟩]⟩,
   ⟨0xD4, 0, 1, [⟨0, 16, .ro, false, 0xFFFF, false⟩]⟩,
   ⟨0xD8, 0, 1, [⟨0, 16, .rw, false, 0x100, false⟩]⟩
  ]
def rowsTHM : List RegRow :=
  [
   ⟨0x40, 0, 1, [⟨0, 1, .rw, true, 0x1, false⟩, ⟨1, 1, .rw, true, 0x0, false⟩, ⟨2, 1, .rw, true, 0x0, false⟩]⟩,
   ⟨0x44, 0, 1, [⟨0, 1, .ro, false, 0x0, true⟩, ⟨1, 1, .ro, false, 0x0, false⟩, ⟨2, 1, .ro, false, 0x0, false⟩, ⟨3, 1, .ro, false, 0x0, false⟩, ⟨16, 6, .ro, false, 0x0, false⟩]⟩,
   ⟨0x48, 0, 1, [⟨0, 16, .ro, false, 0x0, false⟩, ⟨16, 1, .ro, false, 0x0, false⟩]⟩,
   ⟨0x4C, 0, 1, [⟨0, 16, .rw, true, 0x0, false⟩]⟩,
   ⟨0x50, 0, 1, [⟨0, 16, .rw, true, 0x0, false⟩]⟩,
   ⟨0x54, 0, 1, [⟨0, 4, .rw, true, 0x0, false⟩, ⟨4, 4, .rw, true, 0x4, false⟩, ⟨8, 4, .rw, true, 0x1, false⟩, ⟨16, 5, .rw, true, 0x8, false⟩]⟩,
   ⟨0x58, 0, 1, [⟨0, 10, .rw, true, 0x80, false⟩]⟩,
   ⟨0x60, 0, 1, [⟨0, 32, .w1c, false, 0x0, false⟩]⟩,
   ⟨0x64, 0, 1, [⟨0, 8, .w1c, false, 0x0, false⟩]⟩,
   ⟨0x68, 0, 1, [⟨0, 1, .wo, false, 0x0, false⟩, ⟨8, 6, .ro, false, 0x0, true⟩]⟩,
   ⟨0x6C, 0, 1, [⟨0, 16, .ro, false, 0x0, false⟩, ⟨16, 6, .ro, false, 0x0, false⟩]⟩,
   ⟨0x70, 0, 1, [⟨0, 6, .ro, false, 0x0, false⟩, ⟨8, 8, .ro, false, 0x0, false⟩]⟩
  ] ++
  [
   ⟨0x100, 4, 40, [⟨0, 16, .ro, false, 0x0, false⟩, ⟨16, 16, .ro, false, 0x0, false⟩]⟩,
   ⟨0x200, 4, 40, [⟨0, 6, .ro, false, 0x0, false⟩, ⟨8, 6, .ro, false, 0x0, false⟩, ⟨16, 6, .ro, false, 0x0, false⟩]⟩,
   ⟨0x300, 4, 16, [⟨0, 16, .rw, true, 0x0, false⟩, ⟨16, 1, .rw, true, 0x0, false⟩]⟩,
   ⟨0x340, 4, 16, [⟨0, 16, .ro, false, 0x0, false⟩]⟩,
   ⟨0x380, 4, 8, [⟨0, 16, .ro, false, 0x0, false⟩, ⟨16, 1, .ro, false, 0x0, false⟩]⟩,
   ⟨0x400, 128, 8, [⟨0, 6, .rw, true, 0x0, false⟩, ⟨8, 1, .rw, true, 0x0, false⟩]⟩,
   ⟨0x404, 4, 17, [⟨0, 16, .rw, true, 0x0, false⟩]⟩,
   ⟨0x484, 4, 17, [⟨0, 16, .rw, true, 0x0, false⟩]⟩,
   ⟨0x504, 4, 17, [⟨0, 16, .rw, true, 0x0, false⟩]⟩,
   ⟨0x584, 4, 17, [⟨0, 16, .rw, true, 0x0, false⟩]⟩,
   ⟨0x604, 4, 17, [⟨0, 16, .rw, true, 0x0, false⟩]⟩,
   ⟨0x684, 4, 17, [⟨0, 16, .rw, true, 0x0, false⟩]⟩
  ] ++
  [
   ⟨0x704, 4, 17, [⟨0, 16, .rw, true, 0x0, false⟩]⟩,
   ⟨0x784, 4, 17, [⟨0, 16, .rw, true, 0x0, false⟩]⟩
  ]
def rowsSEC : List RegRow :=
  [
   ⟨0x40, 0, 1, [⟨0, 4, .wo, false, 0x0, false⟩]⟩,
   ⟨0x44, 0, 1, [⟨2, 30, .rw, false, 0x0, false⟩]⟩,
   ⟨0x48, 0, 1, [⟨0, 1, .ro, false, 0x0, false⟩, ⟨4, 4, .ro, false, 0x0, false⟩, ⟨8, 8, .ro, false, 0x0, false⟩]⟩,
   ⟨0x4C, 0, 1, [⟨0, 2, .ro, false, 0x0, false⟩, ⟨8, 2, .ro, false, 0x0, false⟩, ⟨16, 2, .ro, false, 0x0, false⟩, ⟨24, 2, .ro, false, 0x0, false⟩, ⟨2, 3, .ro, false, 0x0, false⟩, ⟨10, 3, .ro, false, 0x0, false⟩, ⟨18, 3, .ro, false, 0x0, false⟩, ⟨26, 3, .ro, false, 0x0, false⟩]⟩,
   ⟨0x50, 0, 1, [⟨0, 7, .ro, false, 0x0, false⟩]⟩,
   ⟨0x54, 0, 1, [⟨0, 1, .rwl, false, 0x0, true⟩]⟩,
   ⟨0x58, 0, 1, [⟨0, 1, .ro, false, 0x0, false⟩, ⟨1, 1, .ro, false, 0x0, false⟩, ⟨2, 1, .ro, false, 0x0, false⟩, ⟨3, 1, .ro, false, 0x0, true⟩]⟩,
   ⟨0x5C, 0, 1, [⟨0, 32, .ro, false, 0x0, false⟩]⟩,
   ⟨0x60, 0, 1, [⟨0, 1, .ro, false, 0x0, false⟩, ⟨8, 8, .ro, false, 0x0, false⟩]⟩,
   ⟨0x64, 0, 1, [⟨0, 2, .ro, false, 0x0, false⟩, ⟨8, 7, .ro, false, 0x0, false⟩]⟩,
   ⟨0x80, 4, 8, [⟨0, 32, .ro, false, 0x0, false⟩]⟩,
   ⟨0x100, 4, 32, [⟨0, 32, .ro, false, 0x0, false⟩]⟩
  ] ++
  [
   ⟨0x200, 4, 8, [⟨0, 32, .ro, false, 0x0, false⟩]⟩,
   ⟨0x240, 4, 8, [⟨0, 32, .ro, false, 0x0, false⟩]⟩,
   ⟨0x260, 4, 8, [⟨0, 32, .ro, false, 0x0, false⟩]⟩
  ]
def rowsOPT : List RegRow :=
  []
def rowsMEM : List RegRow :=
  [
   ⟨0x40, 0, 1, [⟨0, 1, .rw, true, 0x1, false⟩, ⟨12, 20, .rw, true, 0x3FF, false⟩]⟩,
   ⟨0x44, 0, 1, [⟨0, 18, .rw, true, 0x3FFFF, false⟩, ⟨24, 5, .rw, true, 0x1F, false⟩]⟩,
   ⟨0x48, 0, 1, [⟨0, 32, .ro, false, 0x0, false⟩]⟩,
   ⟨0x4C, 0, 1, [⟨0, 16, .ro, true, 0x0, true⟩, ⟨16, 1, .wo, false, 0x0, false⟩]⟩,
   ⟨0x50, 0, 1, [⟨0, 16, .ro, true, 0x0, true⟩, ⟨16, 1, .wo, false, 0x0, false⟩]⟩,
   ⟨0x54, 0, 1, [⟨0, 16, .ro, true, 0x0, true⟩, ⟨16, 1, .wo, false, 0x0, false⟩]⟩,
   ⟨0x58, 0, 1, [⟨0, 16, .ro, true, 0x0, true⟩, ⟨16, 1, .wo, false, 0x0, false⟩]⟩,
   ⟨0x5C, 0, 1, [⟨0, 32, .ro, true, 0x0, true⟩]⟩,
   ⟨0x100, 16, 18, [⟨0, 16, .ro, true, 0x0, true⟩, ⟨16, 1, .wo, false, 0x0, false⟩, ⟨17, 7, .ro, true, 0x0, true⟩]⟩,
   ⟨0x104, 16, 18, [⟨0, 1, .w1c, true, 0x0, true⟩, ⟨3, 29, .ro, true, 0x0, true⟩]⟩,
   ⟨0x108, 16, 18, [⟨0, 16, .ro, true, 0x0, true⟩, ⟨16, 1, .wo, false, 0x0, false⟩]⟩,
   ⟨0x10C, 16, 18, [⟨3, 29, .ro, true, 0x0, true⟩]⟩
  ]
def rowsYRD : List RegRow :=
  [
   ⟨0x40, 0, 1, [⟨0, 5, .ro, false, 0x0, false⟩, ⟨8, 1, .ro, false, 0x0, false⟩]⟩,
   ⟨0x44, 0, 1, [⟨0, 32, .ro, false, 0x0, false⟩]⟩,
   ⟨0x48, 0, 1, [⟨0, 32, .ro, false, 0x0, false⟩]⟩,
   ⟨0x4C, 0, 1, [⟨0, 1, .ro, false, 0x0, false⟩, ⟨1, 1, .ro, false, 0x0, false⟩, ⟨2, 1, .ro, false, 0x0, false⟩, ⟨3, 8, .ro, false, 0x0, false⟩, ⟨11, 1, .ro, false, 0x0, false⟩, ⟨12, 1, .ro, false, 0x0, false⟩, ⟨13, 1, .ro, false, 0x0, false⟩, ⟨14, 8, .ro, false, 0x0, false⟩, ⟨22, 4, .ro, false, 0x0, false⟩, ⟨26, 1, .ro, false, 0x0, false⟩]⟩,
   ⟨0x50, 0, 1, [⟨0, 32, .ro, false, 0x0, true⟩]⟩,
   ⟨0x54, 0, 1, [⟨0, 32, .ro, false, 0x0, true⟩]⟩
  ]
def rowsMGT : List RegRow :=
  []
def rowsFTM : List RegRow :=
  [
   ⟨0x40, 0, 1, [⟨0, 1, .rw, false, 0x0, false⟩, ⟨1, 1, .wo, false, 0x0, false⟩, ⟨2, 1, .wo, false, 0x0, false⟩, ⟨8, 1, .ro, false, 0x0, false⟩]⟩,
   ⟨0x44, 0, 1, [⟨0, 10, .ro, false, 0x0, false⟩, ⟨10, 11, .ro, false, 0x0, false⟩]⟩,
   ⟨0x48, 0, 1, [⟨0, 24, .ro, false, 0x0, false⟩]⟩,
   ⟨0x4C, 0, 1, [⟨0, 10, .rw, false, 0x0, false⟩, ⟨10, 11, .rw, false, 0x0, false⟩]⟩,
   ⟨0x50, 0, 1, [⟨0, 24, .rw, false, 0x0, false⟩]⟩,
   ⟨0x54, 0, 1, [⟨0, 1, .wo, false, 0x0, false⟩, ⟨1, 1, .ro, false, 0x0, false⟩]⟩,
   ⟨0x58, 0, 1, [⟨0, 10, .ro, false, 0x0, false⟩, ⟨16, 1, .ro, false, 0x0, false⟩]⟩,
   ⟨0x60, 0, 1, [⟨8, 24, .rw, false, 0x0, false⟩]⟩,
   ⟨0x64, 0, 1, [⟨0, 32, .rw, false, 0x0, false⟩]⟩,
   ⟨0x68, 0, 1, [⟨0, 32, .ro, false, 0x0, false⟩]⟩,
   ⟨0x6C, 0, 1, [⟨0, 32, .ro, false, 0x0, false⟩]⟩,
   ⟨0x70, 0, 1, [⟨0, 8, .ro, false, 0x0, false⟩, ⟨8, 8, .ro, false, 0x0, false⟩, ⟨16, 8, .ro, false, 0x0, false⟩]⟩
  ] ++
  [
   ⟨0x74, 0, 1, [⟨0, 10, .ro, false, 0x0, false⟩, ⟨16, 1, .ro, false, 0x0, false⟩]⟩,
   ⟨0x100, 8, 16, [⟨0, 1, .rw, false, 0x0, false⟩, ⟨1, 1, .rw, false, 0x0, false⟩]⟩,
   ⟨0x104, 8, 16, [⟨0, 16, .rw, false, 0x0, false⟩, ⟨16, 16, .rw, false, 0x0, false⟩]⟩,
   ⟨0x180, 4, 32, [⟨0, 16, .rwl, false, 0x0, true⟩, ⟨16, 1, .rwl, false, 0x0, true⟩, ⟨17, 1, .rwl, false, 0x0, true⟩, ⟨18, 1, .rwl, false, 0x0, true⟩]⟩,
   ⟨0x200, 4, 3, [⟨0, 1, .rw, false, 0x0, false⟩, ⟨1, 1, .rw, false, 0x0, false⟩, ⟨2, 8, .rw, false, 0x0, false⟩, ⟨16, 16, .rw, false, 0x0, false⟩]⟩,
   ⟨0x210, 4, 3, [⟨0, 32, .ro, false, 0x0, false⟩]⟩,
   ⟨0x400, 8, 192, [⟨0, 32, .rw, false, 0x0, false⟩]⟩,
   ⟨0x404, 8, 192, [⟨0, 5, .rw, false, 0x0, false⟩]⟩
  ]
def rowsCLK : List RegRow :=
  [
   ⟨0x40, 0, 1, [⟨0, 1, .rw, false, 0x1, false⟩, ⟨1, 1, .rw, true, 0x0, false⟩]⟩,
   ⟨0x44, 0, 1, [⟨0, 1, .ro, false, 0x0, false⟩, ⟨1, 1, .ro, false, 0x0, false⟩]⟩,
   ⟨0x48, 0, 1, [⟨0, 8, .ro, false, 0x0, false⟩]⟩,
   ⟨0x200, 0, 1, [⟨0, 2, .rw, false, 0x0, false⟩, ⟨8, 1, .ro, false, 0x0, false⟩, ⟨9, 1, .ro, false, 0x0, true⟩]⟩,
   ⟨0x204, 0, 1, [⟨0, 16, .rw, false, 0x0, true⟩]⟩,
   ⟨0x208, 0, 1, [⟨5, 27, .rw, false, 0x0, true⟩]⟩,
   ⟨0x20C, 0, 1, [⟨0, 32, .rw, false, 0x0, true⟩]⟩,
   ⟨0x210, 0, 1, [⟨0, 32, .ro, false, 0x0, true⟩]⟩,
   ⟨0x214, 0, 1, [⟨0, 32, .ro, false, 0x0, true⟩]⟩,
   ⟨0x218, 0, 1, [⟨0, 16, .ro, false, 0x0, false⟩, ⟨16, 16, .rw, false, 0x40, false⟩]⟩
  ]
def rowsSCL : List RegRow :=
  [
   ⟨0x40, 0, 1, [⟨0, 2, .rw, true, 0x0, false⟩, ⟨2, 2, .rw, true, 0x0, false⟩, ⟨4, 2, .wo, false, 0x0, false⟩, ⟨8, 2, .ro, false, 0x0, false⟩]⟩,
   ⟨0x44, 0, 1, [⟨0, 7, .rw, true, 0x0, false⟩]⟩,
   ⟨0x50, 4, 2, [⟨0, 6, .rw, true, 0x0, false⟩, ⟨8, 1, .rw, false, 0x0, false⟩, ⟨9, 1, .rw, true, 0x0, false⟩, ⟨16, 16, .rw, true, 0x0, false⟩]⟩,
   ⟨0x58, 4, 2, [⟨0, 1, .rw, true, 0x0, false⟩, ⟨1, 2, .rw, true, 0x0, false⟩]⟩,
   ⟨0x60, 0, 1, [⟨0, 8, .ro, false, 0x0, false⟩, ⟨8, 8, .ro, false, 0x0, false⟩, ⟨16, 1, .wo, false, 0x0, false⟩]⟩,
   ⟨0x64, 0, 1, [⟨0, 16, .ro, false, 0x0, false⟩, ⟨16, 1, .wo, false, 0x0, false⟩]⟩,
   ⟨0x70, 8, 2, [⟨0, 32, .ro, false, 0x0, false⟩]⟩,
   ⟨0x74, 8, 2, [⟨0, 32, .ro, false, 0x0, false⟩]⟩,
   ⟨0xA0, 4, 4, [⟨0, 16, .rw, true, 0x0, false⟩]⟩,
   ⟨0xB0, 4, 4, [⟨0, 16, .rw, true, 0x4000, false⟩]⟩,
   ⟨0x200, 4, 64, [⟨0, 6, .rw, true, 0x0, false⟩, ⟨6, 1, .rw, true, 0x0, false⟩, ⟨8, 8, .rw, true, 0x0, false⟩]⟩,
   ⟨0x300, 8, 16, [⟨0, 1, .rw, true, 0x0, false⟩, ⟨4, 4, .rw, true, 0x0, false⟩, ⟨8, 6, .rw, true, 0x0, false⟩, ⟨14, 1, .rw, true, 0x0, false⟩, ⟨16, 8, .rw, true, 0x0, false⟩, ⟨24, 8, .rw, true, 0x0, false⟩]⟩
  ] ++
  [
   ⟨0x304, 8, 16, [⟨0, 16, .rw, true, 0x0, false⟩]⟩
  ]
def rowsBIA : List RegRow :=
  [
   ⟨0x40, 0, 1, [⟨0, 1, .ro, false, 0x0, false⟩, ⟨1, 1, .ro, false, 0x0, false⟩, ⟨2, 1, .ro, false, 0x0, false⟩]⟩,
   ⟨0x100, 16, 96, [⟨0, 1, .rw, true, 0x0, true⟩, ⟨1, 2, .rw, true, 0x0, true⟩]⟩,
   ⟨0x104, 16, 96, [⟨0, 16, .rw, true, 0x0, true⟩]⟩,
   ⟨0x108, 16, 96, [⟨0, 16, .ro, false, 0x0, false⟩, ⟨16, 1, .ro, false, 0x0, true⟩, ⟨17, 1, .ro, false, 0x0, false⟩, ⟨18, 1, .ro, false, 0x0, false⟩, ⟨19, 1, .w1c, false, 0x0, false⟩]⟩,
   ⟨0x10C, 16, 96, [⟨0, 12, .rw, true, 0xF, true⟩, ⟨16, 16, .rw, true, 0x0, true⟩]⟩,
   ⟨0x800, 4, 96, [⟨0, 16, .rw, true, 0x0, true⟩, ⟨16, 16, .rw, true, 0x0, true⟩]⟩,
   ⟨0xA00, 4, 16, [⟨0, 16, .ro, false, 0x0, false⟩, ⟨16, 1, .ro, false, 0x0, false⟩]⟩
  ]
def rowsPRT : List RegRow :=
  [
   ⟨0x40, 0, 1, [⟨0, 28, .ro, true, 0x0, false⟩]⟩,
   ⟨0x44, 0, 1, [⟨0, 28, .wo, false, 0x0, false⟩]⟩,
   ⟨0x48, 0, 1, [⟨0, 28, .ro, false, 0x0, false⟩]⟩,
   ⟨0x100, 4, 28, [⟨0, 4, .rw, true, 0x0, false⟩, ⟨8, 6, .rw, true, 0x0, false⟩, ⟨16, 16, .rw, true, 0xFFFF, false⟩]⟩,
   ⟨0x180, 4, 28, [⟨0, 4, .ro, false, 0x0, false⟩]⟩,
   ⟨0x200, 4, 16, [⟨0, 12, .rw, true, 0xFFF, false⟩, ⟨16, 12, .rw, true, 0x0, false⟩, ⟨28, 3, .rw, true, 0x0, false⟩, ⟨31, 1, .rw, true, 0x0, false⟩]⟩,
   ⟨0x280, 4, 28, [⟨0, 8, .ro, false, 0x0, false⟩, ⟨8, 1, .wo, false, 0x0, false⟩]⟩
  ]
def rowsPAR : List RegRow :=
  [
   ⟨0x40, 0, 1, [⟨0, 1, .rw, false, 0x0, false⟩, ⟨1, 1, .rw, true, 0x1, false⟩, ⟨2, 1, .rw, true, 0x0, false⟩, ⟨8, 8, .rw, true, 0x8, false⟩, ⟨16, 16, .rw, true, 0x3E8, false⟩]⟩,
   ⟨0x44, 0, 1, [⟨0, 1, .wo, false, 0x0, false⟩, ⟨1, 1, .wo, false, 0x0, false⟩, ⟨2, 1, .wo, false, 0x0, false⟩]⟩,
   ⟨0x48, 0, 1, [⟨0, 2, .ro, false, 0x0, false⟩, ⟨2, 1, .ro, false, 0x0, false⟩, ⟨3, 1, .ro, false, 0x0, false⟩, ⟨4, 1, .ro, false, 0x0, false⟩, ⟨5, 1, .ro, false, 0x0, false⟩, ⟨6, 1, .ro, false, 0x0, false⟩, ⟨8, 8, .ro, false, 0x0, false⟩, ⟨16, 2, .ro, false, 0x0, false⟩]⟩,
   ⟨0x4C, 0, 1, [⟨0, 10, .rw, true, 0x0, false⟩, ⟨16, 10, .rw, true, 0x0, false⟩, ⟨28, 4, .rw, true, 0xF, false⟩]⟩,
   ⟨0x50, 0, 1, [⟨0, 13, .ro, false, 0x0, false⟩, ⟨16, 16, .ro, false, 0x0, false⟩]⟩,
   ⟨0x54, 0, 1, [⟨0, 8, .ro, false, 0x0, false⟩, ⟨8, 8, .ro, false, 0x0, false⟩, ⟨16, 8, .ro, false, 0x0, false⟩, ⟨24, 1, .wo, false, 0x0, false⟩]⟩,
   ⟨0x80, 8, 8, [⟨10, 22, .rw, true, 0x0, false⟩]⟩,
   ⟨0x84, 8, 8, [⟨0, 12, .rw, true, 0x0, false⟩]⟩
  ]
def rowsCAS : List RegRow :=
  [
   ⟨0x40, 0, 1, [⟨0, 2, .rw, true, 0x0, false⟩, ⟨2, 2, .rw, true, 0x0, false⟩, ⟨4, 4, .rw, true, 0x0, false⟩, ⟨8, 4, .rw, true, 0x0, false⟩, ⟨16, 8, .rw, true, 0x0, false⟩]⟩,
   ⟨0x44, 0, 1, [⟨0, 4, .rw, true, 0x0, false⟩, ⟨4, 4, .ro, false, 0x0, false⟩]⟩,
   ⟨0x48, 0, 1, [⟨0, 16, .ro, false, 0x0, false⟩, ⟨16, 1, .ro, false, 0x0, false⟩]⟩,
   ⟨0x4C, 0, 1, [⟨0, 1, .rw, true, 0x0, false⟩, ⟨8, 1, .ro, false, 0x0, false⟩, ⟨9, 1, .ro, false, 0x0, false⟩]⟩,
   ⟨0x50, 0, 1, [⟨0, 32, .rw, true, 0x0, false⟩]⟩,
   ⟨0x54, 0, 1, [⟨0, 32, .rw, true, 0x0, false⟩]⟩,
   ⟨0x58, 0, 1, [⟨0, 4, .ro, false, 0x0, false⟩]⟩,
   ⟨0x60, 4, 4, [⟨0, 16, .ro, false, 0x0, false⟩, ⟨16, 1, .wo, false, 0x0, false⟩]⟩,
   ⟨0x70, 4, 4, [⟨0, 16, .ro, false, 0x0, false⟩, ⟨16, 1, .wo, false, 0x0, false⟩]⟩
  ]
def rowsSTD : List RegRow :=
  [
   ⟨0x40, 0, 1, [⟨0, 8, .rw, true, 0x0, false⟩, ⟨8, 8, .rw, true, 0x0, false⟩]⟩,
   ⟨0x44, 0, 1, [⟨0, 8, .ro, false, 0x0, false⟩, ⟨8, 8, .ro, false, 0x0, false⟩, ⟨16, 1, .ro, false, 0x0, false⟩]⟩,
   ⟨0x48, 0, 1, [⟨0, 32, .rw, true, 0x0, false⟩]⟩,
   ⟨0x4C, 0, 1, [⟨0, 16, .rw, true, 0x0, false⟩]⟩,
   ⟨0x50, 0, 1, [⟨0, 32, .rw, true, 0x0, false⟩]⟩,
   ⟨0x54, 0, 1, [⟨0, 16, .rw, true, 0x0, false⟩]⟩,
   ⟨0x58, 0, 1, [⟨0, 32, .rw, true, 0x0, false⟩]⟩,
   ⟨0x5C, 0, 1, [⟨0, 16, .rw, true, 0x0, false⟩]⟩,
   ⟨0x60, 0, 1, [⟨0, 1, .rw, true, 0x0, false⟩, ⟨1, 1, .rw, true, 0x1, false⟩]⟩,
   ⟨0x64, 0, 1, [⟨0, 16, .rw, true, 0x10, false⟩]⟩,
   ⟨0x68, 0, 1, [⟨0, 16, .ro, false, 0x0, false⟩, ⟨16, 1, .wo, false, 0x0, false⟩]⟩,
   ⟨0x6C, 0, 1, [⟨0, 16, .ro, false, 0x0, false⟩, ⟨16, 1, .wo, false, 0x0, false⟩]⟩
  ] ++
  [
   ⟨0x70, 0, 1, [⟨0, 32, .w1s, false, 0x0, false⟩]⟩,
   ⟨0x80, 16, 4, [⟨0, 32, .rw, true, 0x0, false⟩]⟩,
   ⟨0x84, 16, 4, [⟨0, 16, .rw, true, 0x0, false⟩]⟩,
   ⟨0x88, 16, 4, [⟨0, 32, .rw, true, 0x0, false⟩]⟩,
   ⟨0x8C, 16, 4, [⟨0, 16, .rw, true, 0x0, false⟩]⟩,
   ⟨0xC0, 0, 1, [⟨0, 1, .ro, false, 0x0, false⟩, ⟨1, 1, .ro, false, 0x0, false⟩, ⟨2, 1, .ro, false, 0x0, false⟩, ⟨3, 3, .ro, false, 0x0, false⟩]⟩,
   ⟨0xC4, 0, 1, [⟨0, 2, .ro, false, 0x0, false⟩, ⟨2, 1, .ro, false, 0x0, false⟩, ⟨3, 3, .ro, false, 0x0, false⟩]⟩,
   ⟨0x100, 4, 8, [⟨0, 14, .rw, true, 0x0, false⟩]⟩,
   ⟨0x120, 4, 8, [⟨0, 6, .rw, true, 0x0, false⟩, ⟨8, 6, .rw, true, 0x0, false⟩]⟩,
   ⟨0x140, 4, 8, [⟨0, 6, .rw, true, 0x14, false⟩]⟩,
   ⟨0x160, 4, 8, [⟨0, 16, .ro, false, 0x0, false⟩, ⟨16, 1, .wo, false, 0x0, false⟩]⟩,
   ⟨0x800, 4, 512, [⟨0, 16, .rw, true, 0x0, false⟩, ⟨16, 16, .rw, true, 0x0, false⟩]⟩
  ]
def rowsCORE : List RegRow :=
  [
   ⟨0x40, 0, 1, [⟨0, 1, .rw, false, 0x0, false⟩, ⟨1, 1, .rw, false, 0x0, false⟩]⟩,
   ⟨0x44, 0, 1, [⟨0, 13, .rw, false, 0x0, false⟩]⟩,
   ⟨0x48, 0, 1, [⟨0, 2, .ro, false, 0x0, false⟩, ⟨2, 1, .w1c, false, 0x0, false⟩, ⟨3, 1, .w1c, false, 0x0, false⟩, ⟨16, 13, .ro, false, 0x0, false⟩]⟩,
   ⟨0x4C, 0, 1, [⟨0, 13, .rw, false, 0x0, false⟩, ⟨16, 13, .rw, false, 0x0, false⟩]⟩,
   ⟨0x50, 0, 1, [⟨0, 13, .rw, false, 0x0, false⟩]⟩,
   ⟨0x54, 0, 1, [⟨0, 13, .ro, false, 0x0, false⟩]⟩,
   ⟨0x58, 0, 1, [⟨0, 32, .ro, false, 0x0, false⟩]⟩,
   ⟨0x5C, 0, 1, [⟨0, 4, .ro, false, 0x0, false⟩, ⟨4, 2, .ro, false, 0x0, false⟩, ⟨6, 1, .ro, false, 0x0, false⟩, ⟨8, 13, .ro, false, 0x0, false⟩]⟩,
   ⟨0x60, 0, 1, [⟨0, 32, .ro, false, 0x0, false⟩]⟩,
   ⟨0x64, 0, 1, [⟨0, 32, .w1c, false, 0x0, false⟩]⟩,
   ⟨0x68, 0, 1, [⟨0, 32, .w1c, false, 0x0, false⟩]⟩,
   ⟨0x6C, 0, 1, [⟨0, 32, .rw, false, 0x0, false⟩]⟩
  ] ++
  [
   ⟨0x70, 0, 1, [⟨0, 32, .rw, false, 0x0, false⟩]⟩,
   ⟨0x74, 0, 1, [⟨0, 6, .ro, false, 0x0, false⟩, ⟨8, 1, .ro, false, 0x0, false⟩]⟩,
   ⟨0x78, 0, 1, [⟨0, 1, .wo, false, 0x0, false⟩]⟩,
   ⟨0x7C, 0, 1, [⟨0, 24, .rw, false, 0x0, false⟩]⟩,
   ⟨0x80, 0, 1, [⟨0, 16, .wo, false, 0x0, false⟩]⟩,
   ⟨0xA0, 4, 7, [⟨0, 7, .rw, false, 0x0, false⟩, ⟨7, 1, .rw, false, 0x0, false⟩]⟩
  ]
def rowsYCH : List RegRow :=
  [
   ⟨0x40, 0, 1, [⟨0, 3, .rw, true, 0x0, false⟩, ⟨8, 8, .rw, true, 0x0, false⟩]⟩,
   ⟨0x44, 0, 1, [⟨0, 1, .rw, true, 0x0, false⟩, ⟨1, 1, .wo, false, 0x0, false⟩, ⟨2, 1, .wo, false, 0x0, false⟩]⟩,
   ⟨0x48, 0, 1, [⟨5, 27, .rw, true, 0x0, false⟩]⟩,
   ⟨0x4C, 0, 1, [⟨0, 16, .rw, true, 0xF, false⟩]⟩,
   ⟨0x50, 0, 1, [⟨0, 16, .rw, true, 0x0, false⟩, ⟨16, 1, .rw, true, 0x0, false⟩]⟩,
   ⟨0x54, 0, 1, [⟨0, 16, .ro, true, 0x0, false⟩, ⟨16, 1, .ro, true, 0x0, false⟩]⟩,
   ⟨0x58, 0, 1, [⟨0, 2, .ro, false, 0x0, false⟩, ⟨2, 1, .ro, false, 0x0, false⟩, ⟨8, 8, .ro, false, 0x0, false⟩]⟩,
   ⟨0x5C, 0, 1, [⟨0, 25, .ro, false, 0x0, false⟩]⟩,
   ⟨0x60, 0, 1, [⟨0, 32, .ro, false, 0x0, false⟩]⟩,
   ⟨0x64, 0, 1, [⟨0, 8, .ro, false, 0x0, false⟩, ⟨8, 8, .ro, false, 0x0, false⟩, ⟨16, 1, .wo, false, 0x0, false⟩]⟩
  ]
def rowsBF : List RegRow :=
  [
   ⟨0x40, 0, 1, [⟨0, 1, .rw, true, 0x0, false⟩, ⟨1, 1, .rw, true, 0x0, false⟩, ⟨2, 1, .rw, true, 0x0, false⟩]⟩,
   ⟨0x44, 0, 1, [⟨0, 1, .rw, true, 0x0, false⟩, ⟨1, 1, .rw, true, 0x0, false⟩, ⟨8, 8, .rw, true, 0x0, false⟩, ⟨16, 8, .rw, true, 0x0, false⟩]⟩,
   ⟨0x48, 0, 1, [⟨0, 8, .rw, true, 0x0, false⟩]⟩,
   ⟨0x4C, 0, 1, [⟨0, 9, .ro, false, 0x0, false⟩, ⟨16, 9, .ro, false, 0x0, false⟩]⟩,
   ⟨0x50, 0, 1, [⟨0, 8, .wo, false, 0x0, false⟩]⟩,
   ⟨0x54, 0, 1, [⟨0, 1, .ro, false, 0x0, false⟩, ⟨1, 1, .ro, false, 0x0, false⟩, ⟨8, 8, .ro, false, 0x0, false⟩]⟩,
   ⟨0x58, 0, 1, [⟨0, 8, .rw, false, 0x0, false⟩]⟩,
   ⟨0x5C, 0, 1, [⟨0, 1, .ro, false, 0x0, false⟩, ⟨1, 1, .ro, false, 0x0, false⟩, ⟨2, 1, .ro, false, 0x1, false⟩, ⟨8, 7, .ro, false, 0x0, false⟩]⟩,
   ⟨0x60, 0, 1, [⟨0, 32, .ro, false, 0x0, false⟩]⟩,
   ⟨0x64, 0, 1, [⟨0, 32, .ro, false, 0x0, false⟩]⟩,
   ⟨0x68, 0, 1, [⟨0, 8, .ro, false, 0x0, false⟩, ⟨8, 6, .ro, false, 0x0, false⟩, ⟨16, 2, .ro, false, 0x0, false⟩, ⟨31, 1, .ro, false, 0x0, false⟩]⟩,
   ⟨0x6C, 0, 1, [⟨0, 5, .ro, false, 0x0, false⟩, ⟨8, 8, .ro, false, 0x0, false⟩, ⟨16, 1, .wo, false, 0x0, false⟩]⟩
  ] ++
  [
   ⟨0x70, 0, 1, [⟨0, 8, .ro, false, 0x0, false⟩, ⟨8, 2, .ro, false, 0x0, false⟩, ⟨16, 8, .ro, false, 0x0, false⟩]⟩
  ]
def rowsBFG : List RegRow :=
  [
   ⟨0x40, 0, 1, [⟨0, 7, .rw, true, 0x0, false⟩, ⟨16, 7, .rw, true, 0x0, false⟩]⟩,
   ⟨0x44, 0, 1, [⟨0, 4, .rw, true, 0x0, false⟩, ⟨8, 4, .rw, true, 0x0, false⟩]⟩,
   ⟨0x48, 0, 1, [⟨0, 8, .rw, true, 0x0, false⟩, ⟨8, 8, .rw, true, 0x0, false⟩]⟩,
   ⟨0x4C, 0, 1, [⟨0, 8, .ro, false, 0xFF, false⟩, ⟨8, 8, .ro, false, 0xFF, false⟩]⟩,
   ⟨0x50, 0, 1, [⟨0, 16, .ro, false, 0x0, false⟩, ⟨16, 1, .wo, false, 0x0, false⟩]⟩,
   ⟨0x54, 0, 1, [⟨0, 16, .ro, false, 0x0, false⟩, ⟨16, 1, .wo, false, 0x0, false⟩]⟩,
   ⟨0x58, 0, 1, [⟨0, 16, .ro, false, 0x0, false⟩, ⟨16, 1, .wo, false, 0x0, false⟩]⟩
  ]
def rowsDPD : List RegRow :=
  [
   ⟨0x40, 0, 1, [⟨0, 1, .rw, true, 0x1, false⟩]⟩,
   ⟨0x44, 0, 1, [⟨0, 8, .wo, false, 0x0, false⟩, ⟨8, 1, .wo, false, 0x0, false⟩, ⟨16, 8, .wo, false, 0x0, false⟩]⟩,
   ⟨0x48, 0, 1, [⟨0, 8, .rw, true, 0x0, false⟩]⟩,
   ⟨0x4C, 0, 1, [⟨0, 16, .ro, false, 0x0, false⟩, ⟨16, 8, .ro, false, 0x0, false⟩]⟩,
   ⟨0x50, 0, 1, [⟨0, 6, .rw, true, 0x1, false⟩, ⟨16, 6, .rw, true, 0x1, false⟩]⟩,
   ⟨0x54, 0, 1, [⟨0, 3, .ro, false, 0x0, false⟩, ⟨8, 1, .ro, false, 0x0, false⟩, ⟨16, 2, .ro, false, 0x0, false⟩, ⟨31, 1, .ro, false, 0x0, false⟩]⟩,
   ⟨0x58, 0, 1, [⟨0, 4, .ro, false, 0x0, false⟩, ⟨8, 8, .ro, false, 0x0, false⟩, ⟨16, 1, .wo, false, 0x0, false⟩]⟩,
   ⟨0x5C, 0, 1, [⟨0, 8, .ro, false, 0x0, false⟩, ⟨8, 8, .ro, false, 0x0, false⟩, ⟨16, 1, .wo, false, 0x0, false⟩]⟩,
   ⟨0x60, 0, 1, [⟨0, 16, .ro, false, 0x0, false⟩, ⟨16, 1, .wo, false, 0x0, false⟩]⟩,
   ⟨0x80, 4, 8, [⟨0, 1, .ro, false, 0x0, false⟩, ⟨1, 1, .ro, false, 0x0, false⟩, ⟨2, 1, .ro, false, 0x0, false⟩, ⟨3, 1, .ro, false, 0x0, false⟩, ⟨4, 1, .ro, false, 0x0, false⟩, ⟨5, 1, .ro, false, 0x0, false⟩, ⟨8, 1, .ro, false, 0x0, false⟩, ⟨9, 1, .ro, false, 0x0, false⟩]⟩,
   ⟨0xA0, 4, 8, [⟨0, 5, .rw, true, 0x14, false⟩, ⟨16, 16, .rw, true, 0x0, false⟩]⟩,
   ⟨0xC0, 4, 8, [⟨0, 16, .ro, false, 0x0, false⟩]⟩
  ] ++
  [
   ⟨0xE0, 4, 8, [⟨0, 16, .rw, true, 0x0, false⟩, ⟨31, 1, .wo, false, 0x0, false⟩]⟩,
   ⟨0x100, 4, 40, [⟨0, 3, .rw, true, 0x0, false⟩, ⟨4, 3, .rw, true, 0x0, false⟩, ⟨8, 4, .rw, true, 0x0, false⟩, ⟨12, 1, .rw, true, 0x0, false⟩]⟩,
   ⟨0x200, 4, 40, [⟨0, 3, .rw, true, 0x0, false⟩, ⟨4, 3, .rw, true, 0x0, false⟩, ⟨8, 4, .rw, true, 0x0, false⟩, ⟨12, 1, .rw, true, 0x0, false⟩]⟩
  ]
def rowsTXC : List RegRow :=
  [
   ⟨0x40, 4, 4, [⟨0, 3, .rw, true, 0x0, false⟩, ⟨4, 2, .rw, true, 0x1, false⟩, ⟨8, 1, .rw, true, 0x0, false⟩, ⟨16, 1, .ro, false, 0x0, false⟩, ⟨17, 1, .ro, false, 0x0, false⟩]⟩,
   ⟨0x50, 0, 1, [⟨0, 4, .wo, false, 0x0, false⟩, ⟨4, 4, .wo, false, 0x0, false⟩]⟩,
   ⟨0x58, 0, 1, [⟨8, 24, .rw, true, 0x0, false⟩]⟩,
   ⟨0x5C, 0, 1, [⟨0, 32, .rw, true, 0x0, false⟩]⟩,
   ⟨0x60, 4, 4, [⟨0, 16, .rw, true, 0x4000, false⟩]⟩,
   ⟨0x70, 0, 1, [⟨0, 1, .rw, true, 0x1, false⟩, ⟨4, 4, .rw, true, 0xF, false⟩, ⟨8, 8, .rw, true, 0x14, false⟩]⟩,
   ⟨0x74, 0, 1, [⟨0, 16, .rw, true, 0x1000, false⟩]⟩,
   ⟨0x78, 0, 1, [⟨0, 16, .ro, false, 0x2831, false⟩]⟩,
   ⟨0x80, 0, 1, [⟨0, 32, .rw, true, 0x0, false⟩]⟩,
   ⟨0x84, 0, 1, [⟨0, 32, .rw, true, 0x0, false⟩]⟩,
   ⟨0x88, 0, 1, [⟨0, 2, .rw, true, 0x0, false⟩]⟩,
   ⟨0x8C, 0, 1, [⟨0, 2, .rw, true, 0x0, false⟩]⟩
  ] ++
  [
   ⟨0x90, 0, 1, [⟨0, 1, .rw, true, 0x1, false⟩]⟩,
   ⟨0x94, 0, 1, [⟨0, 8, .rw, true, 0x0, false⟩]⟩,
   ⟨0x98, 0, 1, [⟨0, 32, .rw, true, 0x0, false⟩]⟩,
   ⟨0x9C, 0, 1, [⟨0, 32, .rw, true, 0x0, false⟩]⟩,
   ⟨0xA0, 0, 1, [⟨0, 32, .ro, false, 0x0, false⟩]⟩,
   ⟨0xA4, 0, 1, [⟨0, 32, .ro, false, 0x0, false⟩]⟩,
   ⟨0xA8, 0, 1, [⟨0, 1, .ro, false, 0x1, false⟩, ⟨1, 1, .ro, false, 0x0, false⟩, ⟨2, 1, .ro, false, 0x0, false⟩, ⟨3, 1, .ro, false, 0x0, false⟩]⟩,
   ⟨0xB0, 4, 4, [⟨0, 10, .ro, false, 0x0, false⟩]⟩,
   ⟨0xC0, 4, 4, [⟨0, 16, .ro, false, 0x0, false⟩, ⟨16, 1, .wo, false, 0x0, false⟩]⟩,
   ⟨0xD0, 0, 1, [⟨0, 16, .ro, false, 0x0, false⟩, ⟨16, 1, .wo, false, 0x0, false⟩]⟩,
   ⟨0xD4, 0, 1, [⟨0, 16, .ro, false, 0x0, false⟩, ⟨16, 1, .wo, false, 0x0, false⟩]⟩,
   ⟨0xD8, 0, 1, [⟨0, 16, .ro, false, 0x0, false⟩, ⟨16, 1, .wo, false, 0x0, false⟩]⟩
  ] ++
  [
   ⟨0xDC, 0, 1, [⟨0, 16, .ro, false, 0x0, false⟩]⟩,
   ⟨0xE0, 0, 1, [⟨0, 32, .ro, false, 0x0, false⟩]⟩,
   ⟨0xE4, 0, 1, [⟨0, 32, .ro, false, 0x0, false⟩]⟩,
   ⟨0x100, 4, 64, [⟨0, 16, .rw, true, 0x0, false⟩]⟩,
   ⟨0x200, 4, 64, [⟨0, 16, .ro, false, 0x0, false⟩, ⟨16, 1, .wo, false, 0x0, false⟩]⟩,
   ⟨0x800, 0, 1, [⟨0, 1, .rw, false, 0x0, false⟩, ⟨1, 1, .wo, false, 0x0, false⟩, ⟨4, 4, .rw, false, 0x0, false⟩]⟩,
   ⟨0x808, 0, 1, [⟨0, 32, .rw, false, 0x0, false⟩]⟩,
   ⟨0x80C, 0, 1, [⟨0, 16, .rw, false, 0x0, false⟩]⟩,
   ⟨0x810, 0, 1, [⟨0, 11, .rw, false, 0x0, false⟩, ⟨16, 12, .rw, false, 0x0, false⟩]⟩,
   ⟨0x814, 0, 1, [⟨0, 8, .rw, false, 0x1, false⟩, ⟨8, 6, .rw, false, 0x0, false⟩]⟩,
   ⟨0x818, 0, 1, [⟨0, 1, .ro, false, 0x0, false⟩, ⟨1, 1, .ro, false, 0x0, false⟩, ⟨8, 8, .ro, false, 0x0, false⟩]⟩
  ]
def rowsRXC : List RegRow :=
  [
   ⟨0x40, 4, 4, [⟨0, 3, .rw, true, 0x0, false⟩, ⟨4, 2, .rw, true, 0x1, false⟩, ⟨8, 1, .rw, true, 0x0, false⟩, ⟨16, 1, .ro, false, 0x0, false⟩, ⟨17, 1, .ro, false, 0x0, false⟩]⟩,
   ⟨0x50, 0, 1, [⟨0, 4, .wo, false, 0x0, false⟩, ⟨4, 4, .wo, false, 0x0, false⟩]⟩,
   ⟨0x58, 0, 1, [⟨8, 24, .rw, true, 0x0, false⟩]⟩,
   ⟨0x5C, 0, 1, [⟨0, 32, .rw, true, 0x0, false⟩]⟩,
   ⟨0x60, 0, 1, [⟨0, 2, .rw, true, 0x0, false⟩, ⟨2, 1, .rw, false, 0x0, false⟩]⟩,
   ⟨0x64, 0, 1, [⟨0, 1, .w1c, false, 0x0, false⟩, ⟨1, 1, .w1c, false, 0x0, false⟩]⟩,
   ⟨0x68, 0, 1, [⟨0, 16, .rw, true, 0x1000, false⟩]⟩,
   ⟨0x70, 0, 1, [⟨0, 32, .ro, false, 0x0, false⟩]⟩,
   ⟨0x74, 0, 1, [⟨0, 32, .ro, false, 0x0, false⟩]⟩,
   ⟨0x80, 0, 1, [⟨0, 1, .rw, true, 0x0, false⟩, ⟨4, 4, .rw, true, 0x0, false⟩, ⟨16, 16, .rw, true, 0x0, false⟩]⟩,
   ⟨0x88, 0, 1, [⟨0, 32, .w1s, false, 0x0, false⟩]⟩,
   ⟨0x8C, 0, 1, [⟨0, 32, .w1s, false, 0x0, false⟩]⟩
  ] ++
  [
   ⟨0x90, 0, 1, [⟨0, 8, .ro, false, 0x0, false⟩, ⟨8, 8, .ro, false, 0x0, false⟩, ⟨16, 1, .wo, false, 0x0, false⟩]⟩,
   ⟨0xA0, 4, 4, [⟨0, 9, .ro, false, 0x0, false⟩]⟩,
   ⟨0xB0, 4, 4, [⟨0, 16, .ro, false, 0x0, false⟩, ⟨16, 1, .wo, false, 0x0, false⟩]⟩,
   ⟨0xC0, 4, 4, [⟨0, 16, .ro, false, 0x0, false⟩, ⟨16, 1, .wo, false, 0x0, false⟩]⟩,
   ⟨0x200, 8, 64, [⟨0, 16, .rw, true, 0x0, false⟩, ⟨16, 16, .rw, true, 0x0, false⟩]⟩,
   ⟨0x204, 8, 64, [⟨0, 2, .rw, true, 0x0, false⟩, ⟨8, 2, .ro, false, 0x0, false⟩]⟩,
   ⟨0x400, 4, 64, [⟨0, 16, .ro, false, 0x0, false⟩, ⟨16, 16, .ro, false, 0x0, false⟩]⟩,
   ⟨0x500, 8, 64, [⟨0, 32, .ro, false, 0x0, false⟩]⟩,
   ⟨0x504, 8, 64, [⟨0, 16, .ro, false, 0x0, false⟩]⟩,
   ⟨0x700, 8, 64, [⟨0, 32, .ro, false, 0x0, false⟩]⟩,
   ⟨0x704, 8, 64, [⟨0, 16, .ro, false, 0x0, false⟩]⟩
  ]
def rowsLANE : List RegRow :=
  [
   ⟨0x40, 0, 1, [⟨0, 1, .rw, true, 0x0, true⟩, ⟨1, 1, .rw, true, 0x0, true⟩, ⟨2, 1, .rw, true, 0x1, true⟩, ⟨3, 1, .rw, true, 0x0, true⟩, ⟨4, 5, .rw, true, 0x6, true⟩]⟩,
   ⟨0x44, 0, 1, [⟨0, 5, .rw, true, 0xC, true⟩, ⟨8, 3, .rw, true, 0x0, true⟩, ⟨16, 4, .rw, true, 0x4, true⟩]⟩,
   ⟨0x48, 0, 1, [⟨0, 1, .ro, false, 0x0, false⟩, ⟨1, 1, .ro, false, 0x0, false⟩, ⟨2, 1, .ro, false, 0x0, false⟩, ⟨8, 6, .ro, false, 0x0, false⟩, ⟨16, 8, .ro, false, 0x0, false⟩, ⟨24, 3, .ro, false, 0x0, false⟩]⟩,
   ⟨0x4C, 0, 1, [⟨0, 8, .rw, true, 0x10, true⟩]⟩,
   ⟨0x50, 0, 1, [⟨0, 16, .ro, false, 0x0, false⟩, ⟨16, 1, .wo, false, 0x0, false⟩]⟩,
   ⟨0x54, 0, 1, [⟨0, 8, .ro, false, 0x0, false⟩, ⟨16, 1, .wo, false, 0x0, false⟩]⟩,
   ⟨0x58, 0, 1, [⟨0, 10, .ro, false, 0x0, false⟩, ⟨16, 1, .ro, false, 0x0, false⟩]⟩,
   ⟨0x60, 4, 12, [⟨0, 8, .ro, false, 0x0, true⟩]⟩
  ]
def rowsPORT : List RegRow :=
  [
   ⟨0x40, 0, 1, [⟨0, 3, .rw, true, 0x0, true⟩, ⟨4, 4, .rw, true, 0xC, true⟩, ⟨8, 1, .rw, true, 0x1, true⟩, ⟨9, 1, .rw, true, 0x0, true⟩, ⟨10, 1, .rw, true, 0x1, true⟩]⟩,
   ⟨0x44, 0, 1, [⟨0, 1, .wo, false, 0x0, false⟩, ⟨1, 1, .wo, false, 0x0, false⟩, ⟨2, 1, .wo, false, 0x0, false⟩, ⟨3, 1, .wo, false, 0x0, false⟩, ⟨4, 1, .wo, false, 0x0, false⟩]⟩,
   ⟨0x48, 0, 1, [⟨0, 3, .ro, false, 0x0, false⟩, ⟨3, 1, .ro, false, 0x0, false⟩, ⟨4, 2, .ro, false, 0x0, false⟩, ⟨6, 1, .ro, false, 0x0, false⟩, ⟨16, 16, .w1c, false, 0x0, false⟩]⟩,
   ⟨0x4C, 0, 1, [⟨0, 16, .ro, false, 0x0, false⟩]⟩,
   ⟨0x50, 0, 1, [⟨0, 32, .rw, false, 0x0, false⟩]⟩,
   ⟨0x54, 0, 1, [⟨0, 32, .rw, false, 0x0, false⟩]⟩,
   ⟨0x58, 0, 1, [⟨0, 8, .ro, false, 0x0, false⟩, ⟨8, 8, .ro, false, 0x0, false⟩, ⟨16, 1, .wo, false, 0x0, false⟩]⟩,
   ⟨0x5C, 0, 1, [⟨0, 16, .ro, false, 0x0, false⟩, ⟨16, 1, .wo, false, 0x0, false⟩]⟩,
   ⟨0x80, 0, 1, [⟨0, 1, .rw, false, 0x0, false⟩, ⟨1, 2, .rw, false, 0x0, false⟩, ⟨3, 1, .rw, false, 0x0, false⟩, ⟨4, 1, .rw, false, 0x0, false⟩, ⟨5, 1, .rw, false, 0x0, false⟩, ⟨6, 1, .wo, false, 0x0, false⟩]⟩,
   ⟨0x84, 0, 1, [⟨0, 16, .rw, false, 0x0, false⟩]⟩,
   ⟨0x88, 0, 1, [⟨0, 4, .rw, false, 0x0, false⟩]⟩,
   ⟨0x8C, 0, 1, [⟨0, 32, .ro, false, 0x0, false⟩]⟩
  ] ++
  [
   ⟨0x90, 0, 1, [⟨0, 32, .ro, false, 0x0, false⟩]⟩,
   ⟨0x94, 0, 1, [⟨0, 32, .ro, false, 0x0, false⟩]⟩,
   ⟨0x98, 0, 1, [⟨0, 16, .ro, false, 0x0, false⟩]⟩,
   ⟨0x100, 0, 1, [⟨0, 32, .ro, false, 0x0, false⟩]⟩,
   ⟨0x104, 0, 1, [⟨0, 32, .ro, false, 0x0, false⟩]⟩,
   ⟨0x108, 0, 1, [⟨0, 32, .ro, false, 0x0, false⟩]⟩,
   ⟨0x10C, 0, 1, [⟨0, 32, .ro, false, 0x0, false⟩]⟩,
   ⟨0x110, 0, 1, [⟨0, 16, .ro, false, 0x0, false⟩, ⟨16, 1, .wo, false, 0x0, false⟩]⟩,
   ⟨0x114, 0, 1, [⟨0, 16, .ro, false, 0x0, false⟩, ⟨16, 1, .wo, false, 0x0, false⟩]⟩,
   ⟨0x118, 0, 1, [⟨0, 16, .ro, false, 0x0, false⟩, ⟨16, 1, .wo, false, 0x0, false⟩]⟩,
   ⟨0x11C, 0, 1, [⟨0, 16, .ro, false, 0x0, false⟩, ⟨16, 1, .wo, false, 0x0, false⟩]⟩,
   ⟨0x120, 0, 1, [⟨0, 16, .ro, false, 0x0, false⟩, ⟨16, 1, .wo, false, 0x0, false⟩]⟩
  ] ++
  [
   ⟨0x124, 0, 1, [⟨0, 16, .ro, false, 0x0, false⟩, ⟨16, 1, .wo, false, 0x0, false⟩]⟩,
   ⟨0x128, 0, 1, [⟨0, 16, .ro, false, 0x0, false⟩, ⟨16, 1, .wo, false, 0x0, false⟩]⟩,
   ⟨0x12C, 0, 1, [⟨0, 16, .ro, false, 0x0, false⟩, ⟨16, 1, .wo, false, 0x0, false⟩]⟩,
   ⟨0x130, 0, 1, [⟨0, 16, .ro, false, 0x0, false⟩, ⟨16, 1, .wo, false, 0x0, false⟩]⟩,
   ⟨0x134, 0, 1, [⟨0, 16, .ro, false, 0x0, false⟩, ⟨16, 1, .wo, false, 0x0, false⟩]⟩,
   ⟨0x138, 0, 1, [⟨0, 16, .ro, false, 0x0, false⟩, ⟨16, 1, .wo, false, 0x0, false⟩]⟩,
   ⟨0x140, 0, 1, [⟨0, 32, .ro, false, 0x0, false⟩]⟩,
   ⟨0x144, 0, 1, [⟨0, 32, .ro, false, 0x0, false⟩]⟩,
   ⟨0x148, 0, 1, [⟨0, 32, .ro, false, 0x0, false⟩]⟩,
   ⟨0x14C, 0, 1, [⟨0, 32, .ro, false, 0x0, false⟩]⟩
  ]
def rowsPNL : List RegRow :=
  [
   ⟨0x40, 0, 1, [⟨0, 10, .wo, false, 0x0, false⟩, ⟨16, 3, .wo, false, 0x0, false⟩]⟩,
   ⟨0x44, 0, 1, [⟨0, 10, .ro, false, 0x0, false⟩, ⟨16, 1, .ro, false, 0x0, false⟩, ⟨17, 1, .ro, false, 0x0, false⟩]⟩,
   ⟨0x48, 0, 1, [⟨0, 10, .ro, false, 0x0, false⟩, ⟨16, 10, .ro, false, 0x0, false⟩]⟩,
   ⟨0x4C, 0, 1, [⟨0, 14, .ro, false, 0x3000, false⟩]⟩,
   ⟨0x50, 0, 1, [⟨0, 1, .ro, false, 0x0, false⟩, ⟨4, 12, .ro, false, 0x0, false⟩, ⟨16, 2, .ro, false, 0x0, false⟩, ⟨24, 1, .ro, false, 0x0, false⟩]⟩,
   ⟨0x54, 0, 1, [⟨0, 16, .ro, false, 0x0, false⟩, ⟨16, 1, .wo, false, 0x0, false⟩]⟩,
   ⟨0x58, 0, 1, [⟨0, 10, .ro, false, 0x0, false⟩, ⟨16, 1, .ro, false, 0x0, false⟩]⟩,
   ⟨0x60, 4, 4, [⟨0, 13, .ro, false, 0x0, false⟩, ⟨16, 13, .ro, false, 0x0, false⟩]⟩
  ]
def rowsLND : List RegRow :=
  [
   ⟨0x40, 0, 1, [⟨0, 1, .rw, false, 0x0, false⟩, ⟨1, 1, .wo, false, 0x0, false⟩, ⟨2, 1, .w1s, false, 0x0, false⟩, ⟨4, 2, .rw, false, 0x0, false⟩, ⟨6, 2, .rw, false, 0x0, false⟩, ⟨8, 4, .rw, false, 0x0, false⟩]⟩,
   ⟨0x44, 0, 1, [⟨0, 16, .rw, false, 0x0, false⟩, ⟨16, 12, .rw, false, 0x0, false⟩]⟩,
   ⟨0x48, 0, 1, [⟨0, 12, .rw, false, 0x0, false⟩]⟩,
   ⟨0x4C, 0, 1, [⟨0, 11, .rw, false, 0x0, false⟩]⟩,
   ⟨0x50, 0, 1, [⟨0, 32, .rw, false, 0x0, false⟩]⟩,
   ⟨0x54, 0, 1, [⟨0, 32, .rw, false, 0x0, false⟩]⟩,
   ⟨0x58, 0, 1, [⟨0, 1, .ro, false, 0x0, false⟩, ⟨1, 1, .w1c, false, 0x0, false⟩, ⟨4, 6, .ro, false, 0x0, false⟩, ⟨16, 8, .ro, false, 0x0, false⟩, ⟨24, 1, .wo, false, 0x0, false⟩]⟩,
   ⟨0x60, 0, 1, [⟨0, 32, .ro, false, 0x0, false⟩]⟩,
   ⟨0x64, 0, 1, [⟨0, 32, .ro, false, 0x0, false⟩]⟩,
   ⟨0x68, 0, 1, [⟨0, 16, .ro, false, 0x0, false⟩, ⟨16, 1, .wo, false, 0x0, false⟩]⟩,
   ⟨0x6C, 0, 1, [⟨0, 32, .ro, false, 0x0, false⟩]⟩,
   ⟨0x100, 4, 64, [⟨0, 16, .ro, false, 0x0, false⟩]⟩
  ]
def rowsDBG : List RegRow :=
  [
   ⟨0x40, 0, 1, [⟨0, 1, .ro, false, 0x0, true⟩, ⟨4, 4, .ro, false, 0x0, true⟩, ⟨8, 8, .ro, false, 0x0, true⟩]⟩,
   ⟨0x44, 0, 1, [⟨0, 1, .wo, false, 0x0, false⟩, ⟨1, 1, .wo, false, 0x0, false⟩]⟩,
   ⟨0x48, 0, 1, [⟨0, 16, .rw, false, 0x0, true⟩]⟩,
   ⟨0x4C, 0, 1, [⟨0, 1, .rw, false, 0x0, false⟩]⟩,
   ⟨0x60, 4, 16, [⟨0, 32, .rw, false, 0x0, false⟩]⟩,
   ⟨0xA0, 4, 4, [⟨0, 32, .ro, false, 0x0, false⟩]⟩,
   ⟨0x100, 4, 64, [⟨0, 32, .ro, false, 0x0, true⟩]⟩
  ]

/-- The register table of a page kind (its block registers; the header is `rowsHDR`). -/
def rowsOf : PageKind → List RegRow
  | .hdr => rowsHDR
  | .sys => rowsSYS
  | .rst => rowsRST
  | .pwr => rowsPWR
  | .thm => rowsTHM
  | .sec => rowsSEC
  | .opt => rowsOPT
  | .mem => rowsMEM
  | .yrd => rowsYRD
  | .mgt => rowsMGT
  | .ftm => rowsFTM
  | .clk => rowsCLK
  | .scl => rowsSCL
  | .bia => rowsBIA
  | .prt => rowsPRT
  | .par => rowsPAR
  | .cas => rowsCAS
  | .std => rowsSTD
  | .core => rowsCORE
  | .ych => rowsYCH
  | .bf => rowsBF
  | .bfg => rowsBFG
  | .dpd => rowsDPD
  | .txc => rowsTXC
  | .rxc => rowsRXC
  | .lane => rowsLANE
  | .port => rowsPORT
  | .pnl => rowsPNL
  | .lnd => rowsLND
  | .dbg => rowsDBG

/-- The page kind and instance of page number n = (address − 0x4000_0000) / 0x1000 (R38). -/
def pageOfNumber (n : Nat) : Option (PageKind × Nat) :=
  if n = 0x0 then some (.sys, 0)
  else if n = 0x1 then some (.rst, 0)
  else if n = 0x2 then some (.pwr, 0)
  else if n = 0x3 then some (.thm, 0)
  else if n = 0x4 then some (.sec, 0)
  else if n = 0x5 then some (.opt, 0)
  else if n = 0x6 then some (.mem, 0)
  else if n = 0x7 then some (.yrd, 0)
  else if n = 0x8 then some (.mgt, 0)
  else if n = 0x9 then some (.ftm, 0)
  else if n = 0xA then some (.clk, 0)
  else if n = 0xB then some (.scl, 0)
  else if n = 0xC then some (.bia, 0)
  else if n = 0xD then some (.prt, 0)
  else if n = 0xE then some (.par, 0)
  else if n = 0xF then some (.cas, 0)
  else if 0x10 ≤ n ∧ n < 0x18 then some (.std, n - 0x10)
  else if 0x18 ≤ n ∧ n < 0x20 then some (.core, n - 0x18)
  else if 0x20 ≤ n ∧ n < 0x40 then some (.ych, n - 0x20)
  else if n = 0x40 then some (.bf, 0)
  else if 0x41 ≤ n ∧ n < 0x45 then some (.bfg, n - 0x41)
  else if 0x48 ≤ n ∧ n < 0x50 then some (.dpd, n - 0x48)
  else if n = 0x50 then some (.txc, 0)
  else if n = 0x51 then some (.rxc, 0)
  else if 0x58 ≤ n ∧ n < 0x68 then some (.lane, n - 0x58)
  else if 0x68 ≤ n ∧ n < 0x6C then some (.port, n - 0x68)
  else if n = 0x6C then some (.pnl, 0)
  else if n = 0x70 then some (.lnd, 0)
  else if n = 0x71 then some (.dbg, 0)
  else none

/-- The block type of R522: the page number of instance 0 of the kind. -/
def blockType : PageKind → Nat
  | .hdr => 0
  | .sys => 0x0
  | .rst => 0x1
  | .pwr => 0x2
  | .thm => 0x3
  | .sec => 0x4
  | .opt => 0x5
  | .mem => 0x6
  | .yrd => 0x7
  | .mgt => 0x8
  | .ftm => 0x9
  | .clk => 0xA
  | .scl => 0xB
  | .bia => 0xC
  | .prt => 0xD
  | .par => 0xE
  | .cas => 0xF
  | .std => 0x10
  | .core => 0x18
  | .ych => 0x20
  | .bf => 0x40
  | .bfg => 0x41
  | .dpd => 0x48
  | .txc => 0x50
  | .rxc => 0x51
  | .lane => 0x58
  | .port => 0x68
  | .pnl => 0x6C
  | .lnd => 0x70
  | .dbg => 0x71

end Sys2Proof.Machine
end

