-- ==== Sys2Proof/Config.lean ====
section
/-!
DEFINITION. What the spec leaves to the part or does not state: constants without a body, so that no proof can lean on a
value of them. Each is named in the assumption log.
-/
namespace Sys2Proof.Config

/-- A value the spec leaves open, drawn in order (log 20). -/
opaque freeWord : Nat → BitVec 32
/-- Bytes of the mask-programmed boot ROM (R414; log 21). -/
opaque bootRom : Nat → Byte
/-- The 8 KiB of option fuses as the OPT shadow holds them, the security region read as zeros (R459, R471; log 21). -/
opaque optShadow : List Byte
/-- Bytes of the external QSPI flash (R465, R468), which lies outside the device; log 21. -/
opaque flash : Nat → Byte
/-- Random words of the bit generator (R484; log 22): its n-th 32-bit output. -/
opaque randomWord : Nat → BitVec 32
/-- The manufacturer identity in bits 11 to 1 of the IDCODE word, which only the BSDL file gives (R497; log 10). -/
opaque jtagMaker : BitVec 11
/-- What the boundary cells hold after the n-th load of them through the port: n, number of the pin (R497; log 10). -/
opaque boundaryCell : Nat → (pin : Nat) → Bool
/-- Whether the average of the pair ALU rounds the half of an odd sum up (R365 states no rounding; log 25). -/
opaque averageUp : Int → Bool
/-- A shift of class M 0x7 by 32 or more (the spec states no result; log 25): operation, value, amount. -/
opaque wideShift : Nat → BitVec 32 → BitVec 32 → BitVec 32
/-- The oscillator ROM of both mixers (R98): cosine and sine at the top 20 bits of a phase, in units of 2^-30 (log 24). -/
opaque carrier : (phase : Nat) → Cx
/-- Taps of the fixed first decimator, newest code first: dividing by 4, and by 2 in half-rate mode (R14, R91; log 24). -/
opaque firstDecimator : (half : Bool) → List Int
/-- Taps of the preset filter of a slice at 1.96608 GSa/s, newest first: preset, rate code, direction (R120, R130; log 24). -/
opaque presetFilter : (preset rate : Nat) → (tx : Bool) → List Int
/-- Samples at the slice rate by which the first decimator, the preset filter and the bulk of the fractional delay lag behind the
newest ADC code together: preset, rate code, half-rate mode (R109, R133; log 24). -/
opaque receiveLag : (preset rate : Nat) → (half : Bool) → Nat
/-- Input samples by which the newest input of a transmit preset filter leads its output: preset, rate code (R177, R178; log 24). -/
opaque transmitLead : (preset rate : Nat) → Nat
/-- Taps of the fractional delay of a path at the slice rate, newest first: rate code, delay setting (R109; log 24). -/
opaque fractionalDelay : (rate : Nat) → (delay : Int) → List Int
/-- The cancellation pulse of crest-factor reduction (R183): preset, rate code, offset in samples (log 24). -/
opaque cfrPulse : (preset rate : Nat) → (offset : Int) → Int
/-- The rising raised-cosine edge window (R180): number of samples and position, Q1.15 (log 24). -/
opaque edgeWindow : (length position : Nat) → Int
/-- Taps of the final interpolator at converter rate, newest first, NRZ or mix mode: multiplying by 4, and by 2 in half-rate mode
(R15, R91, R103; log 24). -/
opaque finalInterpolator : (half mixMode : Bool) → List Int
/-- Taps of the calibration transmitter's interpolator at converter rate, newest first (R111; log 24). -/
opaque calInterpolator : (half : Bool) → List Int
/-- The reading of a temperature site whose two fused counts are equal: site, count (R257; log 107). -/
opaque thermFlat : (site count : Nat) → Int
/-- The parity check of the ROM of preset responses, at the n-th check of the device (R123; log 64): true where it fails. -/
opaque presetRomBad : Nat → Bool

end Sys2Proof.Config
end

