-- ==== Sys2Proof/Machine/Store.lean ====
section
/-!
DEFINITION. Sparse storage: a list of key and value pairs with strictly rising keys, in which no entry equals what an
unlisted key reads as. It holds the registers and every memory of R37, so that equal contents are equal data.
-/
namespace Sys2Proof.Machine

/-- Keys in rising order, each listed at most once. -/
abbrev Store (α : Type) := List (Nat × α)

/-- The entry at a key, if it is listed. -/
def Store.find? {α : Type} : Store α → Nat → Option α
  | [], _ => none
  | (k', v) :: t, k => if k = k' then some v else Store.find? t k

/-- The value at a key; `d` is what an unlisted key reads as. -/
def Store.get {α : Type} (m : Store α) (k : Nat) (d : α) : α :=
  match m.find? k with
  | some v => v
  | none => d

/-- Without the entry at a key. -/
def Store.del {α : Type} : Store α → Nat → Store α
  | [], _ => []
  | (k', v) :: t, k => if k = k' then Store.del t k else (k', v) :: Store.del t k

/-- With an entry put in order. -/
def Store.ins {α : Type} : Store α → Nat → α → Store α
  | [], k, v => [(k, v)]
  | (k', v') :: t, k, v => if k < k' then (k, v) :: (k', v') :: t else (k', v') :: Store.ins t k v

/-- Writes a value at a key whose unlisted value is `d`: the value `d` itself is not listed. -/
def Store.put {α : Type} [DecidableEq α] (m : Store α) (k : Nat) (v d : α) : Store α :=
  if v = d then m.del k else (m.del k).ins k v

/-- Every key listed at or above `lo` and strictly rising. -/
def Store.sortedFrom {α : Type} : Nat → Store α → Bool
  | _, [] => true
  | lo, (k, _) :: t => decide (lo ≤ k) && Store.sortedFrom (k + 1) t

/-- The canonical form: keys strictly rising, no entry equal to what its key reads as when unlisted. -/
def Store.wf {α : Type} [DecidableEq α] (dflt : Nat → α) (m : Store α) : Bool :=
  Store.sortedFrom 0 m && m.all fun e => decide (e.2 ≠ dflt e.1)

end Sys2Proof.Machine
end

