-- ==== Sys2Proof/Machine/State.lean ====
section
/-!
DEFINITION. The state of the CTU6400 block as plain data: the register words, every memory, and the state its blocks hold
beside their registers, one record per block; the queue of waiting commands; the state after reset.
-/
namespace Sys2Proof.Machine

/-- Why a step can stop with a fault. The meanings of this model fault nowhere: every case the spec describes is a next
state, and the one case it does not describe is a refusal. Nothing raises this constructor (safe). -/
inductive Fault where
  | none
  deriving DecidableEq, Repr

/-- Why a step can be refused. -/
inductive Refusal where
  /-- Raised by an arm of the dispatch whose command has no meaning yet (safe: the machine stops). -/
  | notModelled (mnemonic : String)
  /-- Raised by JTAG_INSTRUCTION for an opcode that R497 does not list while debug is not closed: the private test
  instructions, whose effect the spec does not give (safe: the machine stops where the part would go on). -/
  | privateTestInstruction
  deriving DecidableEq, Repr

/-- The answer to the last register or memory access (R39, R54, R58): its data, whether it was an error response, whether
that was "domain off", whether the word read carries the poison mark (R416), and whether its integrity check failed (R420). -/
structure Resp where
  data : Wide
  error : Bool
  domOff : Bool
  poison : Bool
  detect : Bool
  deriving DecidableEq, Repr

/-- One key slot of the OTP (R475): the burnt hash, permission and state bits. -/
structure KeySlot where
  hash : BitVec 256
  perm : BitVec 3
  enrolled : Bool
  revoked : Bool
  deriving DecidableEq, Repr

/-- The fuses (R33, R77, R257, R459, R471): ceilings and options fused at production, the security region, the two oscillator counts of
each temperature site and the two temperatures they were taken at, in 1/16 °C. -/
structure Otp where
  grade : Nat
  fecSafe : BitVec 32
  fecSafeOnWarm : BitVec 32
  safeRestGround : BitVec 16
  safeCeil : Store Nat
  srcMin : Store Nat
  envCeil : Nat
  backoff : Nat
  backoffDb : Nat
  rstOk : Bool
  dbgClosed : Bool
  slots : List KeySlot
  roll : BitVec 64
  idSeed : List Byte
  idPk : BitVec 256
  therm : List (Nat × Nat)
  thermT : Int × Int
  deriving DecidableEq, Repr

/-- A list of schedule entries with its frame length in BT (R62, R70). -/
structure SchedList where
  base : Nat
  count : Nat
  len : Nat
  deriving DecidableEq, Repr

/-- A schedule entry as it runs (R65 to R69): its place, its start in device-time BT, and what it carries. -/
structure Entry where
  list : SchedList
  pos : Nat
  frame : Nat
  frameBt : Nat
  startBt : Nat
  dir : Nat
  obs : Bool
  ctx : List Nat
  ev : BitVec 16
  slice : BitVec 4
  gate : BitVec 8
  fes : List Nat
  bad : Bool
  idle : Bool
  deriving DecidableEq, Repr

/-- A computed edge of an interval of an event line (R74, R75): line, instant in device-time BT, rising. -/
structure EvEdge where
  line : Nat
  bt : Int
  rise : Bool
  deriving DecidableEq, Repr

/-- A front-end serial transaction that is computed or runs (R80, R81): master, slot, start instant in device-time BT; once it runs
its bits and data, the SCK period in CT and SPI mode 3; the start of its entry. -/
structure FesJob where
  n : Nat
  slot : Nat
  bt : Int
  len : Nat
  data : Word
  sck : Nat
  mode3 : Bool
  entryBt : Nat
  deriving DecidableEq, Repr

/-- The frame timer beside its registers (R62 to R84): the lists of an accepted start, pending, under check, and taken from pending
by the fetch of a frame's first entry until that frame starts (R71); the running list and entry, the fetched entry, the frame before the
running one as its list and start; a stop with the frame it ends; the stands gated in the rest of an entry that an immediate stop has turned into a gap, with its end (R79);
the level at which CK of each serial master rests (R80, R463). -/
structure Timer where
  accepted : Option SchedList
  pending : Option SchedList
  checking : Option SchedList
  taken : Option SchedList
  running : Option SchedList
  cur : Option Entry
  fetched : Option Entry
  past : Option (SchedList × Nat)
  stopPending : Bool
  stopFrame : Nat
  gap : Option (BitVec 8 × Nat)
  prevEv : BitVec 16
  badEntries : List Nat
  edges : List EvEdge
  depth : Store Nat
  fesQueue : List FesJob
  fesBusy : List FesJob
  fesIdle : BitVec 3
  fecHold : BitVec 32
  fecLevel : BitVec 32
  fecPulldown : Bool
  tsyncOut : Bool
  deriving DecidableEq, Repr

/-- The sleep state of the device (R438). -/
inductive Sleep where | run | idle | rest | dormant
  deriving DecidableEq, Repr

/-- The participants of a sleep request (R441). -/
inductive Part where | port | std | bf | lnd | aux | core | cmem | fab | sec
  deriving DecidableEq, Repr

/-- Body bias and SRAM assist as applied (R431, R438): those of a level, or the reverse body bias of Rest. -/
inductive Assist where
  | level (l : Nat)
  | reverse
  deriving DecidableEq, Repr

/-- A single domain that `DOM_CTRL` asks to power down (R445): the domain, forced, a wake source has fired since. -/
structure OffReq where
  dom : Nat
  force : Bool
  woke : Bool
  deriving DecidableEq, Repr

/-- A running level change (R435 to R437): the level left, the level aimed at, failed and going back. -/
structure LevelChange where
  old : Nat
  target : Nat
  back : Bool
  deriving DecidableEq, Repr

/-- A running prepare (R441 to R444): target state, force, blocks to ask in order, cores that it halted; with nothing left to ask
the commit has started, and `wakes` are the wake sources that have fired in it. -/
structure Handshake where
  target : Nat
  force : Bool
  todo : List Part
  halted : BitVec 8
  wakes : List Nat
  deriving DecidableEq, Repr

/-- The power controller beside its registers (R429 to R448): domains on, waking and retained; the sleep state; the code that VID
steps to, with the start of its ramp on the model's clock and the codes stepped in it; the body bias and assist applied; the running level change, whether it has
failed back; the running prepare; a sleep request that waits for a level change (target, force); single domains to power
down; a wake source since a request or in a sleep state; the end of the exit from Idle in device-time BT; lanes taken to
Quiet by Idle; a running exit from Rest; cores that restart once their domain is ready; domains whose content Rest has lost; a pair enabled at the entry to a sleep
state; the VOK pin; rails outside their
windows. -/
structure Pwr where
  domOn : BitVec 27
  domWaking : BitVec 27
  domRetained : BitVec 27
  sleep : Sleep
  goal : Nat
  vidAt : Nat
  vidN : Nat
  assist : Assist
  change : Option LevelChange
  hand : Option Handshake
  waiting : Option (Nat × Bool)
  offTodo : List OffReq
  wakeSeen : Bool
  idleExitBt : Option Nat
  quieted : Bool
  restExit : Bool
  resume : BitVec 8
  lost : BitVec 27
  pairEn : Bool
  vok : Bool
  railsOut : List Rail
  deriving DecidableEq, Repr

/-- Where an image comes from (R465, R466): the retention SRAM, the primary or the backup image of the flash, the host. -/
inductive BootSrc where | retention | primary | backup | host
  deriving DecidableEq, Repr

/-- The boot controller (R465, R466): not started, checking an image at an address, waiting for a host, the same where the flash has
produced no verified image (R461; log 57), ended with an image accepted, held by BOOT = 11. -/
inductive Boot where
  | idle
  | checking (src : BootSrc) (base len : Nat)
  | waitHost
  | failed
  | done
  | halted
  deriving DecidableEq, Repr

/-- The reset controller beside its registers (R450 to R459): the `CAUSE` bits of the sources that assert now; whether the reset in
progress is warm, or an exit from Dormant; whether AON has been released since power-on; its source and when it acted; the domain to release next (0: AON, none: the sequence is
over); the last release on the model's clock; the option load; when VID went to 0 for a retry of R457; the deadline of the device
watchdog; the boot controller; the sampled straps and the strap pins. -/
structure Rst where
  held : List Nat
  warm : Bool
  dormant : Bool
  aonUp : Bool
  last : Nat
  lastAt : Nat
  measure : Bool
  next : Option Nat
  stepAt : Nat
  optLoading : Bool
  optLoaded : Bool
  optFault : Bool
  vidOff : Option Nat
  wdog : Option Nat
  frozeAt : Option Nat
  boot : Boot
  madr : BitVec 3
  madrPins : BitVec 3
  bootPins : BitVec 2
  deriving DecidableEq, Repr

/-- A command of the SEC page that runs (R476 to R482). -/
structure SecJob where
  id : ReqId
  op : Nat
  slot : Nat
  perm : Nat
  hash : BitVec 256
  addr : Nat
  time : Wide
  deriving DecidableEq, Repr

/-- The security block beside its registers (R476 to R484): the running command, the valid challenge with its requester and the instant
of its issue, the count of random words drawn, the rollback index of the image accepted at the last boot (R479), the instant of the last
health failure of the generator. -/
structure Sec where
  job : Option SecJob
  challenge : Option (ReqId × List Byte × Nat)
  drawn : Nat
  imgRoll : Option Nat
  rngFailAt : Option Nat
  deriving DecidableEq, Repr

/-- A result in flight (R374): bundles still to issue before it lands, and what it writes. -/
inductive Dest where
  | g (phys : Nat) (v : Word)
  | ac (n : Nat) (v : BitVec 80)
  | pd (n : Nat) (v : Bool)
  | ap (n : Nat) (v : Word)
  | mo (n : Nat) (v : Word)
  | cl (n : Nat) (v : Nat)
  | lc (l : Nat) (v : Nat)
  | lb (l : Nat) (v : Nat)
  | le (l : Nat) (v : Nat)
  | rb (v : Nat)
  | ipc (v : Nat)
  | ist (v : Word)
  deriving DecidableEq, Repr

/-- A result in flight: how many boundaries remain, where it goes, its poison (R374, R391). -/
structure Flight where
  left : Nat
  dest : Dest
  poison : Bool
  deriving DecidableEq, Repr

/-- What a core does (R393, R361, R363, R383). -/
inductive Mode where | halted | running | waiting | fencing | remote
  deriving DecidableEq, Repr

/-- One Renelo core (R367, R376 to R385). Poison bits are stored beside each register as 1 where set. -/
structure Core where
  mode : Mode
  g : Store Word
  gP : Store Bool
  ac : Store (BitVec 80)
  acP : Store Bool
  ap : Store Word
  apP : Store Bool
  mo : Store Word
  moP : Store Bool
  cl : Store Nat
  clP : Store Bool
  pd : BitVec 8
  pdP : BitVec 8
  lc : Nat × Nat
  lb : Nat × Nat
  le : Nat × Nat
  spP : Store Bool
  rb : Nat
  ipc : Nat
  ist : Word
  pc : Nat
  flights : List Flight
  branch : Option (Nat × Nat)
  di : Bool
  nmi : Bool
  haltReq : Bool
  stores : Nat
  lastAc : List (Nat × Nat × BitVec 80 × Bool)
  remote : Option BundleOps
  /-- The responses that the loads of the waiting bundle have had, in the order of the loads (R361). -/
  loaded : List (Option Resp)
  latched : BitVec 64
  wdog : Option Nat
  deriving DecidableEq, Repr

/-- A Yarder descriptor in progress (R398). -/
structure Desc where
  src : Nat
  dst : Nat
  len : Nat
  srcMode : Nat
  dstMode : Nat
  srcWrap : Nat
  dstWrap : Nat
  burst : Nat
  srcReq : Bool
  dstReq : Bool
  crcApp : Bool
  irq : Bool
  deriving DecidableEq, Repr

/-- A Yarder channel beside its registers (R403 to R411): `short` marks a burst in progress whose source has withdrawn its words,
`underrun` and `withdrawn` a descriptor that ends with 0x01 or 0x03 for it (R406); `stage` is the staging buffer: the words of the burst
read so far with their poison marks, `left` those still to read. -/
structure Chan where
  desc : Option Desc
  left : Nat
  moved : Nat
  done : Nat
  stage : List (Word × Bool)
  crc : BitVec 32
  refs : BitVec 27
  halted : Bool
  paused : Bool
  short : Bool
  underrun : Bool
  detect : Bool
  withdrawn : Bool
  abort : Bool
  disable : Bool
  deriving DecidableEq, Repr

/-- The state of a slice (R119, R123, R124): stopped, under its start check until a BT, armed for a start instant in CT or for
the next frame start, started at an instant. -/
inductive SlicePhase where
  | stopped
  | check (bt : Nat)
  | armed (at_ : Option Nat)
  | started (ct : Nat)
  deriving DecidableEq, Repr

/-- A slice of one direction: its state, a stop that waits for the next entry (R125), the words and filter it runs with. -/
structure Slice where
  phase : SlicePhase
  stopNext : Bool
  deriving DecidableEq, Repr

/-- A play of the calibration transmitter (R111 to R113): start, sequence, repetitions, attenuation, frequency word, samples whose
word failed its check, samples released, the last of them newest first. -/
structure CalPlay where
  startCt : Nat
  base : Nat
  len : Nat
  reps : Nat
  atten : Nat
  w : Nat
  bad : List Nat
  k : Nat
  hist : List Cx
  deriving DecidableEq, Repr

/-- Converters and stands beside their registers (R83, R89 to R113): clock loss in force, loss of VCNV_A or VCNV_B in force, active
equaliser taps and, with the instants at which they ended, those before them, last ungating of converters and early ungating by stand and kind, the play, a deficit and an integrity detection of its
gate in the symbol, DAC mode at enable, checks of the ROM of presets made (the model's own count). -/
structure Cnv where
  lost : Bool
  railLost : Bool
  eqAct : Store Word
  eqWas : List (Nat × Store Word)
  ungated : Store Nat
  early : BitVec 24
  play : Option CalPlay
  calLate : Bool
  calLost : Bool
  dacMix : BitVec 64
  romChecks : Nat
  deriving DecidableEq, Repr

/-- A weight context (R154, R165): open, and its row marks. -/
structure Ctx where
  isOpen : Bool
  marks : BitVec 64
  deriving DecidableEq, Repr

/-- What a group uses in one direction for an entry (R156, R159, R166): the selected context, the context in use, a whole-group
fallback for an open context, a substituted row, and the rows loaded. In antenna mode (R170) no context. -/
structure Sel where
  named : Option Nat
  used : Option Nat
  fbOpen : Bool
  sub : Bool
  rows : List (List Word)
  deriving DecidableEq, Repr

/-- A fallback buffer (R167): its context and all 64 rows. -/
structure FbBuf where
  ctx : Nat
  rows : List (List Word)
  deriving DecidableEq, Repr

/-- The beamformer beside its registers (R146 to R171): contexts, a running seal with its end in BT, the recompute queue, the
selections of the running and of the fetched entry and the fallback buffers (index 2 g, plus 1 for transmit), fallback changes
that wait with the BT they are ready at. -/
structure Bf where
  ctxs : List Ctx
  sealing : Option (Nat × Nat)
  rcmp : List Word
  cur : List (Option Sel)
  next : List (Option Sel)
  fb : List FbBuf
  fbNew : List (Option (Nat × FbBuf))
  deriving DecidableEq, Repr

/-- A running capture (R220 to R225): T_0 in CT, length in BT, mode, reference tap, observation delay, Landing offset, selected
blocks in order, whether the thermal states have been written. -/
structure Capture where
  t0 : Nat
  len : Nat
  mode : Nat
  ref : Nat
  obs : Int
  base : Nat
  blocks : List Nat
  theta : Bool
  deriving DecidableEq, Repr

/-- A level monitor's sums over an entry (R137). -/
structure Lvl where
  sum : Nat
  n : Nat
  peak : Nat
  deriving DecidableEq, Repr

/-- The receive chain of one path (R14, R120, R137, R141): inputs of the first decimator with the mixer phase, inputs of the slice
filters, equalisers and fractional delays (newest first), the monitors by the start of the entry, overrange samples in the symbol and
the instant of the last one; with the instants at which they ended, newest first, the gain-step factors before the active one, the enables
of the ADC and the values of `PATH_DLY` before the present ones. -/
structure RxPath where
  dec : List (Int × Nat)
  flt : List (List Cx)
  eqh : List (List Cx)
  fdh : List (List Cx)
  wb : Store Lvl
  sl : Store Lvl
  ovr : Nat
  hot : Option Nat
  gold : List (Nat × Word × Nat)
  adcWas : List (Nat × Bool)
  dlyWas : List (Nat × Nat)
  deriving DecidableEq, Repr

/-- An uplink symbol of a group (R143, R144): its entry's start and, once known, end; slice, ports and shift in force, rows, cause
code, the instant from which it holds zeros, the instants in CT from which status bits 4 to 6 hold, status bits 7 and 8. -/
structure RxSym where
  g : Nat
  startBt : Nat
  endBt : Option Nat
  slice : Nat
  rate : Nat
  ports : Nat
  shift : Nat
  sel : Sel
  ant : Bool
  cause : Nat
  zeroFrom : Option Nat
  ovr : Option Nat
  satd : Option Nat
  gstep : Option Nat
  excl : Bool
  fbRow : Bool
  deriving DecidableEq, Repr

/-- An entry as the receive chain sees it (R121, R127, R137): its start and, once known, end in BT, the slices that deliver samples in it,
the stands its gate bits gate. -/
structure RxWin where
  startBt : Nat
  endBt : Option Nat
  slices : BitVec 4
  gate : BitVec 8
  deriving DecidableEq, Repr

/-- A run of a receive slice that has been stopped at an entry start: its start, preset, rate code and the step of its NCO by stand. The samples
taken before the stop still come out of its filters (R121). -/
structure RxRun where
  startCt : Nat
  preset : Nat
  rate : Nat
  step : List Nat
  deriving DecidableEq, Repr

/-- The receive chain beside its registers: paths, observation decimators with their overrange counts and last overrange instants,
gain-stage outputs by (instant, slice, path), symbols, the recent entries, entries over whose monitor readings wait for their update,
the last instant of each slice whose sums have been counted, a latched gain step with its instant, stopped slices whose last samples are
on their way with the instant of the stop. -/
structure Rx where
  paths : List RxPath
  obsDec : List (List (Int × Nat))
  obsOvr : List Nat
  obsHot : List (Option Nat)
  buf : Store Word
  syms : List RxSym
  wins : List RxWin
  lvlWait : List Nat
  sumAt : List Nat
  gstep : Option (Nat × List (Nat × Word × Nat))
  tails : List (Option (Nat × RxRun))
  deriving DecidableEq, Repr

/-- A sample on its way through a DAC gate (R18, R22): its release instant in CT and the delay line of predistortion at it, the
sample itself first. The model applies predistortion and the envelope limiter as the gate releases it (log 94). -/
structure GateSmp where
  ct : Nat
  dl : List Cx
  deriving DecidableEq, Repr

/-- A sample in the window of a stage of crest-factor reduction (R182): input, corrected output, and what holds for the sample's
entry: the threshold, the enabled stages, the bypass of the path. -/
structure CfrSmp where
  u : Cx
  y : Cx
  a : Nat
  stages : Nat
  byp : Bool
  deriving DecidableEq, Repr

/-- A stage of crest-factor reduction in a run (R182): samples taken, and its window, oldest first. -/
structure CfrStage where
  n : Nat
  win : List CfrSmp
  deriving DecidableEq, Repr

/-- What one started slice gives to the kernel of crest-factor reduction (R183): preset, rate code, offset word from the transmit
centre, gain. -/
structure KernelPart where
  preset : Nat
  rate : Nat
  offset : Nat
  gain : Nat
  deriving DecidableEq, Repr

/-- A mute ramp (R189, R190): down or up, the instant at which it starts, its length in samples. -/
structure Ramp where
  down : Bool
  start : Nat
  len : Nat
  deriving DecidableEq, Repr

/-- The transmit chain of a path as it stood before the first sample of a fetched entry was formed (R29, R63). -/
structure TxUndo where
  inN : Nat
  outN : Nat
  cfr : List CfrStage
  raw : List CfrSmp
  dl : List Cx
  deriving DecidableEq, Repr

/-- The transmit chain of one path (R15, R179 to R190): the run's first instant, samples taken and given out in it, its length once
known, slice filter inputs by their instants, reduction stages, the DAC gate, the last inputs of the final interpolator newest first,
the instant of the newest of them, the instant of the last release with its converter codes, a mute ramp, a rate deficit and an integrity detection in the symbol, the
combined samples not yet through reduction, the instant before which samples of a deficient symbol are discarded (R24), the chain before the
first sample formed for the fetched entry. -/
structure TxPath where
  runCt : Nat
  inN : Nat
  outN : Nat
  endN : Option Nat
  active : Bool
  flt : List (Store Cx)
  cfr : List CfrStage
  gate : List GateSmp
  hist : List Cx
  histCt : Nat
  dac : Option (Nat × List Nat)
  ramp : Option Ramp
  deficit : Bool
  lost : Bool
  raw : List CfrSmp
  dropTo : Nat
  undo : Option TxUndo
  deriving DecidableEq, Repr

/-- A downlink symbol of a group (R192 to R194): the flows that contribute, and those of them whose staging failed with the first
affected sample; whether its slice was not started at the entry start. -/
structure TxSym where
  g : Nat
  startBt : Nat
  slice : Nat
  rate : Nat
  sel : Sel
  ant : Bool
  cause : Nat
  flows : List Nat
  bad : List (Nat × Nat)
  unstarted : Bool
  checked : Bool
  muted : Bool
  satd : Bool
  limited : Bool
  excl : Bool
  fbRow : Bool
  flag : Bool
  deriving DecidableEq, Repr

/-- The transmit chain beside its registers: paths, symbols of the running and the fetched entry, effective mutes, the edge
window of the run, the kernel of crest-factor reduction by stand (R183), the instant at which it was formed and the one before it, the
device time of the first late sample of the recorded deficit (R26), a mute of the whole device in force (R188). -/
structure Tx where
  paths : List TxPath
  syms : List TxSym
  muted : BitVec 64
  runRamp : Nat
  kernel : List (List KernelPart)
  kernelCt : Nat
  kernelOld : List (List KernelPart)
  defAt : Nat
  devMuted : Bool
  deriving DecidableEq, Repr

/-- A swap request (R206 to R208): target bank, fade length, held as pending or scheduled, the first instant in CT at which a pending one
may start, loaded. -/
structure Swap where
  target : Nat
  len : Nat
  pending : Bool
  dueCt : Nat
  loaded : Bool
  deriving DecidableEq, Repr

/-- A fade (R207): target, length, samples passed before the present run, the instant from which it counts in it. -/
structure Fade where
  target : Nat
  len : Nat
  k : Nat
  from_ : Option Nat
  deriving DecidableEq, Repr

/-- Predistortion of one path (R196 to R216): active bank, fade, held request, integrity bypass, marks, working sets of banks A and
B, the delay line, and the thermal state at past instants with the K of its decay, newest first. -/
structure DpdPath where
  active : Nat
  fade : Option Fade
  held : Option Swap
  ibyp : Bool
  markA : Bool
  markB : Bool
  workA : List Cx
  workB : List Cx
  dl : List Cx
  theta : List (Int × Nat × Nat)
  deriving DecidableEq, Repr

/-- A flow table entry as its words 0 to 3 describe it (R304); `blocks` is the number of blocks per port and packet. -/
structure FlowCfg where
  fid : Nat
  ty : Nat
  port : Nat
  egress : Bool
  fmt : Nat
  bad : Bool
  en : Bool
  v0 : Nat
  np : Nat
  g : Nat
  blocks : Nat
  rep : Bool
  repQ : Nat
  used : Bool
  arg : Nat
  win : Nat
  slots : Nat
  deriving DecidableEq, Repr

/-- A staged downlink or combine packet (R318): flow entry, its first local port, blocks per port and group, low 32 bits of its
symbol time, decoded samples per port, its flags, a block beyond its format's exponents (R339), arrival instant in CT, its flow disabled since (R305). -/
structure Staged where
  idx : Nat
  v0 : Nat
  blocks : Nat
  g : Nat
  combine : Bool
  symtime : Nat
  smp : List (List Cx)
  flags : Nat
  above : Bool
  at_ : Nat
  off : Bool
  deriving DecidableEq, Repr

/-- An egress sample or combine flow in one symbol (R135, R316): flow entry, its configuration, symbol start, the next packet's number,
cause code and flag bits of the combine instants so far (R342), the sample from which a deficit of its gate or a detection makes the
combined symbol zero (R144), the down ports counted for a staging detection (R421). -/
structure EgSym where
  idx : Nat
  cfg : FlowCfg
  startBt : Nat
  next : Nat
  cause : Nat
  bits : Nat
  zero : Option Nat
  det : BitVec 4
  deriving DecidableEq, Repr

/-- An uplink symbol at an egress gate that has failed there (R26, R421): port, start, a deficit, an integrity detection. -/
structure GateSym where
  q : Nat
  startBt : Nat
  late : Bool
  lost : Bool
  deriving DecidableEq, Repr

/-- A packet that waits to leave: flow entry, fields of its header, payload, ready instant in CT; the start of its symbol for one that
was made at a combine instant. -/
structure OutPkt where
  idx : Nat
  fid : Nat
  ty : Nat
  seq : Option Nat
  symtime : Option Nat
  hop : Nat
  fmt : Nat
  flags : Nat
  payload : List Byte
  ready : Nat
  start : Option Nat
  deriving DecidableEq, Repr

/-- The link beside its registers and memories (R301 to R346): allocated entries, symbols in egress, those that have failed at a gate,
packets made at combine instants and others that wait per port, last packet handed to each port's lanes, CTRL and DIAG buffers by flow entry, a running flow command
and its end on the model's clock, the management session and challenge (flow entry, bytes, instant), an accepted link reset (entry of its
responses, the instant on the model's clock at which it begins), ring switches. -/
structure Link where
  alloc : List Nat
  prog : List EgSym
  gateSyms : List GateSym
  sums : List OutPkt
  out : List (List OutPkt)
  sent : List (List Byte)
  rxBuf : List (Nat × List Byte)
  txBuf : List (Nat × List Byte)
  cmd : Option (Word × Nat)
  session : Option Nat
  chal : Option (Nat × List Byte × Nat)
  resetAt : Option (Nat × Nat)
  downNext : Option Nat
  deriving DecidableEq, Repr

/-- A span change of a bias channel (R234): the new mode and span; slewing to rest, settling for a number of AUX ticks, slewing to
the target. -/
structure SpanChange where
  mode : Nat
  span : Nat
  stage : Nat
  left : Nat
  deriving DecidableEq, Repr

/-- A bias channel beside its registers (R232, R234). -/
structure BiasCh where
  cnt : Nat
  change : Option SpanChange
  deriving DecidableEq, Repr

/-- A queued injected request of the Scaler (R244): trigger, due instant in BT, channel, range, samples, tag. -/
structure SclReq where
  n : Nat
  due : Nat
  ch : Nat
  range : Nat
  avg : Nat
  tag : Nat
  deriving DecidableEq, Repr

/-- A conversion of the Scaler in progress (R241): an injected request or a regular entry, samples done and their sum, the sampling
instants of its first and its present sample in hundredths of a CT. -/
structure SclConv where
  inj : Option SclReq
  got : Nat
  sum : Nat
  t0 : Nat
  t : Nat
  deriving DecidableEq, Repr

/-- A converter of the Scaler beside its registers (R240 to R248): injected queue, conversion in progress, result FIFO, pass number
and its start in CT (plus one), regular entry to convert, whether the sequence waits for an empty queue, end of the
last conversion in hundredths of a CT, calibration pending (1) or running (2) with its end in hundredths of a CT, and the instant from
which the read-back taps may be sampled (R488). -/
structure SclCh where
  queue : List SclReq
  conv : Option SclConv
  fifo : List Word
  pass : Nat
  passT : Nat
  pos : Option Nat
  waits : Bool
  idle : Nat
  cal : Nat
  calEnd : Nat
  rbFrom : Nat
  deriving DecidableEq, Repr

/-- A packet on its way out of a port (R279): its flow entry where it has one, the number of its start column among the free columns,
its bytes, whether an abort ends it. -/
structure Flying where
  idx : Option Nat
  slot : Nat
  bytes : List Byte
  cut : Bool
  deriving DecidableEq, Repr

/-- A port beside its registers (R279, R281, R289 to R296): the start of its training on the model's clock, and on that clock the instants at
which its transmitters begin TS1, TS2 and the alignment columns; the device time in CT from which it is Active; the start of column 0,
as device time in CT times the lane rate in 100 kBd; the free column after the last sample packet and after the last packet of another kind, the column up to which its transmitters have been followed, packets
not wholly followed, the free column at which a quiet notice starts, that after an abort. -/
structure PortSt where
  train : Nat
  ts1 : Nat
  ts2 : Nat
  align : Nat
  up : Int
  org : Int
  slot : Nat
  other : Nat
  col : Nat
  flight : List Flying
  notice : Option Nat
  cut : Option Nat
  deriving DecidableEq, Repr

/-- A lane beside its registers (R275, R280, R295): the alignment cycle last looked at and its code violations, the transmitter's running
disparity at the column up to which its port has been followed (true: positive), commas received toward alignment and the 10-bit boundary
they stand at. -/
structure LaneSt where
  cycle : Nat
  viol : Nat
  rd : Bool
  commas : Nat
  bnd : Nat
  deriving DecidableEq, Repr

/-- One lane of a PRBS engine (R297, R298): bit errors, bits checked up to an instant of the model's clock, the positions of the last
errors; bits generated up to an instant of the model's clock, the positions of inverted bits. -/
structure PrbsLane where
  err : Nat
  bits : Nat
  at_ : Nat
  marks : List Nat
  gen : Nat
  genAt : Nat
  inj : List Nat
  deriving DecidableEq, Repr

/-- The thermal block beside its registers (R257 to R272): reading updates made, consecutive deviant readings per site, past values
of the 14 rate-of-rise entries (newest first), the latest result of each Scaler channel with the update count it came at,
consecutive updates at the hold temperature, consecutive cool windows of the hold. -/
structure Thm where
  n : Nat
  cnt : List Nat
  hist : List (List Int)
  val : Store (Nat × Nat)
  above : Nat
  under : Nat
  deriving DecidableEq, Repr

/-- A takeover in progress (R354), with the instant of the model's clock at which its present wait started. -/
inductive Take where
  | idle
  | waitLow (since : Nat)
  | guard (since : Nat)
  | settle (since : Nat)
  deriving DecidableEq, Repr

/-- The pair engine beside its registers (R347 to R356): the mute and high impedance of a standby, mastership lost (R355), the reset pulse to the partner
(R354) with its start, the takeover, dirty granules with the instant they became so, next granule of the initial pass and the
instant of the last paced send, granules not yet acknowledged with the instant of sending, those of the initial pass, the state record last sent;
on a standby the image granules received (words with marks), words held for a retry, a state record held for a retry;
the last heartbeat received and sent and the start of the heartbeat window, in device-time BT. -/
structure Pair where
  mute : Bool
  hiz : Bool
  lost : Bool
  peerRst : Option Nat
  take : Take
  dirty : Store Nat
  pass : Option Nat
  passAt : Nat
  unacked : Store Nat
  passAck : List Nat
  recSent : Option (BitVec 160 × BitVec 64)
  image : List (Nat × List (Word × Nat))
  hold : List (Nat × Wide × Nat)
  recWant : Option (BitVec 160 × BitVec 64)
  hbRx : Option Nat
  hbTx : Nat
  hbWin : Nat
  deriving DecidableEq, Repr

/-- The management port (R55 to R61): a frame whose accesses are being performed (reply wanted, reads, accesses left, words read,
error responses), accesses of earlier frames that come first, whether the device drives MDO, the bytes it has driven in the last frame
from the first wait byte to the frame's end (R56, R58), frames held while the device sleeps, the last of them still on the port. -/
structure Mgt where
  before : List Access
  busy : Bool
  reply : Bool
  read : Bool
  todo : List Access
  words : List Word
  err : Bool
  domOff : Bool
  mdo : Bool
  out : List Byte
  held : List (List Byte)
  live : Bool
  deriving DecidableEq, Repr

/-- The Cruiser beside its registers (R422, R424): the instant of its last read on the model's clock, the `CRU_MASK` of the pass, and
the part of the walk and the address it stands at; no pass started. -/
structure Cru where
  last : Nat
  walk : Option (Word × Nat × Nat)
  deriving DecidableEq, Repr

/-- A step of a management request (R324, R325): the head of an operation, one access of it, or an operation without accesses: the
challenge, an authenticate with its body, a close, a warm reset with its body, a refused or a malformed operation. -/
inductive MStep where
  | head (bytes : List Byte)
  | acc (a : Access)
  | challenge
  | auth (body : List Byte)
  | close
  | reset (body : List Byte)
  | refused
  | malformed
  deriving DecidableEq, Repr

/-- A management request being performed (R324, R325): its ingress entry, steps left, records made, status and data of the record in
progress, a reset accepted. -/
structure MgmtJob where
  idx : Nat
  todo : List MStep
  recs : List (List Byte)
  head : List Byte
  status : BitVec 8
  data : List Byte
  reset : Bool
  deriving DecidableEq, Repr


/-- The state of the block. -/
structure State where
  /-- Commands that wait, the next one first. -/
  pending : List Instr
  /-- Converter ticks since the model's start (R3); it runs on where device time stops. -/
  now : Nat
  /-- Device time in CT (R4). -/
  dev : Wide
  /-- REFCLK present (R458). -/
  refclk : Bool
  /-- Every register word, by absolute address; an unlisted word reads as its cold value. -/
  regs : Store Word
  /-- Every memory byte of R37, by absolute address. -/
  mem : Store Byte
  /-- Words that do not hold what was written: by word address, the upset (R415, R420, R425). -/
  upsets : Store Upset
  /-- SECDED words that are poison-marked (R416), by 64-bit word address. -/
  poison : Store Bool
  otp : Otp
  /-- How many free values have been drawn (the model's own field). -/
  drawn : Nat
  /-- Read shadows and write stages of wide values, by requester ID (R45). -/
  shadow : Store Word
  stage : Store Word
  /-- The answer to the last access. -/
  resp : Resp
  /-- An error has been logged since a requester last cleared this mark (the model's own field, for R408 and R352). -/
  logged : Bool
  /-- Accesses that wait for a domain, in arrival order (R54). -/
  stalled : List Access
  gpioPins : BitVec 16
  timer : Timer
  pwr : Pwr
  rst : Rst
  sec : Sec
  cores : List Core
  cru : Cru
  /-- Management requests, the one in progress first. -/
  mgmt : List MgmtJob
  /-- The last writer of `IRQN_SEL_n_w` (R489). -/
  irqnWriter : List ReqId
  /-- A domain whose wake has just failed: accesses that wait for it end (R54). -/
  timedOut : Option Nat
  portSt : List PortSt
  laneSt : List LaneSt
  prbsSt : List (List PrbsLane)
  thm : Thm
  mgt : Mgt
  /-- The boundary-scan instruction in force (R497, R498). -/
  jtag : JtagOp
  /-- Loads of the boundary cells through the port, of which the last stands in them (R497; the model's own count). -/
  cells : Nat
  scl : List SclCh
  link : Link
  bias : List BiasCh
  /-- The last AUX tick (R232). -/
  auxTick : Nat
  /-- The failing paths of protection sources 16 to 23 (R249). -/
  prtPaths : Store Nat
  pair : Pair
  tx : Tx
  dpd : List DpdPath
  /-- Reload queues of the eight stands (R215). -/
  reload : List (List Word)
  /-- The link staging memory (R318). -/
  staged : List Staged
  capture : Option Capture
  rx : Rx
  bf : Bf
  cnv : Cnv
  rxSlices : List Slice
  txSlices : List Slice
  /-- Values in force of settings that change at an entry start (R520), by register address; unlisted: the Cold value. -/
  eff : Store Word
  chans : List Chan
  /-- The channel served last at each priority (R405). -/
  yLast : List Nat
  deriving DecidableEq, Repr

/-- A core after reset (R393): halted, every register and poison bit clear. -/
def Core.reset : Core where
  mode := .halted
  g := []
  gP := []
  ac := []
  acP := []
  ap := []
  apP := []
  mo := []
  moP := []
  cl := []
  clP := []
  pd := 0
  pdP := 0
  lc := (0, 0)
  lb := (0, 0)
  le := (0, 0)
  spP := []
  rb := 0
  ipc := 0
  ist := 0
  pc := 0
  flights := []
  branch := none
  di := false
  nmi := false
  haltReq := false
  stores := 0
  lastAc := []
  remote := none
  loaded := []
  latched := 0
  wdog := none

/-- The frame timer after reset (R87). FEC pins hold their pull-downs until the option load has completed (R78). -/
def Timer.reset : Timer where
  accepted := none
  pending := none
  checking := none
  taken := none
  running := none
  cur := none
  fetched := none
  past := none
  stopPending := false
  stopFrame := 0
  gap := none
  prevEv := 0
  badEntries := []
  edges := []
  depth := []
  fesQueue := []
  fesBusy := []
  fesIdle := 0
  fecHold := 0
  fecLevel := 0
  fecPulldown := false
  tsyncOut := false

/-- The power controller after reset (R449): every domain on (the Cold value of `DOM_ON`), level PL2. -/
def Pwr.reset : Pwr where
  domOn := 0x7FFFFFF#27
  domWaking := 0
  domRetained := 0
  sleep := .run
  goal := 0x5A
  vidAt := 0
  vidN := 0
  assist := .level 2
  change := none
  hand := none
  waiting := none
  offTodo := []
  wakeSeen := false
  idleExitBt := none
  quieted := false
  restExit := false
  resume := 0
  lost := 0
  pairEn := false
  vok := false
  railsOut := []

/-- The reset controller at the end of a release: the boot controller has not started (R455, R465). -/
def Rst.reset : Rst where
  held := []
  warm := false
  dormant := false
  aonUp := true
  last := 0
  lastAt := 0
  measure := true
  next := none
  stepAt := 0
  optLoading := false
  optLoaded := true
  optFault := false
  vidOff := none
  wdog := none
  frozeAt := none
  boot := .idle
  madr := 0
  madrPins := 0
  bootPins := 0

/-- The security block after reset (R485). -/
def Sec.reset : Sec where
  job := none
  challenge := none
  drawn := 0
  imgRoll := none
  rngFailAt := none

/-- The fuses of the part the model runs on (log 3): grade AX, every fused level low, no key enrolled. -/
def Otp.reset : Otp where
  grade := 0
  fecSafe := 0
  fecSafeOnWarm := 0
  safeRestGround := 0
  safeCeil := []
  srcMin := []
  envCeil := 0x7FFF
  backoff := 0x5A9E
  backoffDb := 6
  rstOk := true
  dbgClosed := false
  slots := List.replicate 4 ⟨0, 0, false, false⟩
  roll := 0
  idSeed := List.replicate 48 0
  idPk := 0
  therm := List.replicate 40 (0x8000, 0x8640)
  thermT := (0, 1600)

/-- A Yarder channel after reset (R411). -/
def Chan.reset : Chan where
  desc := none
  left := 0
  moved := 0
  done := 0
  stage := []
  crc := 0xFFFFFFFF
  refs := 0
  halted := false
  paused := false
  underrun := false
  detect := false
  short := false
  withdrawn := false
  abort := false
  disable := false

/-- A slice after reset. -/
def Slice.reset : Slice where
  phase := .stopped
  stopNext := false

/-- Converters after reset. -/
def Cnv.reset : Cnv where
  lost := false
  railLost := false
  eqAct := []
  eqWas := []
  ungated := []
  early := 0
  play := none
  calLate := false
  calLost := false
  dacMix := 0
  romChecks := 0

/-- The beamformer after reset (R155): every context sealed without a mark; the fallback buffers of context 0 hold zeros. -/
def Bf.reset : Bf where
  ctxs := List.replicate 160 ⟨false, 0⟩
  sealing := none
  rcmp := []
  cur := List.replicate 8 none
  next := List.replicate 8 none
  fb := List.replicate 8 ⟨0, []⟩
  fbNew := List.replicate 8 none

/-- A receive path after reset. -/
def RxPath.reset : RxPath where
  dec := []
  flt := [[], [], [], []]
  eqh := [[], [], [], []]
  fdh := [[], [], [], []]
  wb := []
  sl := []
  ovr := 0
  hot := none
  gold := []
  adcWas := []
  dlyWas := []

/-- The receive chain after reset. -/
def Rx.reset : Rx where
  paths := List.replicate 64 RxPath.reset
  obsDec := List.replicate 8 []
  obsOvr := List.replicate 8 0
  obsHot := List.replicate 8 none
  buf := []
  syms := []
  wins := []
  lvlWait := []
  sumAt := List.replicate 4 0
  gstep := none
  tails := [none, none, none, none]

/-- A transmit path after reset. -/
def TxPath.reset : TxPath where
  runCt := 0
  inN := 0
  outN := 0
  endN := none
  active := false
  flt := [[], [], [], []]
  cfr := []
  gate := []
  hist := []
  histCt := 0
  dac := none
  ramp := none
  deficit := false
  lost := false
  raw := []
  dropTo := 0
  undo := none

/-- The transmit chain after reset: every path muted (R191). -/
def Tx.reset : Tx where
  paths := List.replicate 64 TxPath.reset
  syms := []
  muted := 0xFFFFFFFFFFFFFFFF
  runRamp := 0
  kernel := []
  kernelCt := 0
  kernelOld := []
  defAt := 0
  devMuted := true

/-- Predistortion of a path after reset (R204). -/
def DpdPath.reset : DpdPath where
  active := 0
  fade := none
  held := none
  ibyp := false
  markA := false
  markB := false
  workA := []
  workB := []
  dl := []
  theta := []

/-- The pair engine after reset: no pair. -/
def Pair.reset : Pair where
  mute := false
  hiz := false
  lost := false
  peerRst := none
  take := .idle
  dirty := []
  pass := none
  passAt := 0
  unacked := []
  passAck := []
  recSent := none
  image := []
  hold := []
  recWant := none
  hbRx := none
  hbTx := 0
  hbWin := 0

/-- The link after reset (R307). -/
def Link.reset : Link where
  alloc := []
  prog := []
  gateSyms := []
  sums := []
  out := [[], [], [], []]
  sent := [[], [], [], []]
  rxBuf := []
  txBuf := []
  cmd := none
  session := none
  chal := none
  resetAt := none
  downNext := none

/-- A converter of the Scaler after reset. -/
def SclCh.reset : SclCh where
  queue := []
  conv := none
  fifo := []
  pass := 0
  passT := 0
  pos := none
  waits := false
  idle := 0
  cal := 0
  calEnd := 0
  rbFrom := 0

/-- A port after reset: nothing sent. -/
def PortSt.reset : PortSt where
  train := 0
  ts1 := 0
  ts2 := 0
  align := 0
  up := 0
  org := 0
  slot := 0
  other := 0
  col := 0
  flight := []
  notice := none
  cut := none

/-- A lane after reset. -/
def LaneSt.reset : LaneSt where
  cycle := 0
  viol := 0
  rd := false
  commas := 0
  bnd := 0

/-- A lane of a PRBS engine with nothing counted. -/
def PrbsLane.reset : PrbsLane where
  err := 0
  bits := 0
  at_ := 0
  marks := []
  gen := 0
  genAt := 0
  inj := []

/-- The thermal block after reset. -/
def Thm.reset : Thm where
  n := 0
  cnt := List.replicate 40 0
  hist := List.replicate 14 []
  val := []
  above := 0
  under := 0

/-- The management port with no frame. -/
def Mgt.reset : Mgt where
  before := []
  busy := false
  reply := false
  read := false
  todo := []
  words := []
  err := false
  domOff := false
  mdo := false
  out := []
  held := []
  live := false

/-- The block right after reset: every register at its Cold value, every memory with nothing listed, no command waiting. -/
def State.reset : State where
  pending := []
  now := 0
  dev := 0
  refclk := true
  regs := []
  mem := []
  upsets := []
  poison := []
  otp := Otp.reset
  drawn := 0
  shadow := []
  stage := []
  resp := ⟨0, false, false, false, false⟩
  logged := false
  stalled := []
  gpioPins := 0
  timer := Timer.reset
  pwr := Pwr.reset
  rst := Rst.reset
  sec := Sec.reset
  cores := List.replicate 8 Core.reset
  cru := ⟨0, none⟩
  mgmt := []
  irqnWriter := [0, 0, 0, 0]
  timedOut := none
  portSt := List.replicate 4 PortSt.reset
  laneSt := List.replicate 16 LaneSt.reset
  prbsSt := List.replicate 4 (List.replicate 16 PrbsLane.reset)
  thm := Thm.reset
  mgt := Mgt.reset
  jtag := .bypass
  cells := 0
  scl := [SclCh.reset, SclCh.reset]
  link := Link.reset
  bias := List.replicate 96 ⟨0, none⟩
  auxTick := 0
  prtPaths := []
  pair := Pair.reset
  tx := Tx.reset
  dpd := List.replicate 64 DpdPath.reset
  reload := List.replicate 8 []
  staged := []
  capture := none
  rx := Rx.reset
  bf := Bf.reset
  cnv := Cnv.reset
  rxSlices := List.replicate 4 Slice.reset
  txSlices := List.replicate 4 Slice.reset
  eff := []
  chans := List.replicate 32 Chan.reset
  yLast := List.replicate 8 0

end Sys2Proof.Machine
end

