-- ==== Sys2Proof/Machine/Cold.lean ====
section
/-!
DEFINITION. Reset values of registers: the Cold and Warm columns of the register tables, with the values that are fused,
fixed or per instance; and what the bytes of a memory that nothing has written read as.
-/
namespace Sys2Proof.Machine

/-- Bits [lo + w − 1 : lo] of a number. -/
def bitsOf (v lo w : Nat) : Nat := v / 2 ^ lo % 2 ^ w

/-- A number with bits [lo + w − 1 : lo] replaced. -/
def setBits (v lo w x : Nat) : Nat := v % 2 ^ lo + 2 ^ lo * (x % 2 ^ w) + 2 ^ (lo + w) * (v / 2 ^ (lo + w))

/-- The least action of protection source n (R249, R251): fused for sources 0 to 23, notify for 24, fixed for 25 to 27 (log 3). -/
def Otp.minAct (o : Otp) (n : Nat) : Nat :=
  if n < 24 then o.srcMin.get n 1 else if n = 24 then 8 else if n = 25 then 15 else 11

/-- The fused code ceiling of safe-bank channel 80 + i (R238, log 3). -/
def Otp.ceil (o : Otp) (i : Nat) : Nat := o.safeCeil.get i 0xFFFF

/-- The fused thermal ceiling in 1/16 °C: grade maximum + 5 °C (R33, R256). -/
def Otp.thermCeil (o : Otp) : Nat := if o.grade = 0 then 1840 else 2080

/-- The Cold value of one field (Cold column), with the values that are fused, fixed or differ by instance. -/
def coldField (o : Otp) (k : PageKind) (n off : Nat) (f : FldRow) : Nat :=
  match k with
  | .rst => if off = 0x40 ∧ f.lo = 0 then 1 else if off = 0x48 then 0x20 else f.cold
  | .std => if 0x800 ≤ off ∧ f.lo = 0 ∧ (off - 0x800) / 4 % 16 = 7 then 0x4000 else f.cold
  | .rxc =>
    if f.lo = 0 ∧ ((0x200 ≤ off ∧ off < 0x400 ∧ off % 8 = 0) ∨ (0x400 ≤ off ∧ off < 0x500)) then 0x4000 else f.cold
  | .txc => if 0x100 ≤ off ∧ off < 0x200 ∧ f.lo = 0 then o.envCeil else f.cold
  | .dpd => if (off = 0x100 ∨ off = 0x200) ∧ f.lo = 8 then 1 else f.cold
  | .bia =>
    if 0x100 ≤ off ∧ off < 0x700 then
      let j := (off - 0x100) / 16
      let r := (off - 0x100) % 16
      if j < 80 then (if (r = 4 ∨ r = 8) ∧ f.lo = 0 then 0x8000 else f.cold)
      else if r = 0 ∧ f.lo = 1 then (if o.safeRestGround.getLsbD (j - 80) then 0 else 3)
      else if r = 8 ∧ f.lo = 16 then 1
      else f.cold
    else if 0x800 ≤ off ∧ off < 0x980 ∧ f.lo = 16 then
      (if (off - 0x800) / 4 < 80 then 0xFFFF else o.ceil ((off - 0x800) / 4 - 80))
    else f.cold
  | .prt =>
    if 0x100 ≤ off ∧ off < 0x170 ∧ f.lo = 0 then o.minAct ((off - 0x100) / 4)
    else if off = 0x160 ∧ f.lo = 16 then 0 else f.cold
  | .thm => if off = 0x4C then o.thermCeil - 0xA0 else if off = 0x50 then o.thermCeil - 0x50 else f.cold
  | .port => if off = 0x40 ∧ f.lo = 0 then (if n < 2 then 3 else 2) else f.cold
  | _ => f.cold

/-- The register table row that covers an offset of a page. -/
def rowAt (k : PageKind) (off : Nat) : Option RegRow :=
  let covers (r : RegRow) : Bool :=
    if r.count = 1 then off = r.off
    else r.off ≤ off && (off - r.off) % r.stride = 0 && (off - r.off) / r.stride < r.count
  if off < 0x40 then rowsHDR.find? covers else (rowsOf k).find? covers

/-- The page kind and instance of a register address (R38). -/
def pageAt (a : Nat) : Option (PageKind × Nat) :=
  if a < 0x40000000 then none else pageOfNumber ((a - 0x40000000) / 0x1000)

/-- The fields of the register at an address, with their page; empty where the spec tabulates none (R11). -/
def fieldsAt (a : Nat) : List FldRow :=
  match pageAt a with
  | some (k, _) => (match rowAt k (a % 0x1000) with
    | some r => r.fields
    | none => [])
  | none => []

/-- The Cold value of the register word at an address. -/
def coldWord (o : Otp) (a : Nat) : Word :=
  match pageAt a with
  | some (k, n) =>
    let off := a % 0x1000
    (match rowAt k off with
    | some r => BitVec.ofNat 32 (r.fields.foldl (fun acc f => acc + coldField o k n off f * 2 ^ f.lo) 0)
    | none => 0)
  | none => 0

/-- The warm value of a register word: each field that the Warm column keeps stays, every other takes its warm value, which
is its Cold value (R454). -/
def warmWord (o : Otp) (a : Nat) (v : Word) : Word :=
  match pageAt a with
  | some (k, n) =>
    let off := a % 0x1000
    (match rowAt k off with
    | some r => BitVec.ofNat 32 (r.fields.foldl (fun acc f =>
        acc + (if f.warmKept then bitsOf v.toNat f.lo f.w else coldField o k n off f) * 2 ^ f.lo) 0)
    | none => 0)
  | none => 0

/-- What is left of a register word after Rest: the retained fields (R10). -/
def restWord (o : Otp) (a : Nat) (v : Word) : Word :=
  match pageAt a with
  | some (k, n) =>
    let off := a % 0x1000
    (match rowAt k off with
    | some r => BitVec.ofNat 32 (r.fields.foldl (fun acc f =>
        acc + (if f.keep then bitsOf v.toNat f.lo f.w else coldField o k n off f) * 2 ^ f.lo) 0)
    | none => 0)
  | none => 0

/-- What the byte at a memory address reads as while nothing has written it: the boot ROM's own bytes; the identity banks of
the DPD bank store (R204); zero elsewhere (R155, R307; log 4). -/
def memDefault (a : Nat) : Byte :=
  if a < 0x20000 then Config.bootRom a
  else if 0x34000000 ≤ a ∧ a < 0x34000000 + 30720 then dpdIdentity (a - 0x34000000)
  else 0
where
  /-- Byte of the bank store at reset (R204): the first coefficient of every bank is 1.0 in Q2.22, every other 0. -/
  dpdIdentity (o : Nat) : Byte := if o % 240 = 2 then 0x40 else 0

end Sys2Proof.Machine
end

