-- ==== Sys2Proof/Machine/Num.lean ====
section
/-!
DEFINITION. Numbers (R7): two's complement fields, rounding, saturation, complex values and the square roots the spec uses.
-/
namespace Sys2Proof

/-- A two's complement field of w bits as an integer. -/
def signed (v w : Nat) : Int := if v < 2 ^ (w - 1) then (v : Int) else (v : Int) - 2 ^ w

/-- An integer as a two's complement field of w bits. -/
def unsigned (v : Int) (w : Nat) : Nat := (v % 2 ^ w).toNat

/-- Round half to even of a / b for a positive b. -/
def rhe (a : Int) (b : Nat) : Int :=
  let q := a / (b : Int)
  let r := a % (b : Int)
  if 2 * r < b then q else if 2 * r > b then q + 1 else if q % 2 = 0 then q else q + 1

/-- Saturates to a signed format of w bits. -/
def sat (a : Int) (w : Nat) : Int := max (-(2 ^ (w - 1))) (min (2 ^ (w - 1) - 1) a)

/-- A sample in memory: I in bits [15:0], Q in bits [31:16] (R7). -/
def Cx.ofWord (v : Word) : Cx := ⟨signed (v.toNat % 65536) 16, signed (v.toNat / 65536 % 65536) 16⟩

/-- A sample as a memory word. -/
def Cx.toWord (c : Cx) : Word := BitVec.ofNat 32 (unsigned c.i 16 + 2 ^ 16 * unsigned c.q 16)

/-- Zero sample. -/
def Cx.zero : Cx := ⟨0, 0⟩
/-- Sum of two complex values. -/
def Cx.add (a b : Cx) : Cx := ⟨a.i + b.i, a.q + b.q⟩
/-- Difference of two complex values. -/
def Cx.sub (a b : Cx) : Cx := ⟨a.i - b.i, a.q - b.q⟩
/-- Exact product of two complex values (R380). -/
def Cx.mul (a b : Cx) : Cx := ⟨a.i * b.i - a.q * b.q, a.i * b.q + a.q * b.i⟩
/-- Conjugate. -/
def Cx.conj (a : Cx) : Cx := ⟨a.i, -a.q⟩
/-- Squared magnitude. -/
def Cx.mag2 (a : Cx) : Int := a.i * a.i + a.q * a.q
/-- Each part divided by 2^k with round half to even and saturated to Q1.15. -/
def Cx.round (a : Cx) (k : Nat) : Cx := ⟨sat (rhe a.i (2 ^ k)) 16, sat (rhe a.q (2 ^ k)) 16⟩
/-- Whether saturation to Q1.15 after division by 2^k changes a part. -/
def Cx.clips (a : Cx) (k : Nat) : Bool :=
  decide (sat (rhe a.i (2 ^ k)) 16 ≠ rhe a.i (2 ^ k)) || decide (sat (rhe a.q (2 ^ k)) 16 ≠ rhe a.q (2 ^ k))

/-- Product with a real number. -/
def Cx.scale (k : Int) (a : Cx) : Cx := ⟨k * a.i, k * a.q⟩

/-- Each part divided by a positive number with round half to even. -/
def Cx.rheDiv (a : Cx) (d : Nat) : Cx := ⟨rhe a.i d, rhe a.q d⟩

/-- Each part saturated to Q1.15. -/
def Cx.sat (a : Cx) : Cx := ⟨Sys2Proof.sat a.i 16, Sys2Proof.sat a.q 16⟩

/-- The sum of samples times taps, newest first, and the sum of the taps: the gain of the filter at its centre. -/
def firSum : List Int → List Cx → Cx × Int
  | [], _ => (Cx.zero, 0)
  | h :: t, [] => ((firSum t []).1, h + (firSum t []).2)
  | h :: t, x :: xs => let r := firSum t xs; (r.1.add (x.scale h), h + r.2)

/-- A filter of gain 1 at its centre (R131), divided further by d: each part rounded half to even. Taps without a positive sum give
zero. -/
def fir (taps : List Int) (x : List Cx) (d : Nat) : Cx :=
  let r := firSum taps x
  if r.2 ≤ 0 then Cx.zero else r.1.rheDiv (r.2.toNat * d)

/-- Every n-th tap from tap k on: the taps that meet a sample at phase k of an interpolation by n. -/
def polyphase (taps : List Int) (n k : Nat) : List Int :=
  (List.range ((taps.length + n - 1 - k) / n)).map fun j => taps.getD (n * j + k) 0

/-- Phase k of an interpolation by n of gain 1 at the centre, the newest sample standing at phase 0: the sum before rounding, and the
positive number that divides it, or 0 for taps without a positive sum. -/
def interpSum (taps : List Int) (n k : Nat) (x : List Cx) : Cx × Nat :=
  ((firSum (polyphase taps n k) x).1.scale n, (taps.foldl (· + ·) 0).toNat)

/-- An interpolated sample, each part rounded half to even. -/
def interp (taps : List Int) (n k : Nat) (x : List Cx) : Cx :=
  let r := interpSum taps n k x
  if r.2 = 0 then Cx.zero else r.1.rheDiv r.2

/-- Floor of the square root, with fuel. -/
def isqrtAux : Nat → Nat → Nat → Nat
  | 0, _, r => r
  | b + 1, n, r => if (r + 2 ^ b) * (r + 2 ^ b) ≤ n then isqrtAux b n (r + 2 ^ b) else isqrtAux b n r

/-- Floor of the square root of a number below 2^128. -/
def isqrt (n : Nat) : Nat := isqrtAux 64 n 0

/-- The square root rounded to the nearest integer (a tie cannot occur). -/
def rsqrt (n : Nat) : Nat := let r := isqrt n; if n > r * r + r then r + 1 else r

end Sys2Proof
end

