-- ==== Sys2Proof/Machine/Ops.lean ====
section
/-!
DEFINITION. The operations every command is built from: reading and writing register words and fields, memory bytes and
words, logging errors and raising events, the responses of accesses, claims, domains and the clock.
-/
namespace Sys2Proof.Machine

/-! ## Registers -/

/-- The register word at an address, as stored. -/
def State.rd (s : State) (a : Nat) : Word := s.regs.get a (coldWord s.otp a)

/-- Stores a register word. -/
def State.wr (s : State) (a : Nat) (v : Word) : State := { s with regs := s.regs.put a v (coldWord s.otp a) }

/-- A register field as a number. -/
def State.get (s : State) (f : Fld) : Nat := bitsOf (s.rd f.addr).toNat f.lo f.w

/-- Stores a register field. -/
def State.set (s : State) (f : Fld) (v : Nat) : State :=
  s.wr f.addr (BitVec.ofNat 32 (setBits (s.rd f.addr).toNat f.lo f.w v))

/-- A one-bit field as a truth value. -/
def State.flag (s : State) (f : Fld) : Bool := s.get f != 0

/-- Stores a truth value in a one-bit field. -/
def State.setFlag (s : State) (f : Fld) (b : Bool) : State := s.set f (if b then 1 else 0)

/-- The value in force of a field of a setting that waits for an entry start (R520); an unlisted register: its Cold value. -/
def State.effGet (s : State) (f : Fld) : Nat := bitsOf (s.eff.get f.addr (coldWord s.otp f.addr)).toNat f.lo f.w

/-- Adds to a count, which holds at its maximum (R36). -/
def State.count (s : State) (f : Fld) (n : Nat) : State := s.set f (min (s.get f + n) (2 ^ f.w - 1))

/-- A 64-bit value in a LO register and the HI register 4 above it (R45). -/
def State.rd64 (s : State) (a : Nat) : Nat := (s.rd a).toNat + 2 ^ 32 * (s.rd (a + 4)).toNat

/-- Stores a 64-bit value in LO and HI. -/
def State.wr64 (s : State) (a v : Nat) : State := (s.wr a (BitVec.ofNat 32 v)).wr (a + 4) (BitVec.ofNat 32 (v / 2 ^ 32))

/-- Bits of a data word as a number. -/
def bits (v : Word) (lo w : Nat) : Nat := bitsOf v.toNat lo w

/-- One bit of a data word. -/
def bit (v : Word) (n : Nat) : Bool := v.getLsbD n

/-! ## Errors and events (R43, R521) -/

/-- Raises event n of a page: bit n of both latches sets (R521). -/
def State.raise (s : State) (pg n : Nat) : State :=
  let t := s.wr (HDR.IRQ_RAW pg) (s.rd (HDR.IRQ_RAW pg) ||| BitVec.ofNat 32 (2 ^ n))
  t.wr (HDR.IRQ_PEND pg) (t.rd (HDR.IRQ_PEND pg) ||| BitVec.ofNat 32 (2 ^ n))

/-- Logs an error on a page: code and `ERR_ADDR`, the count, and event bit 0 (R43). -/
def State.logErr (s : State) (pg code addr : Nat) : State :=
  ((({ s with logged := true }.set (HDR.ERR_CODE_code pg) code).count (HDR.ERR_CODE_count pg) 1).set (HDR.ERR_ADDR_addr pg) addr).raise pg 0

/-! ## Clock -/

/-- Moves the model's clock on by n CT; device time counts while REFCLK is present (R4). -/
def State.advance (s : State) (n : Nat) : State :=
  { s with now := s.now + n, dev := if s.refclk then s.dev + BitVec.ofNat 64 n else s.dev }

/-- Device time in CT as a number. -/
def State.ct (s : State) : Nat := s.dev.toNat

/-- Device time in BT (R4). -/
def State.bt (s : State) : Nat := s.dev.toNat / 64

/-- An event's instant has come: the clock stands at it, or later (log 2). -/
def State.atCt (s : State) (t : Nat) : State := s.advance (t - s.ct)

/-- As `atCt` for an instant in BT. -/
def State.atBt (s : State) (t : Int) : State := s.atCt (64 * t).toNat

/-- As `atCt` for an instant of the model's own clock. -/
def State.atNow (s : State) (t : Nat) : State := s.advance (t - s.now)

/-- CT in a microsecond, rounded up (R3). -/
def usCt (n : Nat) : Nat := (n * 786432 + 99) / 100

/-! ## Settings as they were -/

/-- The value that was in force at an instant, of values with the instants at which they ended, newest first: samples pass the receive filters
after the instants they stand for. -/
def wasAt {α : Type} (h : List (Nat × α)) (now : α) (ct : Nat) : α :=
  match (h.filter fun e => decide (ct < e.1)).getLast? with
  | some e => e.2
  | none => now

/-- A value ends at an instant; those of the last 32,768 CT are kept, which is more than any receive latency (R134). -/
def wasPut {α : Type} (h : List (Nat × α)) (ct : Nat) (old : α) : List (Nat × α) := (ct, old) :: h.filter fun e => decide (ct < e.1 + 32768)

/-! ## Free values -/

/-- The next value the spec leaves open (log 20). -/
def State.free (s : State) : Word × State := (Config.freeWord s.drawn, { s with drawn := s.drawn + 1 })

/-! ## Responses -/

/-- A read completes with its data. -/
def State.answer (s : State) (v : Nat) : State := { s with resp := ⟨BitVec.ofNat 64 v, false, false, false, false⟩ }

/-- A read completes with a word. -/
def State.answerW (s : State) (v : Word) : State := s.answer v.toNat

/-- A write completes. -/
def State.done (s : State) : State := { s with resp := ⟨0, false, false, false, false⟩ }

/-- A read of a word of a parity memory that fails its check returns zero (R420). -/
def State.detected (s : State) : State := { s with resp := ⟨0, false, false, false, true⟩ }

/-- An error response: a read returns 0xDEAD_0BAD (R39). -/
def State.errResp (s : State) (domOff : Bool) : State := { s with resp := ⟨0xDEAD0BAD, true, domOff, false, false⟩ }

/-! ## Memory -/

/-- The byte stored at a memory address. -/
def State.byte (s : State) (a : Nat) : Byte := s.mem.get a (memDefault a)

/-- Stores one byte. -/
def State.setByte (s : State) (a : Nat) (v : Byte) : State := { s with mem := s.mem.put a v (memDefault a) }

/-- n bytes from an address, least significant first (R7), as a number. -/
def State.load (s : State) (a : Nat) : Nat → Nat
  | 0 => 0
  | n + 1 => (s.byte a).toNat + 256 * s.load (a + 1) n

/-- Stores n bytes of a number, least significant first. -/
def State.store (s : State) (a v : Nat) : Nat → State
  | 0 => s
  | n + 1 => (s.setByte a (BitVec.ofNat 8 v)).store (a + 1) (v / 256) n

/-- A 32-bit memory word. -/
def State.word (s : State) (a : Nat) : Word := BitVec.ofNat 32 (s.load a 4)

/-- Stores a 32-bit memory word. -/
def State.setWord (s : State) (a : Nat) (v : Word) : State := s.store a v.toNat 4

/-- n bytes from an address, in order. -/
def State.bytes (s : State) (a : Nat) : Nat → List Byte
  | 0 => []
  | n + 1 => s.byte a :: s.bytes (a + 1) n

/-- Stores bytes in order. -/
def State.putBytes (s : State) (a : Nat) : List Byte → State
  | [] => s
  | b :: t => (s.setByte a b).putBytes (a + 1) t

/-- A word of a parity memory fails its check (R420). -/
def State.parityBad (s : State) (a : Nat) : Bool := (s.upsets.find? a).isSome

/-- What a rewrite of the word leaves of an upset: stuck cells (R425). -/
def lastingUpset : Upset → Option Upset
  | .flip _ => none
  | .multi => none
  | .stuck b => some (.stuck b)
  | .stuckMore b => some (.stuck b)
  | .broken => some .broken

/-- Two upsets of one word: a second error makes it uncorrectable, and a second flip of one cell restores it (R425, log 109). -/
def joinUpsets : Upset → Upset → Option Upset
  | .flip a, .flip b => if a = b then none else some .multi
  | .flip a, .stuck b => some (if a = b then .stuck b else .stuckMore b)
  | .stuck a, .flip b => some (if a = b then .stuck a else .stuckMore a)
  | .stuck a, .stuck b => some (if a = b then .stuck a else .broken)
  | u, v =>
    match lastingUpset u, lastingUpset v with
    | none, none => some .multi
    | some (.stuck a), none => some (.stuckMore a)
    | none, some (.stuck b) => some (.stuckMore b)
    | some (.stuck a), some (.stuck b) => some (if a = b then .stuckMore a else .broken)
    | _, _ => some .broken

/-- The upset of a word set. -/
def State.setUpset (s : State) (a : Nat) (u : Option Upset) : State :=
  { s with upsets := match u with | some v => (s.upsets.del a).ins a v | none => s.upsets.del a }

/-- A word takes an upset (R414, R425); a flip in a parity memory is as any other. -/
def State.hit (s : State) (a : Nat) (u : Upset) : State :=
  s.setUpset a (match s.upsets.find? a with | some o => joinUpsets o u | none => some u)

/-- A rewrite of a word ends an upset, but not a stuck cell (R425). -/
def State.heal (s : State) (a : Nat) : State := s.setUpset a ((s.upsets.find? a).bind lastingUpset)

/-- Upsets from lo up to hi after a rewrite of all those words. -/
def healRange (l : Store Upset) (lo hi : Nat) : Store Upset :=
  l.filterMap fun (e : Nat × Upset) => if lo ≤ e.1 ∧ e.1 < hi then (lastingUpset e.2).map fun u => (e.1, u) else some e

/-- A store of a word of a parity memory. -/
def State.setParityWord (s : State) (a : Nat) (v : Word) : State := (s.setWord a v).heal a

/-- Forgets every byte from lo up to hi: they read as after reset. A stuck cell stays (R425). -/
def State.wipe (s : State) (lo hi : Nat) : State :=
  { s with
    mem := s.mem.filter fun e => !(decide (lo ≤ e.1) && decide (e.1 < hi))
    upsets := healRange s.upsets lo hi
    poison := s.poison.filter fun e => !(decide (lo ≤ e.1) && decide (e.1 < hi)) }

/-! ## Domains (R429, R519) -/

/-- The domain bit of a page (R519). -/
def domOfPage (k : PageKind) (n : Nat) : Nat :=
  match k with
  | .rst | .pwr | .thm | .opt | .mgt | .ftm | .clk | .dbg => 0
  | .sec => 1
  | .sys | .mem | .yrd | .ych | .pnl | .par | .cas | .rxc | .txc | .hdr => 2
  | .core => 3 + n
  | .bf | .bfg => 12
  | .lnd => 13
  | .std | .dpd => 14 + n
  | .port => 22 + n
  | .lane => 22 + (if n < 4 then 0 else if n < 8 then 2 else if n < 12 then 1 else 3)
  | .scl | .bia | .prt => 26

/-- The memories of R37. -/
inductive MemKind where | rom | imem (c : Nat) | dmem (c : Nat) | cmem | aon | weight | dpd | landing | flow | sched
  deriving DecidableEq, Repr

/-- The memory that holds an address (R37, R358; sizes from R414 and the chapters that own them). -/
def memAt (a : Nat) : Option MemKind :=
  if a < 0x20000 then some .rom
  else if 0x08000000 ≤ a ∧ a < 0x08800000 then
    let c := (a - 0x08000000) / 0x100000
    let o := a % 0x100000
    if o < 0x20000 then some (.imem c) else if 0x80000 ≤ o ∧ o < 0xC0000 then some (.dmem c) else none
  else if 0x10000000 ≤ a ∧ a < 0x10400000 then some .cmem
  else if 0x18000000 ≤ a ∧ a < 0x18040000 then some .aon
  else if 0x20000000 ≤ a ∧ a < 0x20800000 then some .landing
  else if 0x30000000 ≤ a ∧ a < 0x30280000 then some .weight
  else if 0x34000000 ≤ a ∧ a < 0x34007800 then some .dpd
  else if 0x38000000 ≤ a ∧ a < 0x38005000 then some .flow
  else if 0x39000000 ≤ a ∧ a < 0x39004000 then some .sched
  else none

/-- The domain of a memory (R519). -/
def domOfMem : MemKind → Nat
  | .rom => 1
  | .imem c => 3 + c
  | .dmem c => 3 + c
  | .cmem => 11
  | .aon => 0
  | .weight => 12
  | .dpd => 2
  | .landing => 13
  | .flow => 2
  | .sched => 2

/-- The page whose `BLK_CTRL` and errors belong to a memory (R518; log 114). -/
def pageOfMem : MemKind → Nat
  | .rom => SYS.base
  | .imem c => CORE.base c
  | .dmem c => CORE.base c
  | .cmem => MEM.base
  | .aon => MEM.base
  | .weight => BF.base
  | .dpd => DPD.base 0
  | .landing => LND.base
  | .flow => PNL.base
  | .sched => FTM.base

/-- Base of the page that holds a register address. -/
def pageBase (a : Nat) : Nat := a - a % 0x1000

/-- The domain an access concerns (R42, R519): its memory's or its page's; a header lies in FAB, or in AON with its page. -/
def domOf (a : Nat) : Option Nat :=
  match memAt a with
  | some m => some (domOfMem m)
  | none => (match pageAt a with
    | some (k, n) => some (if a % 0x1000 < 0x40 ∧ domOfPage k n ≠ 0 then 2 else domOfPage k n)
    | none => none)

/-- The page that logs an error of an access: the page itself, or the page of the memory; SYS where R37 and R38 decode nothing. -/
def pageOf (a : Nat) : Nat :=
  match memAt a with
  | some m => pageOfMem m
  | none => if (pageAt a).isSome then pageBase a else SYS.base

/-- A domain is on. -/
def State.on (s : State) (d : Nat) : Bool := s.pwr.domOn.getLsbD d

/-- One bit of a mask set or cleared. -/
def setBit {w : Nat} (m : BitVec w) (n : Nat) (b : Bool) : BitVec w :=
  if b then m ||| BitVec.ofNat w (2 ^ n) else m &&& ~~~ BitVec.ofNat w (2 ^ n)

/-- A change of `DOM_ON` (R445): the mask and event bit 5. -/
def State.setDom (s : State) (d : Nat) (b : Bool) : State :=
  let t := { s with pwr := { s.pwr with
    domOn := setBit s.pwr.domOn d b
    domWaking := setBit s.pwr.domWaking d false
    domRetained := setBit s.pwr.domRetained d false } }
  if s.on d = b then t else t.raise PWR.base 5

/-- VID code of a level (R431). -/
def levelCode (l : Nat) : Nat := if l = 0 then 0x32 else if l = 1 then 0x46 else if l = 2 then 0x5A else 0x6E

/-- VID steps toward a code from now on (R434); a running ramp only turns (R437). -/
def State.rampTo (s : State) (code : Nat) : State :=
  let still := s.pwr.goal = s.get PWR.PL_STAT_vid
  { s with pwr := { s.pwr with
    goal := code
    vidAt := if still then s.now else s.pwr.vidAt
    vidN := if still then 0 else s.pwr.vidN } }

/-- The exit from Rest or Dormant starts (R448, R455): from Dormant a reset of source 10 and a release without the option load, which
ramps VID to PL2. While the commit still steps VID it waits (R444): `vidStep` starts it when the sleep state is reached. -/
def State.exitStart (s : State) : State :=
  match s.pwr.sleep with
  | .rest =>
    if s.pwr.restExit ∨ s.get PWR.PL_STAT_vid ≠ s.pwr.goal then s
    else
      let t := s.rampTo (levelCode (s.get PWR.PL_CTRL_target))
      { t with pwr := { t.pwr with restExit := true } }
  | .dormant =>
    if s.get PWR.PL_STAT_vid ≠ s.pwr.goal then s else
    let t := ((s.rampTo 0x5A).set ⟨RST.CAUSE, 10, 1⟩ 1).set RST.BOOT_STAT_accepted 0
    let t := t.set RST.GAP_now (t.get RST.GAP_gap)
    let t := if t.flag RST.DUMP_MARK_mark then t.set RST.DUMP_MARK_lost 1 else t
    { t with
      pwr := { t.pwr with sleep := .run, pairEn := false, domWaking := 0x7FFFFFE#27 &&& ~~~t.pwr.domOn }
      rst := { t.rst with held := [10], warm := false, dormant := true, measure := true, last := 10, lastAt := t.now, next := some 1, stepAt := t.now, boot := .idle } }
  | _ => s

/-- A wake of a domain starts (R54, R445): its request bit clears. In Rest and Dormant the access also starts the exit of the
sleep state, with cause bit 5 (R446). -/
def State.startWake (s : State) (d : Nat) : State :=
  let t := s.set ⟨PWR.DOM_CTRL, d, 1⟩ 0
  if t.pwr.sleep = .rest ∨ t.pwr.sleep = .dormant then
    ({ t.set ⟨PWR.WAKE_CAUSE, 5, 1⟩ 1 with pwr := { t.pwr with wakeSeen := true } }).exitStart
  else if t.on d then t
  else { t with pwr := { t.pwr with domWaking := setBit t.pwr.domWaking d true } }

/-- The error response "domain off" (R54). -/
def State.domainOff (s : State) (a : Nat) : State := (s.logErr (pageOf a) 0x01 a).errResp true

/-- The permit of R54: the FAB domain wakes on any access, whatever the permit bits say. -/
def State.wakeOk (s : State) (a d : Nat) : Bool := d = 2 || s.flag (HDR.BLK_CTRL_wake_ok (pageOf a))

/-- In option fault only reads of the RST and OPT pages are answered (R460). -/
def State.optClosed (s : State) (acc : Access) : Bool :=
  s.rst.optFault && !(!acc.write && (pageBase acc.addr.toNat = RST.base || pageBase acc.addr.toNat = OPT.base))

/-- The rule of R54 for an access that concerns domain d: performed when the domain is on; else it starts a wake and stalls, or
fails. In Rest and Dormant every access needs FAB, and waits for the exit (R446). -/
def State.gatedBy (s : State) (acc : Access) (d : Nat) (f : State → State) : State :=
  let a := acc.addr.toNat
  if s.optClosed acc ∨ s.timedOut = some d then s.domainOff a
  else if s.pwr.sleep = .rest ∨ s.pwr.sleep = .dormant then
    let t := s.startWake d
    { t with stalled := t.stalled ++ [acc] }
  else if s.on d then f s
  else if s.wakeOk a d then
    let t := s.startWake d
    { t with stalled := t.stalled ++ [acc] }
  else s.domainOff a

/-- The rule of R54 for one access; an address that nothing decodes concerns the interconnect, in FAB. -/
def State.gated (s : State) (acc : Access) (f : State → State) : State :=
  s.gatedBy acc ((domOf acc.addr.toNat).getD 2) f

/-- A 32-bit write access. -/
def wrAcc (id : ReqId) (a : Nat) (v : Word) : Access := ⟨id, true, BitVec.ofNat 32 a, 4, v.setWidth 64, false⟩
/-- A 32-bit read access. -/
def rdAcc (id : ReqId) (a : Nat) : Access := ⟨id, false, BitVec.ofNat 32 a, 4, 0, false⟩

/-! ## Retained words and mirror granules (R10, R349, R351) -/

/-- Register words of a page, by offset, that hold a retained field (R10). -/
def keptOffsets (k : PageKind) : List Nat :=
  let of (r : RegRow) : List Nat := if r.fields.any (·.keep) then (List.range r.count).map fun i => r.off + i * r.stride else []
  ((rowsHDR.flatMap of) ++ ((rowsOf k).flatMap of)).mergeSort (· ≤ ·)

/-- Every register word with a retained field, in page order (R349). -/
def keptRegs : List Nat :=
  (List.range 0x72).flatMap fun n => match pageOfNumber n with
    | some (k, _) => (keptOffsets k).map (0x40000000 + 0x1000 * n + ·)
    | none => []

/-- The words of the retained set (R10, R307): the register words, then words 0 to 4 of the flow entries. -/
def keptWords : List Nat :=
  keptRegs ++ (List.range 640).flatMap fun i => (List.range 5).map fun w => 0x38000000 + 32 * i + 4 * w

/-- Whether a register word holds a retained field. -/
def isKept (a : Nat) : Bool := (fieldsAt a).any (·.keep)

/-- A mirrored region: base and length in bytes (R349). -/
def State.region (s : State) (i : Nat) : Nat × Nat := (1024 * s.get (PAR.REG_BASE_base i), 1024 * s.get (PAR.REG_LEN_kib i))

/-- The granule of the mirrored regions that holds an address. -/
def State.regionGranule (s : State) (a : Nat) : Nat → Nat → Option Nat
  | 0, _ => none
  | n + 1, g =>
    let r := s.region (7 - n)
    if r.1 ≤ a ∧ a < r.1 + r.2 then some (g + (a - r.1) / 1024) else s.regionGranule a n (g + r.2 / 1024)

/-- The mirror granule that holds an address (R349). -/
def State.granuleOf (s : State) (a : Nat) : Option Nat :=
  if isKept a then some (keptRegs.idxOf a / 256)
  else match memAt a with
    | some .weight => some (64 + (a - 0x30000000) / 1024)
    | some .dpd => some (2624 + (a - 0x34000000) / 1024)
    | some .flow => some (2654 + (a - 0x38000000) / 1024)
    | some .sched => some (2674 + (a - 0x39000000) / 1024)
    | some .aon => some (2690 + (a - 0x18000000) / 1024)
    | _ => s.regionGranule a 8 2946

/-- A write by a requester marks the granule of its address dirty on the active device of a pair (R351). -/
def State.touch (s : State) (a : Nat) : State :=
  if s.flag PAR.CFG_en ∧ s.get PAR.STAT_role = 2 then
    (match s.granuleOf a with
    | some g => if (s.pair.dirty.find? g).isSome then s else { s with pair := { s.pair with dirty := s.pair.dirty.ins g s.now } }
    | none => s)
  else s

/-- A write command of a register: gated by its domain, answered as done. -/
def State.writeCmd (s : State) (id : ReqId) (a : Nat) (v : Word) (f : State → State) : State :=
  s.gated (wrAcc id a v) fun t => ((f t).done).touch a

/-! ## Withdrawal from the Yarder (R406) -/

/-- A peripheral withdraws what it has promised: a burst in progress of each channel of `p` has no words left to read, which YCH k logs,
or no room left to write. -/
def State.withdraw (s : State) (p : Nat → Desc → Bool) : State :=
  (List.range 32).foldl (fun (t : State) k =>
    let c := t.chans.getD k Chan.reset
    match c.desc with
    | some d =>
      if c.left = 0 ∨ !p k d then t
      else if d.srcReq ∧ !c.short then
        (({ t with chans := t.chans.set k { c with short := true } }).logErr (YCH.base k) 0x43 (YCH.CFG k)).raise (YCH.base k) 3
      else if d.dstReq then { t with chans := t.chans.set k { c with withdrawn := true } }
      else t
    | none => t) s

/-! ## Claims (R47 to R51) -/

/-- Owner of claim n. -/
def State.owner (s : State) (n : Nat) : Nat := s.get (SYS.CLAIM_owner n)

/-- A requester holds claim n. -/
def State.holds (s : State) (id : ReqId) (n : Nat) : Bool := s.owner n = id.toNat && id.toNat != 0

/-- The page whose `CLAIM` mirrors claim n (R47). -/
def claimPage (n : Nat) : Nat :=
  if n < 16 then FTM.base else if n < 32 then SYS.base else if n < 40 then STD.base (n - 32)
  else if n < 42 then SCL.base else if n = 42 then LND.base else if n = 43 then TXC.base
  else if n < 48 then PORT.base (n - 44) else if n < 51 then FTM.base else SYS.base

/-- One field written by a feature's enable write under R49: it sets only if the writer holds the claim; else it reads back 0
and the page logs "resource not claimed". -/
def State.enableIf (s : State) (ok : Bool) (f : Fld) (v : Nat) : State :=
  if v = 0 then s.set f 0 else if ok then s.set f v else (s.set f 0).logErr (pageBase f.addr) 0x03 f.addr

end Sys2Proof.Machine
end

