-- ==== Sys2Proof/Machine/Theta.lean ====
section
/-!
DEFINITION. The PA thermal state of a path (R200 to R202): its value at an instant, and its update by a released sample.
-/
namespace Sys2Proof.Machine

/-- Predistortion state of path p. -/
def State.dpdPath (s : State) (p : Nat) : DpdPath := s.dpd.getD p DpdPath.reset
/-- Stores it. -/
def State.setDpd (s : State) (p : Nat) (x : DpdPath) : State := { s with dpd := s.dpd.set p x }

/-- K of path p in force (R200). -/
def State.thetaK (s : State) (p : Nat) : Nat := s.effGet (DPD.THM_CFG_k (p / 8) (p % 8))

/-- One update by a sample of power P, a number in units of 2^-30 (R200). -/
def thetaStep (k theta power : Nat) : Nat :=
  ((theta : Int) + ((power * 2 ^ 24 : Nat) - (theta : Int)) / (2 : Int) ^ k).toNat

/-- n updates by zero samples. -/
def thetaDecay (k : Nat) : Nat → Nat → Nat
  | 0, t => t
  | n + 1, t => if t = 0 then 0 else thetaDecay k n (thetaStep k t 0)

/-- Θ of path p after the update at an instant: the last stored value at or before it, then zero samples, one every 4 CT. -/
def State.thetaAt (s : State) (p : Nat) (ct : Int) : Nat :=
  match (s.dpdPath p).theta.find? fun e => decide (e.1 ≤ ct) with
  | some (t, v, k) => thetaDecay k (ct / 4 - t / 4).toNat v
  | none => 0

/-- θ_q as the bank model sees it (R201). -/
def State.thetaQ (s : State) (p : Nat) (ct : Int) : Nat := min 0x7FFF (s.thetaAt p ct / 2 ^ 39)

/-- A value of Θ at an instant, decaying with a K from there; values of the last 2,048 CT stay, with one older. -/
def State.thetaPut (s : State) (p : Nat) (ct : Int) (v k : Nat) : State :=
  let x := s.dpdPath p
  let keep := x.theta.takeWhile fun e => decide (ct < e.1 + 2048)
  let rest := x.theta.drop keep.length
  s.setDpd p { x with theta := (ct, v, k) :: (keep ++ rest.take 1) }

/-- Θ before the update at an instant: a value loaded since the update before it, or what that update left. -/
def State.thetaBefore (s : State) (p : Nat) (ct : Int) : Nat :=
  match (s.dpdPath p).theta.head? with
  | some (t, v, _) => if t ≤ ct ∧ ct < t + 4 then v else s.thetaAt p (ct - 4)
  | none => 0

/-- The DAC gate of path p releases sample z at an instant (R200). -/
def State.thetaSample (s : State) (p ct : Nat) (z : Cx) : State :=
  if z = Cx.zero then s else s.thetaPut p ct (thetaStep (s.thetaK p) (s.thetaBefore p ct) z.mag2.toNat) (s.thetaK p)

/-- Θ takes its initial value (R202). -/
def State.thetaInit (s : State) (p : Nat) : State := s.thetaPut p s.ct (s.get (DPD.THM_INIT_init (p / 8) (p % 8)) * 2 ^ 39) (s.thetaK p)

/-- A new K acts from the next update on, one at the present instant included: what the updates before it left is kept. -/
def State.thetaSettle (s : State) (p : Nat) (k : Nat) : State :=
  if k = s.thetaK p then s
  else
    let last : Int := ((s.ct : Int) - 1) / 4 * 4
    s.thetaPut p last (s.thetaAt p last) k

end Sys2Proof.Machine
end

