-- ==== Sys2Proof/Machine/Align.lean ====
section
/-!
DEFINITION. An alignment of device time (R85): device time takes a new value at one instant. What counts time from an instant behind or
to an instant ahead goes on as though device time had not jumped, so each instant that is held in device time moves with it; the
AUX ticks and the heartbeat windows, which lie at multiples of device time, are those of the new time. Settings of samples that were on their
way are over, since no symbol runs (R86; log 92).
-/
namespace Sys2Proof.Machine

/-- An instant moved by a signed amount. -/
def moveNat (d : Int) (t : Nat) : Nat := ((t : Int) + d).toNat

/-- Instant of AUX tick n in CT: the first REFCLK edge at or after n × 3,932.16 CT (R232). -/
def auxTickCt (n : Nat) : Nat := (n * 393216 + 3199) / 3200 * 32

/-- The number of the last AUX tick at or before CT c (R232). -/
def auxTickBy (c : Nat) : Nat :=
  let n := c * 100 / 393216
  if auxTickCt n ≤ c then n else n - 1

/-- The keys of instants moved. -/
def moveKeys {α : Type} (d : Int) (m : Store α) : Store α := m.map fun e => (moveNat d e.1, e.2)

/-- A slice's check end and start instant moved; an armed instant is a device time that was asked for, and stays. -/
def Slice.move (d : Int) (c : Slice) : Slice :=
  match c.phase with
  | .check b => { c with phase := .check (moveNat (d / 64) b) }
  | .started t => { c with phase := .started (moveNat d t) }
  | _ => c

/-- Instants of the timer: edges and transactions still to come of a stopped timer, and the end of a gap. -/
def Timer.move (d : Int) (t : Timer) : Timer :=
  let b := d / 64
  { t with
    edges := t.edges.map fun (x : EvEdge) => { x with bt := x.bt + b }
    fesQueue := t.fesQueue.map fun (x : FesJob) => { x with bt := x.bt + b }
    fesBusy := t.fesBusy.map fun (x : FesJob) => { x with bt := x.bt + b }
    past := t.past.map fun p => (p.1, moveNat b p.2)
    gap := t.gap.map fun g => (g.1, moveNat b g.2) }

/-- Instants of the predistortion of a path: the thermal state's updates (R200), the earliest start of a held fade (R208). -/
def DpdPath.move (d : Int) (x : DpdPath) : DpdPath :=
  { x with
    theta := x.theta.map fun e => (e.1 + d, e.2)
    held := x.held.map fun (w : Swap) => { w with dueCt := moveNat d w.dueCt } }

/-- Instants of a Scaler converter. -/
def SclCh.move (d : Int) (c : SclCh) : SclCh :=
  let h := 100 * d
  { c with
    queue := c.queue.map fun (r : SclReq) => { r with due := moveNat (d / 64) r.due }
    conv := c.conv.map fun (v : SclConv) => { v with t0 := moveNat h v.t0, t := moveNat h v.t }
    passT := if c.passT = 0 then 0 else moveNat d c.passT
    idle := moveNat h c.idle
    calEnd := moveNat h c.calEnd }

/-- Lane rates of R274 in units of 100 kBd. -/
def laneRate (code : Nat) : Nat :=
  [12500, 25000, 31250, 50000, 62500, 98304, 103125, 125000, 160000, 196608, 250000, 280000, 325000].getD code 325000

/-- Lane rate of port q in units of 100 kBd. -/
def State.portRate (s : State) (q : Nat) : Nat := laneRate (s.get (PORT.CFG_rate q))

/-- Device time takes a value in CT. -/
def State.alignTo (s : State) (t : Nat) : State :=
  let d : Int := (t : Int) - s.ct
  let b := d / 64
  let w := t / 64 / 12288 * 12288
  { s with
    dev := BitVec.ofNat 64 t
    timer := s.timer.move d
    pwr := { s.pwr with idleExitBt := s.pwr.idleExitBt.map (moveNat b) }
    cnv := { s.cnv with
      eqWas := []
      ungated := s.cnv.ungated.map fun (e : Nat × Nat) => (e.1, moveNat d e.2)
      play := s.cnv.play.map fun (c : CalPlay) => { c with startCt := moveNat d c.startCt } }
    bf := { s.bf with
      sealing := s.bf.sealing.map fun x => (x.1, moveNat b x.2)
      fbNew := s.bf.fbNew.map fun o => o.map fun x => (moveNat b x.1, x.2) }
    capture := s.capture.map fun (c : Capture) => { c with t0 := moveNat d c.t0 }
    rx := { s.rx with
      gstep := s.rx.gstep.map fun x => (moveNat d x.1, x.2)
      tails := Rx.reset.tails
      paths := s.rx.paths.map fun (x : RxPath) => { x with gold := [], adcWas := [], dlyWas := [] } }
    rxSlices := s.rxSlices.map (Slice.move d)
    txSlices := s.txSlices.map (Slice.move d)
    portSt := (s.portSt.zip (List.range 4)).map fun (x : PortSt × Nat) => { x.1 with up := x.1.up + d, org := x.1.org + d * s.portRate x.2 }
    dpd := s.dpd.map (DpdPath.move d)
    scl := s.scl.map (SclCh.move d)
    auxTick := auxTickBy t
    pair := { s.pair with hbTx := w, hbWin := w, hbRx := s.pair.hbRx.map (moveNat b) }
    staged := s.staged.map fun (x : Staged) => { x with at_ := moveNat d x.at_ } }

end Sys2Proof.Machine
end

