-- ==== Sys2Proof/Machine/Timer.lean ====
section
/-!
DEFINITION. The frame timer (R62 to R88): lists and their check, entries and their fetch, event-line edges, FEC pins,
front-end serial masters, start, stop and TSYNC. What an entry fires in other blocks is in Entry.lean.
-/
namespace Sys2Proof.Machine

/-! ## Lists and entries -/

/-- Address of word w of schedule entry i (chapter Frame timer). -/
def schedAddr (i w : Nat) : Nat := 0x39000000 + 16 * i + 4 * w

/-- Frame length of a list in BT; 0 means 2^24 (R87). -/
def SchedList.bt (l : SchedList) : Nat := if l.len = 0 then 2 ^ 24 else l.len

/-- The list that `NEXT_LIST` and `NEXT_LEN` name (R70). -/
def State.nextList (s : State) : SchedList :=
  ⟨s.get FTM.NEXT_LIST_base, s.get FTM.NEXT_LIST_count, s.get FTM.NEXT_LEN_len⟩

/-- Start field of entry i as stored (R66). -/
def State.entryStartField (s : State) (i : Nat) : Nat := bits (s.word (schedAddr i 0)) 0 24

/-- Every reserved field of entry i is 0 (R66, R70). -/
def State.entryReservedOk (s : State) (i : Nat) : Bool :=
  bits (s.word (schedAddr i 0)) 27 5 = 0 && bits (s.word (schedAddr i 2)) 20 4 = 0 &&
  bits (s.word (schedAddr i 3)) 24 8 = 0 && bits (s.word (schedAddr i 3)) 6 1 = 0 &&
  bits (s.word (schedAddr i 3)) 14 1 = 0 && bits (s.word (schedAddr i 3)) 22 1 = 0

/-- Starts rise strictly, are multiples of 4 BT and leave at least 16 BT to the next start or to the frame end (R64, R70). -/
def startsOk (len : Nat) : List Nat → Bool
  | [] => true
  | [a] => a % 4 = 0 && a + 16 ≤ len
  | a :: b :: t => a % 4 = 0 && a < b && a + 16 ≤ b && startsOk len (b :: t)

/-- The list check of R70: the code it is refused with, or none where it passes (log 117). -/
def State.listRefusal (s : State) (l : SchedList) : Option Nat :=
  if l.count = 0 ∨ l.base + l.count > 1024 then some 0x06
  else
    let idx := (List.range l.count).map (l.base + ·)
    if s.entryStartField l.base = 0 && l.bt % 4 = 0 && 16 ≤ l.bt && startsOk l.bt (idx.map s.entryStartField) &&
      idx.all s.entryReservedOk then none
    else some 0x41

/-- Entry index i lies in a list. -/
def SchedList.covers (l : SchedList) (i : Nat) : Bool := l.base ≤ i && i < l.base + l.count

/-- Entry i is live (R72): it belongs to the running list, the pending list, a list under check, a list latched by an accepted
start, or a list whose entry has been fetched. -/
def State.entryLive (s : State) (i : Nat) : Bool :=
  let t := s.timer
  let inL (l : Option SchedList) : Bool := match l with | some l => l.covers i | none => false
  inL t.running || inL t.pending || inL t.checking || inL t.accepted || inL t.taken || inL (t.fetched.map (·.list))

/-- Entry i is recorded as bad (R69). -/
def State.recordBad (s : State) (i : Nat) : State :=
  let t := (s.raise FTM.base 3).count FTM.COUNTS_bad 1
  let t := (t.set FTM.BAD_ENTRY_index i).set FTM.BAD_ENTRY_valid 1
  { t with timer := { t.timer with badEntries := if t.timer.badEntries.contains i then t.timer.badEntries
                                                  else i :: t.timer.badEntries } }

/-- A write of a schedule-table word (R72): refused while the entry is live and not recorded as bad. -/
def State.schedWrite (s : State) (a : Nat) (v : Word) : State :=
  let i := (a - 0x39000000) / 16
  if s.entryLive i && !s.timer.badEntries.contains i then s.logErr FTM.base 0x40 a
  else
    let t := s.setParityWord a v
    { t with timer := { t.timer with badEntries := t.timer.badEntries.filter (· ≠ i) } }

/-- A read of a schedule-table word (R69): a failing word reads 0 and its entry is recorded as bad. -/
def State.schedRead (s : State) (a : Nat) : State :=
  if s.parityBad a then (s.recordBad ((a - 0x39000000) / 16)).detected else s.answerW (s.word a)

/-- A commit write (R70). -/
def State.commitWrite (s : State) (v : Word) : State :=
  if bit v 0 then
    (match s.timer.checking with
    | some _ => s.logErr FTM.base 0x43 FTM.NEXT_CTRL
    | none => { s with timer := { s.timer with checking := some s.nextList } })
  else s

/-- The list check completes (R70). -/
def State.checkDone (s : State) : State :=
  match s.timer.checking with
  | none => s
  | some l =>
    let t := { s with timer := { s.timer with checking := none } }
    (match s.listRefusal l with
    | some c => t.logErr FTM.base c FTM.NEXT_CTRL
    | none => { t with timer := { t.timer with pending := some l } })

/-! ## Event lines and FEC pins -/

/-- Line e is high: the OR of its intervals (R75). -/
def State.line (s : State) (e : Nat) : Bool := s.timer.depth.get e 0 != 0

/-- The level FEC pin f drives (R77, R78), before any pull-down. -/
def State.fecDrive (s : State) (f : Nat) : Bool :=
  if s.timer.fecHold.getLsbD f then s.timer.fecLevel.getLsbD f
  else if s.flag (FTM.FEC_MAP_force f) then s.flag (FTM.FEC_MAP_fval f)
  else if s.timer.running.isSome then
    ((List.range 16).any fun e => (s.get (FTM.FEC_MAP_lines f)).testBit e && s.line e) != s.flag (FTM.FEC_MAP_inv f)
  else s.otp.fecSafe.getLsbD f

/-- The FEC pins follow their sources; with the option fuses not loaded they stay on their pull-downs (R78). -/
def State.fecUpdate (s : State) : State :=
  if s.timer.fecPulldown then s
  else
    { s with timer := { s.timer with
      fecLevel := (List.range 32).foldl (fun m f => setBit m f (s.fecDrive f)) s.timer.fecLevel } }

/-- Ends the warm-reset hold of the FEC pins of a mask (R78). -/
def State.fecRelease (s : State) (mask : BitVec 32) : State :=
  ({ s with timer := { s.timer with fecHold := s.timer.fecHold &&& ~~~mask } }).fecUpdate

/-- A write of `FEC_MAP_f` (R78): the stored map, and the end of the hold of pin f (log 118). -/
def State.fecMapWritten (s : State) (f : Nat) : State := s.fecRelease (BitVec.ofNat 32 (2 ^ f))

/-- Line e stops: low, nothing computed for it (R49, R73). -/
def State.lineStop (s : State) (e : Nat) : State :=
  ({ s with timer := { s.timer with
      depth := s.timer.depth.put e 0 0
      edges := s.timer.edges.filter (·.line ≠ e) } }).fecUpdate

/-- The edges that the ev bit of a fetched entry computes for line e (R74, R75): start + offset and on. -/
def State.lineEdges (s : State) (e : Nat) (start : Nat) (now prev : Bool) : List EvEdge :=
  let off := signed (s.get (FTM.EV_TIME_offset e)) 16
  let wid : Int := (s.get (FTM.EV_TIME_width e) : Int)
  let t : Int := (start : Int) + off
  if !s.flag (FTM.EV_CFG_en e) then []
  else if s.flag (FTM.EV_CFG_pulse e) then
    (if now then [⟨e, t, true⟩, ⟨e, t + wid + 1, false⟩] else [])
  else if now && !prev then [⟨e, t, true⟩]
  else if !now && prev then [⟨e, t + wid, false⟩]
  else []

/-- Counts the late instants among those computed at a fetch, and moves them to the fetch (R76). -/
def State.lateEvents (s : State) (n : Nat) : State :=
  if n = 0 then s else (s.count FTM.COUNTS_late n).raise FTM.base 4

/-- The transactions that the fes fields of an entry compute (R66, R81). -/
def State.fesJobs (s : State) (start : Nat) (fes : List Nat) : List FesJob :=
  (List.range 3).filterMap fun n =>
    let f := fes.getD n 0
    if bitsOf f 7 1 = 1 && s.flag (FTM.FES_CFG_en n) then
      some ⟨n, bitsOf f 0 6, (start : Int) + signed (s.get (FTM.FES_CFG_offset n)) 16, 0, 0, 0, false, start⟩
    else none

/-! ## Fetch and start -/

/-- The pending stop ends the frame of an entry (R84). -/
def Timer.stopsIn (t : Timer) (e : Entry) : Bool := t.stopPending && decide (t.stopFrame ≤ e.frame)

/-- What the timer fetches next (R65): list, position, frame number, frame start, fetch instant (log 115). -/
def State.nextFetch (s : State) : Option (SchedList × Nat × Nat × Nat × Nat) :=
  let t := s.timer
  match t.running, t.accepted, t.cur, t.fetched with
  | none, some l, _, _ =>
    let st := s.rd64 FTM.START_LO / 64
    some (l, 0, 0, st, st - 32768)
  | some _, _, some e, none =>
    if e.pos + 1 < e.list.count then some (e.list, e.pos + 1, e.frame, e.frameBt, e.startBt)
    else if t.stopsIn e then none
    else some (t.pending.getD e.list, 0, e.frame + 1, e.frameBt + e.list.bt, e.startBt)
  | _, _, _, _ => none

/-- An entry fetched at an instant runs under the rule of Idle (R440, R447). -/
def State.fetchedInIdle (s : State) (fetchBt : Nat) : Bool :=
  s.pwr.sleep = .idle || (match s.pwr.idleExitBt with | some t => decide (fetchBt < t) | none => false)

/-- Entry `pos` of a list as it will run (R66, R69, R440; log 116). -/
def State.entryOf (s : State) (l : SchedList) (pos frame frameBt fetchBt : Nat) : Entry :=
  let i := l.base + pos
  let w (k : Nat) : Word := s.word (schedAddr i k)
  let bad := s.timer.badEntries.contains i || (List.range 4).any fun k => s.parityBad (schedAddr i k)
  let idle := s.fetchedInIdle fetchBt
  let dir := if bad || idle then 0 else bits (w 0) 24 2
  { list := l, pos := pos, frame := frame, frameBt := frameBt
    startBt := frameBt + bits (w 0) 0 24
    dir := dir
    obs := !bad && !idle && bit (w 0) 26
    ctx := (List.range 4).map fun g => bits (w 1) (8 * g) 8
    ev := if bad then 0 else if idle then BitVec.ofNat 16 (bits (w 2) 0 16) &&& BitVec.ofNat 16 (s.get PWR.IDLE_EV_lines)
          else BitVec.ofNat 16 (bits (w 2) 0 16)
    slice := if dir = 0 then 0 else BitVec.ofNat 4 (bits (w 2) 16 4)
    gate := if bad then 0 else if idle then 0xFF else BitVec.ofNat 8 (bits (w 2) 24 8)
    fes := if bad || idle then [] else (List.range 3).map fun n => bits (w 3) (8 * n) 8
    bad := bad
    idle := idle }

/-- `ACT_LIST` and `ACT_LEN` show a list (R71). -/
def State.showList (s : State) (l : SchedList) : State :=
  ((s.set FTM.ACT_LIST_base l.base).set FTM.ACT_LIST_count l.count).set FTM.ACT_LEN_len l.len

/-- The timer fetches its next entry (R65): a failing entry is recorded as bad, what the entry fires is computed, and instants
before the fetch happen at the fetch and are counted (R76). -/
def State.timerFetch (s : State) : State :=
  match s.nextFetch with
  | none => s
  | some (l, pos, frame, frameBt, fetchBt) =>
    let s := s.atBt fetchBt
    let i := l.base + pos
    let s := if (List.range 4).any fun k => s.parityBad (schedAddr i k) then s.recordBad i else s
    let e := s.entryOf l pos frame frameBt fetchBt
    let first := s.timer.running.isNone
    let s := if first then
        (({ s with timer := { s.timer with running := some l, accepted := none, prevEv := 0, fecHold := 0 } }).showList l)
      else s
    let took := !first && pos = 0 && s.timer.pending.isSome
    let ed := (List.range 16).flatMap fun n => s.lineEdges n e.startBt (e.ev.getLsbD n) (s.timer.prevEv.getLsbD n)
    let jobs := s.fesJobs e.startBt e.fes
    let late := (ed.filter fun x => decide (x.bt < (fetchBt : Int))).length + (jobs.filter fun x => decide (x.bt < (fetchBt : Int))).length
    let s := { s with timer := { s.timer with
      fetched := some e
      taken := if took then some l else none
      pending := if took then none else s.timer.pending
      prevEv := e.ev &&& (List.range 16).foldl (fun m n => setBit m n (s.flag (FTM.EV_CFG_en n))) 0
      edges := s.timer.edges ++ ed.map (fun (x : EvEdge) => { x with bt := max x.bt (fetchBt : Int) })
      fesQueue := s.timer.fesQueue ++ jobs.map (fun (x : FesJob) => { x with bt := max x.bt (fetchBt : Int) }) } }
    (s.lateEvents late).fecUpdate

/-- The lines high at the end of the last frame fall as though an entry with their bit clear started at the frame end (R84). -/
def State.stopFalls (s : State) (endBt : Nat) : List EvEdge :=
  (List.range 16).flatMap fun n =>
    if s.timer.prevEv.getLsbD n && !s.flag (FTM.EV_CFG_pulse n) then s.lineEdges n endBt false true else []

/-- The timer stops (R84): it no longer runs, and its FEC pins take their safe levels (R77). `CTRL.run` then reads 0, after a stop at once
(R79) too (log 138). -/
def State.timerStopped (s : State) : State :=
  let t := { s with timer := { s.timer with
    running := none, cur := none, fetched := none, taken := none, stopPending := false, prevEv := 0
    past := (s.timer.cur.map fun (e : Entry) => (e.list, e.frameBt)).or s.timer.past } }
  ((t.set FTM.CUR_ENTRY_valid 0).set FTM.CTRL_run 0).fecUpdate

/-- A list that was pending is pending again, unless another has become so. -/
def State.repend (s : State) (l : SchedList) : State :=
  { s with timer := { s.timer with pending := match s.timer.pending with | some p => some p | none => some l } }

/-- An accepted start is cancelled (R84): its list becomes pending again unless another has. -/
def State.cancelStart (s : State) : State :=
  match s.timer.accepted with
  | none => s
  | some l => ({ s with timer := { s.timer with accepted := none } }.repend l).set FTM.CTRL_run 0

/-- Where an entry of a frame ends, in device-time BT: the start of the next one, or the frame end (R62). -/
def State.entryEnd (s : State) (e : Entry) : Nat :=
  if e.pos + 1 < e.list.count then
    (match s.timer.fetched with
    | some f => if f.frame = e.frame ∧ f.pos = e.pos + 1 then f.startBt else e.frameBt + s.entryStartField (e.list.base + e.pos + 1)
    | none => e.frameBt + s.entryStartField (e.list.base + e.pos + 1))
  else e.frameBt + e.list.bt

/-- An immediate stop (R79): every line low at once, unforced FEC pins to their safe levels, an accepted start cancelled. The rest of
the current entry is a gap, whose gate bits and computed transactions act (R67); a list on its way to a switch stays pending. -/
def State.immediateStop (s : State) : State :=
  if s.timer.running.isSome then
    let t := { s with timer := { s.timer with
      edges := [], depth := []
      fesQueue := match s.timer.cur with
        | some e => s.timer.fesQueue.filter fun j => decide (j.entryBt ≤ e.startBt)
        | none => []
      gap := s.timer.cur.map fun (e : Entry) => (e.gate, s.entryEnd e) } }
    (match s.timer.taken with
    | some l => t.repend l
    | none => t).timerStopped
  else s.cancelStart

/-- The fetched entry starts at its air instant (R62, R65): at position 0 a frame starts, and a new list takes over (R71). With
a stop pending and no entry fetched the timer stops at the frame end (R84). -/
def State.timerStart (s : State) : State :=
  match s.timer.fetched, s.timer.cur with
  | some e, _ =>
    let s := s.atBt e.startBt
    let switched := s.timer.taken.isSome
    let past := if e.pos = 0 then (s.timer.cur.map fun (x : Entry) => (x.list, x.frameBt)).or s.timer.past else s.timer.past
    let s := { s with timer := { s.timer with cur := some e, fetched := none, taken := none, running := some e.list, past := past } }
    let s := (s.set FTM.CUR_ENTRY_index (e.list.base + e.pos)).set FTM.CUR_ENTRY_valid 1
    let s := if e.pos = 0 then (s.wr64 FTM.FRAME_T_LO (64 * e.frameBt)).raise FTM.base 1 else s
    let s := if switched then (s.showList e.list).raise FTM.base 2 else s
    if s.timer.stopsIn e && e.pos + 1 = e.list.count then
      let ed := s.stopFalls (e.frameBt + e.list.bt)
      let late := (ed.filter fun x => decide (x.bt < (e.startBt : Int))).length
      ({ s with timer := { s.timer with
        edges := s.timer.edges ++ ed.map fun (x : EvEdge) => { x with bt := max x.bt (e.startBt : Int) } } }).lateEvents late
    else s
  | none, some e =>
    if s.timer.stopsIn e && e.pos + 1 = e.list.count then (s.atBt (e.frameBt + e.list.bt : Nat)).timerStopped else s
  | none, none => s

/-- The earliest of some computed instants, of equal ones the first computed. -/
def earliestBt {α : Type} (bt : α → Int) : List α → Option α
  | [] => none
  | x :: t => some (t.foldl (fun a b => if bt b < bt a then b else a) x)

/-- The earliest computed edge of a line in a direction (R74, R75), and the edges without it. -/
def takeEdge (e : Nat) (rise : Bool) (l : List EvEdge) : Option (EvEdge × List EvEdge) :=
  (earliestBt EvEdge.bt (l.filter fun x => x.line = e && x.rise == rise)).map fun x => (x, l.erase x)

/-- A computed edge of line e happens (R74, R75): the count of its open intervals, and the pins (R77). The second component says
whether the line itself changed level. -/
def State.lineEdge (s : State) (e : Nat) (rise : Bool) : State × Bool :=
  match takeEdge e rise s.timer.edges with
  | none => (s, false)
  | some (x, rest) =>
    let s := s.atBt x.bt
    let d := s.timer.depth.get e 0
    let d' := if rise then d + 1 else d - 1
    let t := { s with timer := { s.timer with edges := rest, depth := s.timer.depth.put e d' 0 } }
    (t.fecUpdate, (d = 0) != (d' = 0))

/-! ## Front-end serial masters (R80 to R82) -/

/-- The earliest waiting transaction of master n (R81), and the queue without it. -/
def takeFes (n : Nat) (l : List FesJob) : Option (FesJob × List FesJob) :=
  (earliestBt FesJob.bt (l.filter fun x => x.n = n)).map fun x => (x, l.erase x)

/-- The SCK period of master n in CT (R80): 245.76 MHz is a period of 32 CT. -/
def State.fesSck (s : State) (n : Nat) : Nat := 32 * (s.get (FTM.FES_CFG_div n) + 5)

/-- The instant in CT at which a transaction raises CS_N: len + 2 SCK periods after its start (R81). -/
def FesJob.endCt (j : FesJob) : Nat := (64 * j.bt).toNat + (j.len + 2) * j.sck

/-- Master n is busy. -/
def State.fesBusy (s : State) (n : Nat) : Bool := s.timer.fesBusy.any (·.n = n)

/-- The pins CS_N, CK and DO of master n (R80, R81): while a transaction runs CS_N is low; after one period with CK at rest come the
bits, most significant first, each with CK low for half a period and then high; CK rests high in mode 3 (log 91), through a warm reset as
well (R463). -/
def State.fesPins (s : State) (n : Nat) : Bool × Bool × Bool :=
  let idle := (true, s.timer.fesIdle.getLsbD n, false)
  match s.timer.fesBusy.find? fun j => j.n = n && decide (64 * j.bt ≤ (s.ct : Int)) && decide (s.ct < j.endCt) with
  | none => idle
  | some j =>
    let t := s.ct - (64 * j.bt).toNat
    let k := t / j.sck
    if k = 0 then (false, j.mode3, false)
    else if j.len < k then (false, j.mode3, false)
    else (false, decide (j.sck ≤ 2 * (t % j.sck)), j.data.getLsbD (j.len - k))

/-- A triggered transaction of master n starts at its instant: dropped as an overrun when the master is busy (R82), nothing when
the master is disabled. Its word, length, mode and divider are those of that instant (log 137). -/
def State.fesStart (s : State) (n : Nat) : State :=
  match takeFes n s.timer.fesQueue with
  | none => s
  | some (j, rest) =>
    let s := s.atBt j.bt
    let t := { s with timer := { s.timer with fesQueue := rest } }
    if !s.flag (FTM.FES_CFG_en n) then t
    else if s.fesBusy n then (t.count FTM.COUNTS_ovr 1).raise FTM.base 5
    else
      let k := 64 * n + j.slot
      let len := s.get (FTM.FES_FMT_len k) + 1
      { t with timer := { t.timer with fesBusy := t.timer.fesBusy ++
        [{ j with len := len, data := s.rd (FTM.FES_DATA k), sck := s.fesSck n, mode3 := s.flag (FTM.FES_CFG_mode3 n) }] } }

/-- The transaction of master n ends after len + 2 SCK periods: the len bits received go to `FES_RX_n` (R81). -/
def State.fesDone (s : State) (n : Nat) (rx : Word) : State :=
  match takeFes n s.timer.fesBusy with
  | none => s
  | some (j, rest) =>
    ({ s.atCt j.endCt with timer := { s.timer with fesBusy := rest } }).wr (FTM.FES_RX n) (BitVec.ofNat 32 (rx.toNat % 2 ^ j.len))

/-- Master n stops: nothing waits or runs (R49, R463). -/
def State.fesStop (s : State) (n : Nat) : State :=
  { s with timer := { s.timer with
    fesQueue := s.timer.fesQueue.filter (·.n ≠ n)
    fesBusy := s.timer.fesBusy.filter (·.n ≠ n) } }

/-! ## Run and stop (R84) -/

/-- A write of run = 1. -/
def State.timerRun (s : State) : State :=
  let t := s.timer
  match t.running, t.accepted with
  | some _, _ =>
    -- withdraws a stop that lands before the last entry of the stopping frame has started
    if t.stopPending && !(match t.cur with | some e => t.stopsIn e && e.pos + 1 = e.list.count | none => false) then
      ({ s with timer := { t with stopPending := false } }).set FTM.CTRL_run 1
    else s
  | none, some _ => s
  | none, none =>
    if !s.flag (HDR.BLK_CTRL_enable FTM.base) then s.logErr FTM.base 0x44 FTM.CTRL
    else match t.pending with
    | none => s.logErr FTM.base 0x41 FTM.CTRL
    | some l =>
      if s.rd64 FTM.START_LO < s.ct + 32768 * 64 then s.logErr FTM.base 0x42 FTM.CTRL
      else ({ s with timer := { t with accepted := some l, pending := none } }).set FTM.CTRL_run 1

/-- The frame that a stop written now ends (R84): the running one, or the next where its last entry has started, which is the instant of
the next fetch (log 56). -/
def Timer.stopFrameNow (t : Timer) : Nat :=
  match t.cur with
  | some e => if e.pos + 1 = e.list.count then e.frame + 1 else e.frame
  | none => 0

/-- A write of run = 0. -/
def State.timerStopReq (s : State) : State :=
  if s.timer.running.isSome then
    let t := if s.timer.stopPending then s.timer else { s.timer with stopPending := true, stopFrame := s.timer.stopFrameNow }
    ({ s with timer := t }).set FTM.CTRL_run 0
  else s.cancelStart

/-- A write of `FTM.CTRL` (R78, R84, R87): the clear, the FEC release, and run or stop. -/
def State.ftmCtrlWrite (s : State) (v : Word) : State :=
  let s := if bit v 1 then ((s.set FTM.COUNTS_late 0).set FTM.COUNTS_ovr 0).set FTM.COUNTS_bad 0 else s
  let s := if bit v 2 then s.fecRelease 0xFFFFFFFF#32 else s
  if bit v 0 then s.timerRun else s.timerStopReq

/-! ## TSYNC (R85, R86) -/

/-- A write of `TSYNC_CTRL.mode`. -/
def State.tsyncModeWrite (s : State) (v : Word) : State :=
  let m := bits v 0 2
  if m = 3 then s.logErr CLK.base 0x62 CLK.TSYNC_CTRL
  else if m = 1 ∧ s.timer.running.isSome then s.logErr CLK.base 0x60 CLK.TSYNC_CTRL
  else (s.set CLK.TSYNC_CTRL_mode m).set CLK.TSYNC_CTRL_armed (if m = 1 then 1 else 0)

/-- The signed distance in CT of an instant from the nearest frame start: that of the running frame or the next, and before frame 0
that of frame 0. -/
def State.frameErr (s : State) (t : Int) : Int :=
  match s.timer.cur with
  | none => (match s.timer.fetched with
    | some e => t - 64 * (e.frameBt : Int)
    | none => 0)
  | some e =>
    let a : Int := t - 64 * (e.frameBt : Int)
    let b : Int := t - 64 * ((e.frameBt + e.list.bt : Nat) : Int)
    if a ≤ -b then a else b

/-- A captured rising edge of TSYNC. An edge that finds the alignment armed under a running timer moves nothing (R86), and the mode
stays armed (log 93). The comparison takes the distance before saturation (log 119). -/
def State.tsyncEdge (s : State) : State :=
  let s := { s with timer := { s.timer with tsyncOut := true } }
  let m := s.get CLK.TSYNC_CTRL_mode
  if m = 1 then
    if s.timer.running.isSome then s
    else
    let s := s.alignTo ((s.rd64 CLK.TSYNC_LOAD_LO + 32 * s.get CLK.TSYNC_COMP_rc) % 2 ^ 64)
    ((s.set CLK.TSYNC_CTRL_mode 0).set CLK.TSYNC_CTRL_armed 0).set CLK.TSYNC_CTRL_aligned 1
  else if m = 2 then
    let s := s.wr64 CLK.TSYNC_STAMP_LO s.ct
    if s.timer.running.isSome then
      let err := s.frameErr s.ct
      let s := s.set CLK.TSYNC_ERR_err (unsigned (max (-32767) (min 32767 err)) 16)
      if err.natAbs > s.get CLK.TSYNC_ERR_limit then s.raise CLK.base 3 else s
    else s
  else s

end Sys2Proof.Machine
end

