-- ==== Sys2Proof/Machine/Clk.lean ====
section
/-!
DEFINITION. The converter clock, stands and converters (R83, R89 to R118): PLL and clock loss, band checks, gating, slice and
centre words, converter enables, equaliser commits and the calibration transmitter; and what settings are in force (R520).
-/
namespace Sys2Proof.Machine

/-! ## The running entry -/

/-- The timer runs (R84). -/
def State.running (s : State) : Bool := s.timer.running.isSome

/-- Direction of an entry as it acts: 11 without the FDD declaration behaves as downlink (R156). -/
def State.dirOf (s : State) (e : Entry) : Nat := if e.dir = 3 ∧ !s.flag BF.MODE_fdd then 1 else e.dir

/-- An entry carries downlink samples. -/
def State.isTx (s : State) (e : Entry) : Bool := s.dirOf e = 1 || s.dirOf e = 3

/-- An entry carries uplink samples. -/
def State.isRx (s : State) (e : Entry) : Bool := s.dirOf e = 2 || s.dirOf e = 3

/-- The converters of stand st that an entry gates (R83): kind 0 the ADCs, 1 the DACs, 2 the observation converter. -/
def State.entryGates (s : State) (e : Entry) (st kind : Nat) : Bool :=
  e.gate.getLsbD st ||
    (if kind = 0 then s.dirOf e = 1 && !(e.obs && e.dir = 1) else if kind = 1 then s.dirOf e = 2 else false)

/-- Converters of stand st are gated: by the running entry, or in the gap that an immediate stop has left (R79). -/
def State.gatedNow (s : State) (st kind : Nat) : Bool :=
  match s.timer.cur, s.timer.gap with
  | some e, _ => s.entryGates e st kind
  | none, some g => g.1.getLsbD st && decide (s.bt < g.2)
  | none, none => false

/-- Converters of stand st are ungated, or ungated early for the next entry. -/
def State.convOn (s : State) (st kind : Nat) : Bool := !s.gatedNow st kind || s.cnv.early.getLsbD (3 * st + kind)

/-- The gates that an entry held open or closed end with the timer (R79, R101): at once, but for those of the gap that an immediate stop
leaves, which end with it. -/
def State.gateStop (s : State) (old : Option Entry) : State :=
  match old with
  | none => s
  | some e =>
    let fin (n : Nat) : Nat := match s.timer.gap with
      | some g => if g.1.getLsbD (n / 3) then max s.ct (64 * g.2) else s.ct
      | none => s.ct
    let keys := (List.range 24).filter fun n => s.entryGates e (n / 3) (n % 3) && !s.cnv.early.getLsbD n
    { s with cnv := { s.cnv with early := 0, ungated := keys.foldl (fun m n => m.put n (fin n) 0) s.cnv.ungated } }

/-- The timer ungates stand st 32 BT before the next entry that needs it (R83). -/
def State.standUngate (s : State) (st : Nat) : State :=
  match s.timer.fetched with
  | none => s
  | some f =>
    let kinds := (List.range 3).filter fun k => s.gatedNow st k && !s.entryGates f st k && !s.cnv.early.getLsbD (3 * st + k)
    if kinds.isEmpty then s
    else
      let s := s.atBt ((f.startBt : Int) - 32)
      { s with cnv := { s.cnv with
        early := kinds.foldl (fun m k => setBit m (3 * st + k) true) s.cnv.early
        ungated := kinds.foldl (fun m k => m.put (3 * st + k) s.ct 0) s.cnv.ungated } }

/-- Gating changes as an entry starts (R83): converters that the new entry needs were ungated 32 BT before it. -/
def State.gateSwitch (s : State) (old : Option Entry) (e : Entry) : State :=
  let was (st k : Nat) : Bool := match old with | some o => s.entryGates o st k | none => false
  let keys := (List.range 24).filter fun n =>
    was (n / 3) (n % 3) && !s.entryGates e (n / 3) (n % 3) && !s.cnv.early.getLsbD n
  { s with cnv := { s.cnv with
    early := 0
    ungated := keys.foldl (fun m n => m.put n (64 * (e.startBt - 32)) 0) s.cnv.ungated } }

/-! ## Values in force (R520) -/

/-- Registers whose value takes effect at the next entry start: `BFG.SHIFT`, `TXC.SLICE_GAIN`, `CFR_CTRL`, `CFR_REF`, `CFR_BYP`
and `DPD.BYP` (R164, R176, R181, R185, R210); and the other datapath settings that are written directly (R29): `STD.PATH_DLY`,
`TXC.ENV_LIM`, `DPD.THM_CFG`. -/
def deferredRegs : List Nat :=
  (List.range 4).map BFG.SHIFT ++ (List.range 4).map TXC.SLICE_GAIN ++
    [TXC.CFR_CTRL, TXC.CFR_REF, TXC.CFR_BYP_LO, TXC.CFR_BYP_HI] ++ (List.range 8).map DPD.BYP ++
    (List.range 64).map (fun p => STD.PATH_DLY (p / 8) (p % 8)) ++ (List.range 64).map TXC.ENV_LIM ++
    (List.range 64).map (fun p => DPD.THM_CFG (p / 8) (p % 8))

/-- A new `PATH_DLY` of path p acts on samples of ADC instants from now on (R29, R109). -/
def State.dlySettle (s : State) (p : Nat) : State :=
  let f := STD.PATH_DLY_tau (p / 8) (p % 8)
  if s.get f = s.effGet f then s
  else
    let x := s.rx.paths.getD p RxPath.reset
    { s with rx := { s.rx with paths := s.rx.paths.set p { x with dlyWas := wasPut x.dlyWas s.ct (s.effGet f) } } }

/-- Every deferred setting takes effect; Θ decays with a new K from here (R200). -/
def State.refreshEff (s : State) : State :=
  let t := (List.range 64).foldl (fun t p => t.thetaSettle p (t.get (DPD.THM_CFG_k (p / 8) (p % 8)))) s
  let t := (List.range 64).foldl (fun t p => t.dlySettle p) t
  { t with eff := deferredRegs.foldl (fun m a => m.put a (s.rd a) (coldWord s.otp a)) s.eff }

/-- A deferred setting was written: in force at once while the timer is not running (R520). -/
def State.refreshIfStopped (s : State) : State := if s.running then s else s.refreshEff

/-! ## The converter clock (R90 to R93) -/

/-- Converters are enabled, in the sense of R91. -/
def State.convertersOn (s : State) : Bool :=
  ((List.range 8).any fun st => s.get (STD.CNV_CTRL_adc st) != 0 || s.get (STD.CNV_CTRL_dac st) != 0 || s.flag (STD.OBS_CTRL_en st)) ||
    s.flag TXC.CAL_CTRL_en

/-- A write of `PLL_CTRL` (R90, R91). -/
def State.pllCtrlWrite (s : State) (v : Word) : State :=
  if s.convertersOn ∧ (!bit v 0 ∨ bits v 1 1 ≠ s.get CLK.PLL_CTRL_half) then s.logErr CLK.base 0x61 CLK.PLL_CTRL
  else
    let t := (s.set CLK.PLL_CTRL_en (bits v 0 1)).set CLK.PLL_CTRL_half (bits v 1 1)
    if bit v 0 then t else t.set CLK.PLL_STAT_locked 0

/-- The PLL achieves lock: enabled, REFCLK present, in Run or Idle (R90). -/
def State.pllLocked (s : State) : State :=
  if s.flag CLK.PLL_CTRL_en ∧ s.refclk ∧ (s.pwr.sleep = .run ∨ s.pwr.sleep = .idle) ∧ !s.flag CLK.PLL_STAT_locked then
    let t := s.set CLK.PLL_STAT_locked 1
    -- the DACs leave the balance switch at the first symbol boundary after lock; with the timer stopped, at once (R520)
    if t.running then t else { t with cnv := { t.cnv with lost := false } }
  else s

/-- The actions of a loss of lock (R93): the count, event bit 1, silence until the first symbol boundary after lock. -/
def State.clockLost (s : State) : State :=
  let t := ((s.set CLK.PLL_STAT_locked 0).count CLK.LOCK_LOSS_COUNT_count 1).raise CLK.base 1
  { t with cnv := { t.cnv with lost := true } }

/-- The converter PLL loses lock with REFCLK present (R93). -/
def State.pllLockLoss (s : State) : State :=
  if s.refclk ∧ s.flag CLK.PLL_STAT_locked then s.clockLost else s

/-- REFCLK is found absent (R93): as for loss of lock, device time stops and the timer's enable clears; the timer's immediate stop (R79)
is in Entry.lean (log 62). -/
def State.refclkLoss (s : State) : State :=
  if s.refclk then
    let t := ({ s with refclk := false }).clockLost.raise CLK.base 2
    t.set (HDR.BLK_CTRL_enable FTM.base) 0
  else s

/-- REFCLK returns (R93); the PLL then relocks, and a halted release continues (R458). -/
def State.refclkReturn (s : State) : State :=
  if s.refclk then s
  else { s with refclk := true, rst := { s.rst with stepAt := s.now } }

/-! ## Band centres and band checks (R94 to R99) -/

/-- A 48-bit frequency word (R94). -/
def State.freq (s : State) (lo : Nat) : Nat := s.rd64 lo % 2 ^ 48

/-- Address of the LO register of slice i's word on stand st. -/
def sliceWordAddr (tx : Bool) (st i : Nat) : Nat := if tx then STD.TX_NCO_LO st i else STD.RX_NCO_LO st i
/-- Address of the LO register of a direction's centre word on stand st. -/
def centreAddr (tx : Bool) (st : Nat) : Nat := if tx then STD.TX_CENTRE_LO st else STD.RX_CENTRE_LO st

/-- Rate code of slice i. -/
def State.sliceRate (s : State) (tx : Bool) (i : Nat) : Nat := if tx then s.get (TXC.SLICE_CFG_rate i) else s.get (RXC.SLICE_CFG_rate i)
/-- Preset code of slice i. -/
def State.slicePreset (s : State) (tx : Bool) (i : Nat) : Nat :=
  if tx then s.get (TXC.SLICE_CFG_preset i) else s.get (RXC.SLICE_CFG_preset i)

/-- Half the usable bandwidth in Hz (R130): 0.41, 0.40 or 0.375 of the rate 30.72 MHz × 2^n. -/
def halfBand (preset n : Nat) : Nat := (if preset = 0 then 12595200 else if preset = 1 then 12288000 else 11520000) * 2 ^ n

/-- The zone of a centre word (R95): 1, 2, or 0 where it lies in none. -/
def zoneOf (half : Bool) (w : Nat) : Nat :=
  if half then (if w < 2 ^ 46 then 1 else if w < 2 ^ 47 then 2 else 0) else (if w < 2 ^ 47 then 1 else 2)

/-- Limits in Hz of slice bands in a zone (R95). -/
def zoneSpan (half : Bool) (zone : Nat) : Nat × Nat :=
  if half then (if zone = 1 then (400000000, 1906080000) else (2026080000, 3872160000))
  else (if zone = 1 then (400000000, 3872160000) else (3992160000, 7125000000))

/-- The converters of a direction enabled on stand st. -/
def State.convMask (s : State) (tx : Bool) (st : Nat) : Nat := if tx then s.get (STD.CNV_CTRL_dac st) else s.get (STD.CNV_CTRL_adc st)

/-- The check of R96 that slice i fails on stand st with the converters `en` enabled: 0 none, 1 window, 2 zone span, 3 mismatch (log 123).
-/
def State.bandCheck (s : State) (en : Nat → Nat) (tx : Bool) (i st : Nat) : Nat :=
  if en st = 0 then 0
  else
    let w := s.freq (sliceWordAddr tx st i)
    let c := s.freq (centreAddr tx st)
    let h := halfBand (s.slicePreset tx i) (s.sliceRate tx i)
    let f0 := 7864320000
    let half := s.flag CLK.PLL_CTRL_half
    let zone := zoneOf half c
    let span := zoneSpan half zone
    let ref := match (List.range 8).find? fun k => en k != 0 with | some k => s.freq (sliceWordAddr tx k i) | none => w
    let d := if w ≥ c then w - c else c - w
    if d * f0 + h * 2 ^ 48 > 200000000 * 2 ^ 48 then 1
    else if zone = 0 ∨ w * f0 < (span.1 + h) * 2 ^ 48 ∨ w * f0 + h * 2 ^ 48 > span.2 * 2 ^ 48 then 2
    else if w ≠ ref then 3 else 0

/-- The lowest stand on which slice i fails a check, with the check. -/
def State.bandFail (s : State) (tx : Bool) (i : Nat) : Option (Nat × Nat) :=
  ((List.range 8).map fun st => (st, s.bandCheck (s.convMask tx) tx i st)).find? fun p => p.2 != 0

/-- Logs a failed band check (R96): the stand's page and `BAND_ERR`. -/
def State.logBand (s : State) (tx : Bool) (i st check : Nat) : State :=
  let t := s.logErr (STD.base st) (if check = 3 then 0x44 else 0x45) (sliceWordAddr tx st i)
  ((t.set (STD.BAND_ERR_slice st) i).set (STD.BAND_ERR_dir st) (if tx then 1 else 0)).set (STD.BAND_ERR_check st) check

/-- Slice i of a direction. -/
def State.slice (s : State) (tx : Bool) (i : Nat) : Slice := (if tx then s.txSlices else s.rxSlices).getD i Slice.reset

/-- The slice is under its start check, armed or started. -/
def Slice.active (c : Slice) : Bool := c.phase != .stopped
/-- The slice is armed or started. -/
def Slice.live (c : Slice) : Bool := match c.phase with | .armed _ => true | .started _ => true | _ => false
/-- The slice is started. -/
def Slice.isStarted (c : Slice) : Bool := match c.phase with | .started _ => true | _ => false

/-- The instant at which the slice started. -/
def Slice.startCt (c : Slice) : Nat := match c.phase with | .started t => t | _ => 0

/-- Some slice of a direction is armed or started. -/
def State.anyLive (s : State) (tx : Bool) : Bool := (if tx then s.txSlices else s.rxSlices).any Slice.live

/-- A slice or centre word at a LO address of page STD is held by a running slice or converter (R97). -/
def State.wordHeld (s : State) (st off : Nat) : Bool :=
  if off = 0x48 then s.rxSlices.any Slice.active
  else if off = 0x50 then s.txSlices.any Slice.active
  else if off = 0x58 then s.flag (STD.OBS_CTRL_en st)
  else if 0x80 ≤ off ∧ off < 0xC0 then (s.slice (off % 16 = 8) ((off - 0x80) / 16)).active
  else false

/-- The whole of a slice or centre word is written (R97, at the LO write of R45). -/
def State.sliceWordSet (s : State) (a v : Nat) : State :=
  let st := (a - STD.base 0) / 0x1000
  if s.wordHeld st (a % 0x1000) then s.logErr (STD.base st) 0x46 a else s.wr64 a (v % 2 ^ 48)

/-- DACs of stand st take their mode from the zone as they are enabled (R103). -/
def State.dacModes (s : State) (st on : Nat) : State :=
  let mix := zoneOf (s.flag CLK.PLL_CTRL_half) (s.freq (STD.TX_CENTRE_LO st)) = 2
  { s with cnv := { s.cnv with
    dacMix := (List.range 8).foldl (fun m u => if on.testBit u then setBit m (8 * st + u) mix else m) s.cnv.dacMix } }

/-- A converter of stand st that is disabled in a symbol is excluded from it (R143, R194). -/
def State.excluded (s : State) (st : Nat) : State :=
  let rx := s.get (STD.CNV_CTRL_adc st) != 255
  let tx := s.get (STD.CNV_CTRL_dac st) != 255
  { s with
    rx := { s.rx with syms := s.rx.syms.map fun (y : RxSym) => if y.endBt.isNone && rx then { y with excl := true } else y }
    tx := { s.tx with syms := s.tx.syms.map fun (y : TxSym) => if y.checked && tx then { y with excl := true } else y } }

/-- Enables of the converters of stand st take new values: the ADC enables that were stay known for the samples on their way. -/
def State.convSet (s : State) (st adc dac : Nat) : State :=
  let old := s.get (STD.CNV_CTRL_adc st)
  let paths := (s.rx.paths.zip (List.range 64)).map fun (x : RxPath × Nat) =>
    if x.2 / 8 = st ∧ old.testBit (x.2 % 8) ≠ adc.testBit (x.2 % 8) then
      { x.1 with adcWas := wasPut x.1.adcWas s.ct (old.testBit (x.2 % 8)) }
    else x.1
  let on := dac &&& (255 - s.get (STD.CNV_CTRL_dac st))
  let t := ({ s with rx := { s.rx with paths := paths } }.set (STD.CNV_CTRL_adc st) adc).set (STD.CNV_CTRL_dac st) dac
  (t.dacModes st on).excluded st

/-- A write of `CNV_CTRL` (R128, R174): refused where it would enable a converter for a live slice that fails a band check. -/
def State.cnvCtrlWrite (s : State) (st : Nat) (v : Word) : State :=
  let bad (tx : Bool) (old new : Nat) : Bool :=
    new &&& (255 - old) != 0 && ((List.range 4).any fun i =>
      (s.slice tx i).live && (List.range 8).any fun u => s.bandCheck (fun k => if k = st then new else s.convMask tx k) tx i u != 0)
  if bad false (s.get (STD.CNV_CTRL_adc st)) (bits v 0 8) || bad true (s.get (STD.CNV_CTRL_dac st)) (bits v 8 8) then
    s.logErr (STD.base st) 0x45 (STD.CNV_CTRL st)
  else s.convSet st (bits v 0 8) (bits v 8 8)

/-- A write of `OBS_CTRL` (R105): the enable needs claim 32 + s. -/
def State.obsCtrlWrite (s : State) (id : ReqId) (st : Nat) (v : Word) : State :=
  if s.flag (STD.OBS_CTRL_en st) ∧ !s.holds id (32 + st) then s.logErr (STD.base st) 0x03 (STD.OBS_CTRL st)
  else (s.set (STD.OBS_CTRL_follow st) (bits v 1 1)).enableIf (s.holds id (32 + st)) (STD.OBS_CTRL_en st) (bits v 0 1)

/-- A write of `DAC_FS_u` (R102): codes 0 to 40. -/
def State.dacFsWrite (s : State) (st u : Nat) (v : Word) : State :=
  if bits v 0 6 > 40 then s.logErr (STD.base st) 0x47 (STD.DAC_FS st u) else s.set (STD.DAC_FS_code st u) (bits v 0 6)

/-- `CNV_STAT` (R101). -/
def State.cnvStat (s : State) (st : Nat) : Nat :=
  let ok (k : Nat) : Bool := s.flag CLK.PLL_STAT_locked && s.on (14 + st) && !s.gatedNow st k &&
    s.cnv.ungated.get (3 * st + k) 0 + (if s.cnv.ungated.get (3 * st + k) 0 = 0 then 0 else 2048) ≤ s.ct
  (if ok 0 then s.get (STD.CNV_CTRL_adc st) else 0) + (if ok 1 then 256 * s.get (STD.CNV_CTRL_dac st) else 0) +
    (if ok 2 then 65536 * s.get (STD.OBS_CTRL_en st) else 0)

/-- `ZONE` (R116). -/
def State.zoneWord (s : State) (st : Nat) : Nat :=
  let half := s.flag CLK.PLL_CTRL_half
  let z (a : Nat) : Nat := zoneOf half (s.freq a)
  let obs := if s.flag (STD.OBS_CTRL_follow st) then STD.TX_CENTRE_LO st else STD.OBS_CENTRE_LO st
  let two (a : Nat) : Nat := if z a = 2 then 1 else 0
  let no (a : Nat) : Nat := if z a = 0 then 1 else 0
  two (STD.RX_CENTRE_LO st) + 2 * two (STD.TX_CENTRE_LO st) + 4 * two obs +
    8 * no (STD.RX_CENTRE_LO st) + 16 * no (STD.TX_CENTRE_LO st) + 32 * no obs

/-! ## Converters -/

/-- The converters are out of standby: in Run, and in Idle until the first entry that runs under its rule starts (R444). -/
def State.awake (s : State) : Bool :=
  s.pwr.sleep == .run || (s.pwr.sleep == .idle && (match s.timer.cur with | some e => !e.idle | none => false))

/-- ADC u of stand st digitises (R101): enabled, clocked, its domain on, not gated. -/
def State.adcRuns (s : State) (p : Nat) : Bool :=
  let st := p / 8
  (s.get (STD.CNV_CTRL_adc st)).testBit (p % 8) && s.flag CLK.PLL_STAT_locked && s.on (14 + st) && s.awake && s.convOn st 0

/-- VCNV_A or VCNV_B is out of its window (R504). -/
def State.vcnvOut (s : State) : Bool := s.pwr.railsOut.contains .vcnvA || s.pwr.railsOut.contains .vcnvB

/-- No sample enters the fabric from an ADC (R93, R504): the converter clock is lost and not locked again, or a rail is out. -/
def State.adcSilent (s : State) : Bool := (s.cnv.lost && !s.flag CLK.PLL_STAT_locked) || s.vcnvOut

/-- Symbols are clock-loss symbols and the DACs are at the balance switch (R93, R144, R193, R504): until the first symbol boundary after
lock, or after the rail has returned. -/
def State.clockDown (s : State) : Bool := s.cnv.lost || s.cnv.railLost || s.vcnvOut

/-- The converters take samples on this tick: every tick, and in half-rate mode every even one (R91, R92). -/
def State.cnvTick (s : State) : Bool := !s.flag CLK.PLL_CTRL_half || s.ct % 2 = 0

/-- DAC of path p is at the balance switch (R104, R93, R504): zero differential output without a code. -/
def State.dacBalance (s : State) (p : Nat) : Bool :=
  !(s.get (STD.CNV_CTRL_dac (p / 8))).testBit (p % 8) || !s.on (14 + p / 8) || s.clockDown

/-! ## Path alignment (R106 to R109) -/

/-- The active equaliser tap n of path 8 st + u, slice i (R107). -/
def State.eqTap (s : State) (st u i n : Nat) : Word :=
  let a := STD.EQ st (64 * u + 16 * i + n)
  s.cnv.eqAct.get a (coldWord s.otp a)

/-- The tap that is active for the sample of an ADC instant: a set takes effect with the samples of an entry (R29, R108). -/
def State.eqTapAt (s : State) (st u i n ct : Nat) : Word :=
  let a := STD.EQ st (64 * u + 16 * i + n)
  (wasAt s.cnv.eqWas s.cnv.eqAct ct).get a (coldWord s.otp a)

/-- The staged set of path u, slice i of stand st becomes active (R108). -/
def State.eqApply (s : State) (st u i : Nat) : State :=
  { s with cnv := { s.cnv with eqAct := (List.range 16).foldl (fun m n =>
      let a := STD.EQ st (64 * u + 16 * i + n)
      m.put a (s.rd a) (coldWord s.otp a)) s.cnv.eqAct } }

/-- A write of `EQ_COMMIT` (R108): at once unless the slice is started and the timer runs. -/
def State.eqCommit (s : State) (st : Nat) (v : Word) : State :=
  (List.range 32).foldl (fun t n =>
    if bit v n then
      (if (t.slice false (n % 4)).isStarted && t.running then t.set ⟨STD.EQ_COMMIT st, n, 1⟩ 1
       else (t.eqApply st (n / 4) (n % 4)).set ⟨STD.EQ_COMMIT st, n, 1⟩ 0)
    else t) s

/-- Waiting equaliser sets take effect at an entry start (R108; log 120). A commit that waits as the timer stops keeps waiting, for the first entry
of the next run (log 120). -/
def State.eqEntry (s : State) : State :=
  let s := if (List.range 8).all fun st => s.rd (STD.EQ_COMMIT st) = 0 then s
    else { s with cnv := { s.cnv with eqWas := wasPut s.cnv.eqWas s.ct s.cnv.eqAct } }
  (List.range 8).foldl (fun t st =>
    let c := t.rd (STD.EQ_COMMIT st)
    if c = 0 then t
    else ((List.range 32).foldl (fun t n => if bit c n then t.eqApply st (n / 4) (n % 4) else t) t).wr (STD.EQ_COMMIT st) 0) s

/-! ## The calibration transmitter (R111 to R113) -/

/-- Landing address of word n of the sequence. -/
def CalPlay.addr (c : CalPlay) (n : Nat) : Nat := 0x20000000 + 4096 * c.base + 4 * n

/-- A detection in the Landing (R226). -/
def State.landingDetect (s : State) (a : Nat) : State :=
  ((s.count LND.DET_COUNT_count 1).wr LND.DET_ADDR (BitVec.ofNat 32 a)).raise LND.base 3

/-- A start of the calibration transmitter (R112): dropped while a play runs (log 121). -/
def State.calStart (s : State) : State :=
  match s.cnv.play with
  | some _ => s.count TXC.CAL_STAT_dropped 1
  | none =>
    if !s.flag TXC.CAL_CTRL_en then s
    else
      let c : CalPlay := ⟨s.ct, s.get TXC.CAL_SEQ_base, s.get TXC.CAL_SEQ_len + 1, s.get TXC.CAL_PLAY_reps,
        s.get TXC.CAL_PLAY_atten, s.freq TXC.CAL_NCO_LO, [], 0, []⟩
      let bad := (List.range c.len).filter fun n => s.parityBad (c.addr n)
      let t := (s.set TXC.CAL_STAT_playing 1).set TXC.CAL_STAT_invalid (if bad.isEmpty then 0 else 1)
      let t := bad.foldl (fun t n => t.landingDetect (c.addr n)) t
      { t with cnv := { t.cnv with play := some { c with bad := bad } } }

/-- A word of the sequence fails its check as the play reads it (R113). -/
def State.calWord (s : State) (c : CalPlay) (n : Nat) : State × CalPlay :=
  if c.bad.contains n ∨ !s.parityBad (c.addr n) then (s, c)
  else ((s.set TXC.CAL_STAT_invalid 1).landingDetect (c.addr n), { c with bad := c.bad ++ [n] })

/-- The release instant of sample k of a play: 128 BT after the start, then every BT; on even ticks in half-rate mode (R92, R112).
The 128 BT of R112 stand in half-rate mode too: the 96 CT of R92 are not added to them (log 139). -/
def State.calCt (s : State) (c : CalPlay) (k : Nat) : Nat :=
  let t := c.startCt + 8192 + 64 * k
  if s.flag CLK.PLL_CTRL_half then (t + 1) / 2 * 2 else t

/-- The output band of a play, its word ± 49.152 MHz, lies in a zone span (R95, R111). -/
def State.calBand (s : State) (w : Nat) : Bool :=
  let half := s.flag CLK.PLL_CTRL_half
  let span := zoneSpan half (zoneOf half w)
  zoneOf half w != 0 && decide ((span.1 + 49152000) * 2 ^ 48 ≤ w * 7864320000 ∧ w * 7864320000 + 49152000 * 2 ^ 48 ≤ span.2 * 2 ^ 48)

/-- The largest y below 2^b with (2 y − 1)^20 × m ≤ n. -/
def root20 : Nat → Nat → Nat → Nat → Nat
  | 0, _, _, r => r
  | b + 1, n, m, r => if (2 * (r + 2 ^ b) - 1) ^ 20 * m ≤ n then root20 b n m (r + 2 ^ b) else root20 b n m r

/-- v / d reduced by a dB and rounded to an integer of 14 bits: 10^(a/20) is exact in its 20th power (R111). The rounding is to
the nearest code, a tie away from zero (log 140). -/
def attenuate (v : Int) (d a : Nat) : Int :=
  let y : Int := (root20 14 ((2 * v.natAbs) ^ 20) (d ^ 20 * 10 ^ a) 0 : Nat)
  sat (if v < 0 then -y else y) 14

/-- The calibration transmitter's gate releases nothing, and its converter stands by (R438, R440): in Idle. -/
def State.calHeld (s : State) : Bool := !s.awake || (match s.timer.cur with | some e => e.idle | none => false)

/-- The calibration transmitter is silent (R104, R113): under clock loss, in an uplink entry, with the whole device muted, from a deficit or
a detection of its gate to the symbol's end, and in Idle. -/
def State.calSilent (s : State) : Bool :=
  s.clockDown || (match s.timer.cur with | some e => s.dirOf e == 2 | none => false) || s.tx.devMuted || s.cnv.calLate || s.cnv.calLost ||
    s.calHeld

/-- The code at CALO now (R111, R113): zero differential outside a play, while silent, and where the output band leaves the zone span
(log 95). -/
def State.calOut (s : State) : Int :=
  match s.cnv.play with
  | none => 0
  | some c =>
    let half := s.flag CLK.PLL_CTRL_half
    let n := if half then 32 else 64
    let from_ := s.calCt c (c.k - 1)
    if c.k = 0 ∨ s.ct < from_ ∨ s.calSilent ∨ !s.calBand c.w then 0
    else
      let r := interpSum (Config.calInterpolator half) n (min (n - 1) ((s.ct - from_) * n / 64)) c.hist
      let o := Config.carrier (c.w * s.ct % 2 ^ 48 / 2 ^ 28)
      if r.2 = 0 then 0 else attenuate (r.1.mul o).i (r.2 * 2 ^ 32) c.atten

/-- The play stops: the calibration transmitter outputs zero. -/
def State.calStop (s : State) : State :=
  { s.set TXC.CAL_STAT_playing 0 with cnv := { s.cnv with play := none } }

/-- A play ends after its repetitions (R111, R112). -/
def State.calPlayEnd (s : State) : State :=
  match s.cnv.play with
  | none => s
  | some c => (s.atCt (s.calCt c (c.len * c.reps))).calStop

/-- A write of `CAL_CTRL` (R112, R118): needs claim 43; clearing the enable stops a play. -/
def State.calCtrlWrite (s : State) (id : ReqId) (v : Word) : State :=
  if !s.holds id 43 then s.logErr TXC.base 0x03 TXC.CAL_CTRL
  else
    let t := (s.set TXC.CAL_CTRL_line (bits v 4 4)).set TXC.CAL_CTRL_en (bits v 0 1)
    let t := if bit v 0 then t else if t.cnv.play.isSome then t.calStop else t
    if bit v 1 then t.calStart else t

/-- Writes to the other registers of the calibration transmitter: while it is enabled they need claim 43 (R49). -/
def State.calRegWrite (s : State) (id : ReqId) (a : Nat) (f : State → State) : State :=
  if s.flag TXC.CAL_CTRL_en ∧ !s.holds id 43 then s.logErr TXC.base 0x03 a else f s

/-- A write of `CAL_SEQ` (R111): refused where the sequence passes the end of the Landing or is shorter than 16 samples (log 122). -/
def State.calSeqWrite (s : State) (id : ReqId) (v : Word) : State :=
  s.calRegWrite id TXC.CAL_SEQ fun t =>
    if bits v 16 12 < 15 then t.logErr TXC.base 0x47 TXC.CAL_SEQ
    else if 4096 * bits v 0 11 + 4 * (bits v 16 12 + 1) > 0x800000 then t.logErr TXC.base 0x48 TXC.CAL_SEQ
    else (t.set TXC.CAL_SEQ_base (bits v 0 11)).set TXC.CAL_SEQ_len (bits v 16 12)

/-- A write of `CAL_PLAY` (R118). -/
def State.calPlayWrite (s : State) (id : ReqId) (v : Word) : State :=
  s.calRegWrite id TXC.CAL_PLAY fun t =>
    if bits v 0 8 = 0 then t.logErr TXC.base 0x47 TXC.CAL_PLAY
    else (t.set TXC.CAL_PLAY_reps (bits v 0 8)).set TXC.CAL_PLAY_atten (bits v 8 6)

/-! ## Commands -/

/-- Meaning of STAND_UNGATE. -/
def execStandUngate (st : Fin 8) (s : State) : Host.Outcome State Fault Refusal := .next (s.standUngate st)

/-- Meaning of PLL_ENABLE_WRITE: a write of `PLL_CTRL`. -/
def execPllEnableWrite (id : ReqId) (data : Word) (s : State) : Host.Outcome State Fault Refusal :=
  .next (s.writeCmd id CLK.PLL_CTRL data (·.pllCtrlWrite data))

/-- Meaning of HALF_RATE_WRITE: a write of `PLL_CTRL`. -/
def execHalfRateWrite (id : ReqId) (data : Word) (s : State) : Host.Outcome State Fault Refusal :=
  .next (s.writeCmd id CLK.PLL_CTRL data (·.pllCtrlWrite data))

/-- Meaning of PLL_LOCKED. -/
def execPllLocked (s : State) : Host.Outcome State Fault Refusal := .next s.pllLocked

/-- Meaning of REFCLK_RETURN. -/
def execRefclkReturn (s : State) : Host.Outcome State Fault Refusal := .next s.refclkReturn

/-- Meaning of CNV_CTRL_WRITE. -/
def execCnvCtrlWrite (id : ReqId) (st : Fin 8) (data : Word) (s : State) : Host.Outcome State Fault Refusal :=
  .next (s.writeCmd id (STD.CNV_CTRL st) data (·.cnvCtrlWrite st data))

/-- Meaning of EQ_COMMIT. -/
def execEqCommit (id : ReqId) (st : Fin 8) (data : Word) (s : State) : Host.Outcome State Fault Refusal :=
  .next (s.writeCmd id (STD.EQ_COMMIT st) data (·.eqCommit st data))

/-- Meaning of CAL_GO: a write of `CAL_CTRL`. -/
def execCalGo (id : ReqId) (data : Word) (s : State) : Host.Outcome State Fault Refusal :=
  .next (s.writeCmd id TXC.CAL_CTRL data (·.calCtrlWrite id data))

/-- Meaning of CAL_PLAY_END. -/
def execCalPlayEnd (s : State) : Host.Outcome State Fault Refusal := .next s.calPlayEnd

end Sys2Proof.Machine
end

