-- ==== Sys2Proof/Machine/Bf.lean ====
section
/-!
DEFINITION. The beamformer (R146 to R173): the unit budget, contexts and their seals, selection and preload at a fetch,
fallback buffers, marks and recompute requests, and the two sums.
-/
namespace Sys2Proof.Machine

/-! ## The budget (R150, R151, R432) -/

/-- The slice that feeds group g (R147). -/
def State.sliceOf (s : State) (g : Nat) : Nat :=
  if g = 2 ∧ s.flag BF.JOIN_en_0 then 0 else if g = 3 ∧ s.flag BF.JOIN_en_1 then 1 else g

/-- Antenna mode in a direction (R170). -/
def State.antenna (s : State) (tx : Bool) : Bool := s.flag (if tx then BF.MODE_ant_tx else BF.MODE_ant_rx)

/-- Port count of group g in a direction (R146); in antenna mode group 0 has 64 ports and the others none (R170). -/
def State.ports (s : State) (tx : Bool) (g : Nat) : Nat :=
  if s.antenna tx then (if g = 0 then 64 else 0)
  else s.get (if tx then BFG.PORTS_tx g else BFG.PORTS_rx g)

/-- Units in use in a direction (R150). -/
def State.units (s : State) (tx : Bool) : Nat :=
  if s.antenna tx then 64 * 2 ^ s.sliceRate tx 0
  else (List.range 4).foldl (fun a g => a + s.ports tx g * 2 ^ s.sliceRate tx (s.sliceOf g)) 0

/-- Unit capacity of a level for the declared duplexing (R431); none where the level has TDD only. -/
def unitCap (lvl : Nat) (fdd : Bool) : Option Nat :=
  if lvl = 0 then (if fdd then none else some 64) else if lvl = 1 then (if fdd then none else some 128)
  else if lvl = 2 then some (if fdd then 128 else 256) else some 256

/-- Predistortion term limit of a level (R199). -/
def termCap (lvl : Nat) : Nat := if lvl = 0 then 16 else if lvl = 1 then 24 else if lvl = 2 then 32 else 40

/-- The level that configuration writes are checked against (R433): the lower of old and target while a change runs. -/
def State.checkLevel (s : State) : Nat :=
  match s.pwr.change with
  | some c => min c.old c.target
  | none => s.get PWR.PL_STAT_cur

/-- Both directions lie within the budget of the level in force (R150). -/
def State.budgetOk (s : State) : Bool :=
  match unitCap s.checkLevel (s.flag BF.MODE_fdd) with
  | some c => s.units false ≤ min c 256 && s.units true ≤ min c 256
  | none => false

/-- A configuration write under the budget check of R151: it has no effect where the result would exceed the budget. -/
def State.budgeted (s : State) (a : Nat) (t : State) : State := if t.budgetOk then t else s.logErr BF.base 0x07 a

/-- The largest term count in use (R199, R432). -/
def State.termsInUse (s : State) : Nat :=
  if s.flag (DPD.CTRL_en 0) then
    (List.range 8).foldl (fun a st => max a (max (s.get (DPD.TERMS_a st)) (s.get (DPD.TERMS_b st)))) 0
  else 0

/-- The need level (R432). -/
def State.needLevel (s : State) : Nat :=
  let u := max (s.units false) (s.units true)
  let ok (l : Nat) : Bool := (match unitCap l (s.flag BF.MODE_fdd) with | some c => decide (u ≤ c) | none => false) && s.termsInUse ≤ termCap l
  if ok 0 then 0 else if ok 1 then 1 else if ok 2 then 2 else if ok 3 then 3 else 4

/-! ## Contexts (R152 to R155) -/

/-- Address of the weight of context x, row v, path p (R152). -/
def weightAddr (x v p : Nat) : Nat := 0x30000000 + x * 0x4000 + v * 0x100 + 4 * p

/-- Context x. -/
def State.wctx (s : State) (x : Nat) : Ctx := s.bf.ctxs.getD x ⟨false, 0⟩
/-- Stores context x. -/
def State.setCtx (s : State) (x : Nat) (c : Ctx) : State := { s with bf := { s.bf with ctxs := s.bf.ctxs.set x c } }

/-- Marks a row of a sealed context (R165) and places a recompute request (R168); sources 0 preload, 1 seal, 2 Cruiser, 3 read. -/
def State.markRow (s : State) (x v src : Nat) : State :=
  let c := s.wctx x
  if c.isOpen || c.marks.getLsbD v then s
  else
    let t := s.setCtx x { c with marks := setBit c.marks v true }
    if t.bf.rcmp.length < 16 then
      ({ t with bf := { t.bf with
          rcmp := t.bf.rcmp ++ [BitVec.ofNat 32 (x + 0x100 * v + 0x10000 * src + 0x80000000)] } }).raise BF.base 1
    else (t.count BF.RCMP_COUNT_lost 1).raise BF.base 2

/-- Row v of context x has a word that fails its check. -/
def State.rowBad (s : State) (x v : Nat) : Bool := (List.range 64).any fun p => s.parityBad (weightAddr x v p)

/-- The words of a row. -/
def State.rowWords (s : State) (x v : Nat) : List Word := (List.range 64).map fun p => s.word (weightAddr x v p)

/-- The group selections and fallbacks that hold contexts, lowest group first (R157): the running and the fetched entry; with the
beamformer enabled the fallback contexts and the pending changes. -/
def State.bfRefs (s : State) : List (Nat × Nat) :=
  let sels (l : List (Option Sel)) (live : Bool) : List (Nat × Nat) :=
    if live then (List.range 8).filterMap fun k =>
      (match l.getD k none with
      | some e => e.named.map fun x => (k / 2, x)
      | none => none)
    else []
  let fbs : List (Nat × Nat) :=
    if s.flag (HDR.BLK_CTRL_enable BF.base) then
      (List.range 8).flatMap fun k =>
        (k / 2, (s.bf.fb.getD k ⟨0, []⟩).ctx) :: (match s.bf.fbNew.getD k none with | some (_, b) => [(k / 2, b.ctx)] | none => [])
    else []
  sels s.bf.cur s.timer.cur.isSome ++ sels s.bf.next s.timer.fetched.isSome ++ fbs

/-- The lowest group that holds context x. -/
def State.refGroup (s : State) (x : Nat) : Option Nat :=
  (List.range 4).find? fun g => s.bfRefs.any fun r => r.1 = g && r.2 = x

/-- Context x is referenced (R157). -/
def State.referenced (s : State) (x : Nat) : Bool := (s.refGroup x).isSome

/-- Context x is being sealed. -/
def State.isSealing (s : State) (x : Nat) : Bool := match s.bf.sealing with | some (y, _) => x = y | none => false

/-- A write of a weight word (R154, R158): refused while its context is sealing or referenced; else it opens the context. -/
def State.weightWrite (s : State) (a : Nat) (v : Word) : State :=
  let x := (a - 0x30000000) / 0x4000
  if s.isSealing x then s.logErr BF.base 0x43 a
  else match s.refGroup x with
  | some g => s.logErr (BFG.base g) 0x09 a
  | none => (s.setParityWord a v).setCtx x { s.wctx x with isOpen := true }

/-- A read of a weight word (R153, R165): a failing word reads 0 and marks its row. -/
def State.weightRead (s : State) (a : Nat) : State :=
  if s.parityBad a then (s.markRow ((a - 0x30000000) / 0x4000) ((a - 0x30000000) / 0x100 % 64) 3).detected
  else s.answerW (s.word a)

/-- A write of `SEAL` (R154). While another seal is busy the code is 0x43 whatever the context, one already sealed included (log 141). -/
def State.sealWrite (s : State) (v : Word) : State :=
  let x := bits v 0 8
  if x ≥ 160 then s.logErr BF.base 0x42 BF.SEAL
  else if s.bf.sealing.isSome then s.logErr BF.base 0x43 BF.SEAL
  else if !(s.wctx x).isOpen then s
  else match s.refGroup x with
  | some g => s.logErr (BFG.base g) 0x09 BF.SEAL
  | none => { s.set BF.SEAL_STAT_busy 1 with bf := { s.bf with sealing := some (x, s.bt + 16) } }

/-- The seal completes (R154): marks cleared, every row checked, the context sealed. Until then `SEAL_STAT.x` and `marked` show the seal
before (log 145). -/
def State.sealDone (s : State) : State :=
  match s.bf.sealing with
  | none => s
  | some (x, t) =>
    let s := s.atBt t
    let s := ({ s with bf := { s.bf with sealing := none } }).setCtx x ⟨false, 0⟩
    let bad := (List.range 64).filter (s.rowBad x)
    let s := bad.foldl (fun t v => t.markRow x v 1) s
    (((s.set BF.SEAL_STAT_busy 0).set BF.SEAL_STAT_marked (if bad.isEmpty then 0 else 1)).set BF.SEAL_STAT_x x).raise BF.base 4

/-- A read of `RCMP` pops the head request (R168). -/
def State.rcmpPop (s : State) : State :=
  match s.bf.rcmp with
  | [] => s.answer 0
  | r :: t => ({ s with bf := { s.bf with rcmp := t } }).answerW r

/-- `CTX_STATE` (R172). Its fallback bit follows the FALLBACK registers as written, from the write on (log 144). -/
def State.ctxState (s : State) : Nat :=
  let x := s.get BF.CTX_SEL_x
  if x ≥ 160 then 0
  else
    let c := s.wctx x
    let fb := (List.range 4).any fun g => s.get (BFG.FALLBACK_rx g) = x || s.get (BFG.FALLBACK_tx g) = x
    (if c.isOpen then 1 else 0) + (if s.referenced x then 2 else 0) + (if fb then 4 else 0) +
      256 * ((List.range 64).filter fun v => c.marks.getLsbD v).length

/-- `BAD_MAP` (R172). -/
def State.badMap (s : State) : Nat := if s.get BF.CTX_SEL_x ≥ 160 then 0 else (s.wctx (s.get BF.CTX_SEL_x)).marks.toNat

/-! ## Fallback buffers (R167) -/

/-- The fallback buffer of a context, and the state after its rows are checked: a failing row is marked and zero, and its
recompute request has source code 0, as of a preload (R168; log 143). -/
def State.loadFb (s : State) (x : Nat) : FbBuf × State :=
  let bad := (List.range 64).filter (s.rowBad x)
  let b : FbBuf := ⟨x, (List.range 64).map fun v => if bad.contains v then [] else s.rowWords x v⟩
  (b, bad.foldl (fun t v => t.markRow x v 0) s)

/-- Field of `FALLBACK` for buffer k. -/
def fbField (k : Nat) : Fld := if k % 2 = 0 then BFG.FALLBACK_rx (k / 2) else BFG.FALLBACK_tx (k / 2)

/-- All eight buffers are loaded as the beamformer is enabled. -/
def State.loadAllFb (s : State) : State :=
  (List.range 8).foldl (fun t k =>
    let r := t.loadFb (t.get (fbField k))
    { r.2 with bf := { r.2.bf with fb := r.2.bf.fb.set k r.1, fbNew := r.2.bf.fbNew.set k none } }) s

/-- Waiting fallback changes take effect: at an entry start those that are ready, with the timer stopped all. -/
def State.applyFb (s : State) (startBt : Nat) : State :=
  { s with bf := { s.bf with
    fb := (List.range 8).map fun k =>
      (match s.bf.fbNew.getD k none with
      | some (t, b) => if t ≤ startBt ∨ !s.running then b else s.bf.fb.getD k ⟨0, []⟩
      | none => s.bf.fb.getD k ⟨0, []⟩)
    fbNew := s.bf.fbNew.map fun (o : Option (Nat × FbBuf)) =>
      (match o with
      | some (t, b) => if t ≤ startBt ∨ !s.running then none else some (t, b)
      | none => none) } }

/-- A write of `BFG g .FALLBACK` (R167). An open context in either field is logged before a number out of range in the other (log 142). -/
def State.fallbackWrite (s : State) (g : Nat) (v : Word) : State :=
  let rx := bits v 0 8
  let tx := bits v 8 8
  let ch (f : Fld) (x : Nat) : Bool := s.get f != x
  let opens (f : Fld) (x : Nat) : Bool := ch f x && x < 160 && (s.wctx x).isOpen
  if opens (BFG.FALLBACK_rx g) rx || opens (BFG.FALLBACK_tx g) tx then s.logErr (BFG.base g) 0x41 (BFG.FALLBACK g)
  else if (ch (BFG.FALLBACK_rx g) rx && rx ≥ 160) || (ch (BFG.FALLBACK_tx g) tx && tx ≥ 160) then
    s.logErr (BFG.base g) 0x42 (BFG.FALLBACK g)
  else
    let put (t : State) (k x : Nat) : State :=
      if t.get (fbField k) = x then t
      else
        let t := t.set (fbField k) x
        let r := t.loadFb x
        { r.2 with bf := { r.2.bf with fbNew := r.2.bf.fbNew.set k (some (r.2.bt + 16, r.1)) } }
    let t := put (put s (2 * g) rx) (2 * g + 1) tx
    if t.running then t else t.applyFb t.bt

/-! ## Selection and preload (R156, R159, R166) -/

/-- The context that the entry selects for group g in a direction, with whether its ctx field is 160 or above (R156); none where
the entry serves no such group. -/
def State.selects (s : State) (e : Entry) (tx : Bool) (g : Nat) : Option (Nat × Bool) :=
  let b := s.sliceOf g
  let d := s.dirOf e
  let on := (if tx then d = 1 || d = 3 else d = 2 || d = 3) && e.slice.getLsbD b
  if !on then none
  else
    let c := e.ctx.getD b 0
    let base := if tx ∧ d = 3 then (c + s.get BF.FDD_CFG_delta) % 160 else c
    let x := if b = g then base else (base + s.get (if b = 0 then BF.JOIN_delta_0 else BF.JOIN_delta_1)) % 160
    some (x, c ≥ 160)

/-- The selection of one group and direction at a fetch, with its rows loaded and checked. -/
def State.preload (s : State) (e : Entry) (k : Nat) : Option Sel × State :=
  let g := k / 2
  let tx : Bool := k % 2 = 1
  match s.selects e tx g with
  | none => (none, s)
  | some (x, own) =>
    let n := s.ports tx g
    if s.antenna tx then (if g = 0 then some ⟨none, none, false, false, []⟩ else none, s)
    else
      let fb := s.bf.fb.getD k ⟨0, []⟩
      let fbRows := (List.range n).map fun v => fb.rows.getD v []
      if own then (some ⟨none, some fb.ctx, false, false, fbRows⟩, s)
      else if (s.wctx x).isOpen then
        let t := ((s.set BF.OPEN_NAMED_ctx x).set BF.OPEN_NAMED_group g).count BF.OPEN_NAMED_count 1
        (some ⟨some x, some fb.ctx, true, false, fbRows⟩, t.raise BF.base 3)
      else
        let t := ((List.range n).filter (s.rowBad x)).foldl (fun t v => t.markRow x v 0) s
        let marks := (t.wctx x).marks
        let subs := (List.range n).filter fun v => marks.getLsbD v
        let rows := (List.range n).map fun v => if marks.getLsbD v then fb.rows.getD v [] else t.rowWords x v
        let t := if subs.isEmpty then t else (t.count (BFG.SUB_COUNT_count g) subs.length).raise (BFG.base g) 2
        (some ⟨some x, some x, false, !subs.isEmpty, rows⟩, t)

/-- At a fetch the beamformer selects and loads for every group and direction (R156, R159). -/
def State.bfFetch (s : State) (e : Entry) : State :=
  if !s.on 12 then { s with bf := { s.bf with next := List.replicate 8 none } } else
  (List.range 8).foldl (fun t k =>
    let r := t.preload e k
    { r.2 with bf := { r.2.bf with next := r.2.bf.next.set k r.1 } }) s

/-- At an entry start the loaded rows come into use, and `CUR_CTX` shows them (R173). -/
def State.bfStart (s : State) (startBt : Nat) : State :=
  let t := { s with bf := { s.bf with cur := s.bf.next, next := List.replicate 8 none } }
  let t := t.applyFb startBt
  let code (k : Nat) : Nat := match t.bf.cur.getD k none with | some e => e.used.getD 0xFF | none => 0xFF
  (List.range 4).foldl (fun u g => (u.set (BFG.CUR_CTX_rx g) (code (2 * g))).set (BFG.CUR_CTX_tx g) (code (2 * g + 1))) t

/-- The timer has stopped: no selection remains, and waiting fallback changes are in force (R157, R520). -/
def State.bfStopped (s : State) : State :=
  ({ s with bf := { s.bf with next := List.replicate 8 none } }.bfStart s.bt)

/-! ## Configuration writes (R148, R149, R151, R171) -/

/-- Slice i of either direction is armed or started. -/
def State.liveEither (s : State) (i : Nat) : Bool := (s.slice false i).live || (s.slice true i).live

/-- A write of `BFG g .PORTS` (R146, R149, R151). -/
def State.portsWrite (s : State) (g : Nat) (v : Word) : State :=
  let rx := bits v 0 7
  let tx := bits v 16 7
  if rx > 64 ∨ tx > 64 then s.logErr (BFG.base g) 0x42 (BFG.PORTS g)
  else if (rx ≠ s.get (BFG.PORTS_rx g) ∧ (s.slice false (s.sliceOf g)).live) ∨
      (tx ≠ s.get (BFG.PORTS_tx g) ∧ (s.slice true (s.sliceOf g)).live) then s.logErr (BFG.base g) 0x40 (BFG.PORTS g)
  else s.budgeted (BFG.PORTS g) ((s.set (BFG.PORTS_rx g) rx).set (BFG.PORTS_tx g) tx)

/-- A write of `BF.JOIN` (R148, R151). -/
def State.joinWrite (s : State) (v : Word) : State :=
  let ch (en delta : Fld) (e d : Nat) : Bool := s.get en != e || s.get delta != d
  if (ch BF.JOIN_en_0 BF.JOIN_delta_0 (bits v 0 1) (bits v 8 8) && (s.liveEither 0 || s.liveEither 2)) ||
      (ch BF.JOIN_en_1 BF.JOIN_delta_1 (bits v 1 1) (bits v 16 8) && (s.liveEither 1 || s.liveEither 3)) then
    s.logErr BF.base 0x40 BF.JOIN
  else if bits v 8 8 ≥ 160 ∨ bits v 16 8 ≥ 160 then s.logErr BF.base 0x42 BF.JOIN
  else s.budgeted BF.JOIN ((((s.set BF.JOIN_en_0 (bits v 0 1)).set BF.JOIN_en_1 (bits v 1 1)).set
    BF.JOIN_delta_0 (bits v 8 8)).set BF.JOIN_delta_1 (bits v 16 8))

/-- A write of `BF.FDD_CFG` (R148). -/
def State.fddCfgWrite (s : State) (v : Word) : State :=
  if bits v 0 8 ≥ 160 then s.logErr BF.base 0x42 BF.FDD_CFG else s.set BF.FDD_CFG_delta (bits v 0 8)

/-- Why a change of antenna mode in a direction is refused (R171). -/
def State.antRefusal (s : State) (tx new : Bool) : Option Nat :=
  if new = s.antenna tx then none
  else if s.anyLive tx then some 0x40
  else if new ∧ ((List.range 3).any fun k => s.get (if tx then BFG.PORTS_tx (k + 1) else BFG.PORTS_rx (k + 1)) != 0) then some 0x42
  else if new ∧ (s.flag BF.JOIN_en_0 ∨ s.flag BF.JOIN_en_1) then some 0x42
  else if new ∧ s.sliceRate tx 0 > 2 then some 0x07
  else none

/-- A write of `BF.MODE` (R151, R171, R432). -/
def State.bfModeWrite (s : State) (v : Word) : State :=
  match s.antRefusal false (bit v 0), s.antRefusal true (bit v 1) with
  | some c, _ => s.logErr BF.base c BF.MODE
  | none, some c => s.logErr BF.base c BF.MODE
  | none, none => s.budgeted BF.MODE
      (((s.set BF.MODE_ant_rx (bits v 0 1)).set BF.MODE_ant_tx (bits v 1 1)).set BF.MODE_fdd (bits v 2 1))

/-- The enable of `BF.BLK_CTRL` (R155, R167): set, it loads the fallback buffers. -/
def State.bfEnable (s : State) (on : Bool) : State :=
  let was := s.flag (HDR.BLK_CTRL_enable BF.base)
  if on then (if was then s else (s.set (HDR.BLK_CTRL_enable BF.base) 1).loadAllFb)
  else s.set (HDR.BLK_CTRL_enable BF.base) 0

/-- A write of `BFG g .SHIFT` (R164): in force at the next entry start. -/
def State.shiftWrite (s : State) (g : Nat) (v : Word) : State :=
  ((s.set (BFG.SHIFT_rx g) (bits v 0 4)).set (BFG.SHIFT_tx g) (bits v 8 4)).refreshIfStopped

/-! ## The sums (R161, R162) -/

/-- The receive output of one port: the exact sum over the paths, scaled, rounded and saturated; and whether it saturated. -/
def beamRx (row : List Word) (x : Nat → Cx) (shift : Nat) : Cx × Bool :=
  let a := (List.range 64).foldl (fun a p => a.add ((Cx.ofWord (row.getD p 0)).mul (x p))) Cx.zero
  (a.round (15 + shift), a.clips (15 + shift))

/-- The exact part of the transmit sum of path p that the ports of one group give. -/
def beamTxSum (rows : List (List Word)) (p : Nat) (smp : Nat → Cx) : Cx :=
  (List.range rows.length).foldl (fun a v => a.add ((Cx.ofWord ((rows.getD v []).getD p 0)).mul (smp v))) Cx.zero

/-! ## Commands -/

/-- Meaning of PORTS_WRITE. -/
def execPortsWrite (id : ReqId) (g : Fin 4) (data : Word) (s : State) : Host.Outcome State Fault Refusal :=
  .next (s.writeCmd id (BFG.PORTS g) data (·.portsWrite g data))

/-- Meaning of JOIN_WRITE. -/
def execJoinWrite (id : ReqId) (data : Word) (s : State) : Host.Outcome State Fault Refusal :=
  .next (s.writeCmd id BF.JOIN data (·.joinWrite data))

/-- Meaning of BF_MODE_WRITE. -/
def execBfModeWrite (id : ReqId) (data : Word) (s : State) : Host.Outcome State Fault Refusal :=
  .next (s.writeCmd id BF.MODE data (·.bfModeWrite data))

/-- Meaning of WEIGHT_WRITE. -/
def execWeightWrite (id : ReqId) (word : Fin 655360) (data : Word) (s : State) : Host.Outcome State Fault Refusal :=
  .next (s.writeCmd id (0x30000000 + 4 * word) data (·.weightWrite (0x30000000 + 4 * word) data))

/-- Meaning of WEIGHT_READ; the read may find an upset. -/
def execWeightRead (id : ReqId) (word : Fin 655360) (upset : Bool) (s : State) : Host.Outcome State Fault Refusal :=
  let a : Nat := 0x30000000 + 4 * word.val
  let t := if upset then s.hit a .multi else s
  .next (t.gated (rdAcc id a) (·.weightRead a))

/-- Meaning of CONTEXT_SEAL. -/
def execContextSeal (id : ReqId) (data : Word) (s : State) : Host.Outcome State Fault Refusal :=
  .next (s.writeCmd id BF.SEAL data (·.sealWrite data))

/-- Meaning of SEAL_COMPLETE. -/
def execSealComplete (s : State) : Host.Outcome State Fault Refusal := .next s.sealDone

/-- Meaning of RCMP_POP. -/
def execRcmpPop (id : ReqId) (s : State) : Host.Outcome State Fault Refusal := .next (s.gated (rdAcc id BF.RCMP) (·.rcmpPop))

/-- Meaning of FALLBACK_WRITE. -/
def execFallbackWrite (id : ReqId) (g : Fin 4) (data : Word) (s : State) : Host.Outcome State Fault Refusal :=
  .next (s.writeCmd id (BFG.FALLBACK g) data (·.fallbackWrite g data))

end Sys2Proof.Machine
end

