-- ==== Sys2Proof/Machine/Counts.lean ====
section
/-!
DEFINITION. The saturating counts with a clear field of their own (R36): for every such register of the tables its offset, its array
stride and count, the place of clear, and the fields that a 1 there sets to 0.
-/
namespace Sys2Proof.Machine

/-- A register of counts: offset, stride, array count, clear bit, count fields (lowest bit, width). -/
structure CountRow where
  off : Nat
  stride : Nat
  count : Nat
  clear : Nat
  fields : List (Nat × Nat)
  deriving DecidableEq, Repr

/-- The count registers of a page. -/
def countsOf : PageKind → List CountRow
  | .std => [⟨0x68, 0x0, 1, 16, [(0, 16)]⟩,
    ⟨0x6c, 0x0, 1, 16, [(0, 16)]⟩,
    ⟨0x160, 0x4, 8, 16, [(0, 16)]⟩]
  | .rxc => [⟨0x90, 0x0, 1, 16, [(0, 8), (8, 8)]⟩,
    ⟨0xb0, 0x4, 4, 16, [(0, 16)]⟩,
    ⟨0xc0, 0x4, 4, 16, [(0, 16)]⟩]
  | .bf => [⟨0x6c, 0x0, 1, 16, [(8, 8)]⟩]
  | .bfg => [⟨0x50, 0x0, 1, 16, [(0, 16)]⟩,
    ⟨0x54, 0x0, 1, 16, [(0, 16)]⟩,
    ⟨0x58, 0x0, 1, 16, [(0, 16)]⟩]
  | .txc => [⟨0xc0, 0x4, 4, 16, [(0, 16)]⟩,
    ⟨0xd0, 0x0, 1, 16, [(0, 16)]⟩,
    ⟨0xd4, 0x0, 1, 16, [(0, 16)]⟩,
    ⟨0xd8, 0x0, 1, 16, [(0, 16)]⟩,
    ⟨0x200, 0x4, 64, 16, [(0, 16)]⟩]
  | .dpd => [⟨0x58, 0x0, 1, 16, [(8, 8)]⟩,
    ⟨0x5c, 0x0, 1, 16, [(0, 8), (8, 8)]⟩,
    ⟨0x60, 0x0, 1, 16, [(0, 16)]⟩]
  | .lnd => [⟨0x58, 0x0, 1, 24, [(16, 8)]⟩,
    ⟨0x68, 0x0, 1, 16, [(0, 16)]⟩]
  | .scl => [⟨0x60, 0x0, 1, 16, [(0, 8), (8, 8)]⟩,
    ⟨0x64, 0x0, 1, 16, [(0, 16)]⟩]
  | .prt => [⟨0x280, 0x4, 28, 8, [(0, 8)]⟩]
  | .lane => [⟨0x50, 0x0, 1, 16, [(0, 16)]⟩,
    ⟨0x54, 0x0, 1, 16, [(0, 8)]⟩]
  | .port => [⟨0x58, 0x0, 1, 16, [(0, 8), (8, 8)]⟩,
    ⟨0x5c, 0x0, 1, 16, [(0, 16)]⟩,
    ⟨0x110, 0x0, 1, 16, [(0, 16)]⟩,
    ⟨0x114, 0x0, 1, 16, [(0, 16)]⟩,
    ⟨0x118, 0x0, 1, 16, [(0, 16)]⟩,
    ⟨0x11c, 0x0, 1, 16, [(0, 16)]⟩,
    ⟨0x120, 0x0, 1, 16, [(0, 16)]⟩,
    ⟨0x124, 0x0, 1, 16, [(0, 16)]⟩,
    ⟨0x128, 0x0, 1, 16, [(0, 16)]⟩,
    ⟨0x12c, 0x0, 1, 16, [(0, 16)]⟩,
    ⟨0x130, 0x0, 1, 16, [(0, 16)]⟩,
    ⟨0x134, 0x0, 1, 16, [(0, 16)]⟩,
    ⟨0x138, 0x0, 1, 16, [(0, 16)]⟩]
  | .pnl => [⟨0x54, 0x0, 1, 16, [(0, 16)]⟩]
  | .cas => [⟨0x60, 0x4, 4, 16, [(0, 16)]⟩,
    ⟨0x70, 0x4, 4, 16, [(0, 16)]⟩]
  | .par => [⟨0x54, 0x0, 1, 24, [(0, 8), (8, 8), (16, 8)]⟩]
  | .ych => [⟨0x64, 0x0, 1, 16, [(0, 8), (8, 8)]⟩]
  | .mem => [⟨0x4c, 0x0, 1, 16, [(0, 16)]⟩,
    ⟨0x50, 0x0, 1, 16, [(0, 16)]⟩,
    ⟨0x54, 0x0, 1, 16, [(0, 16)]⟩,
    ⟨0x58, 0x0, 1, 16, [(0, 16)]⟩,
    ⟨0x100, 0x10, 18, 16, [(0, 16)]⟩,
    ⟨0x108, 0x10, 18, 16, [(0, 16)]⟩]
  | _ => []

/-- The count register at an offset of a page. -/
def countAt (k : PageKind) (off : Nat) : Option CountRow :=
  (countsOf k).find? fun (r : CountRow) =>
    if r.count = 1 then off = r.off
    else decide (r.off ≤ off) && (off - r.off) % r.stride == 0 && decide ((off - r.off) / r.stride < r.count)

end Sys2Proof.Machine
end

