-- ==== Sys2Proof/Machine/Lnd.lean ====
section
/-!
DEFINITION. The Landing and its capture engine (R220 to R228).
-/
namespace Sys2Proof.Machine

/-- A read of a Landing word (R226): a failing word reads 0 and is recorded. -/
def State.landingRead (s : State) (a : Nat) : State :=
  if s.parityBad a then (s.landingDetect a).detected else s.answerW (s.word a)

/-- Words per sample of a capture mode (R220). -/
def capWords (mode ref : Nat) : Nat :=
  if mode = 0 then 1 else if mode = 1 then (if ref = 2 then 3 else 2) else (if ref = 2 then 17 else 9)

/-- The selected blocks in ascending order (R220, R222). -/
def State.capBlocks (s : State) : List Nat :=
  (List.range (if s.get LND.CAP_CTRL_mode = 2 then 8 else 64)).filter fun b => (s.rd64 LND.CAP_SEL_LO).testBit b

/-- Bytes of the record that the registers describe. -/
def State.capBytes (s : State) : Nat :=
  s.capBlocks.length * 64 * (s.get LND.CAP_LEN_len + 1) * capWords (s.get LND.CAP_CTRL_mode) (s.get LND.CAP_CTRL_ref)

/-- Why an arm or a go is refused (R223; log 61). -/
def State.capRefusal (s : State) (id : ReqId) : Option Nat :=
  let lo := 4096 * s.get LND.CAP_BASE_base
  let hi := lo + s.capBytes
  let cLo := 4096 * s.get TXC.CAL_SEQ_base
  let cHi := cLo + 4 * (s.get TXC.CAL_SEQ_len + 1)
  if !s.flag LND.CAP_CTRL_en ∨ !s.holds id 42 then some 0x03
  else if s.get LND.CAP_CTRL_mode = 3 ∨ s.get LND.CAP_CTRL_ref = 3 ∨ (s.get LND.CAP_CTRL_ref ≠ 0 ∧ s.get LND.CAP_CTRL_mode = 0) ∨
      s.capBlocks.isEmpty then some 0x43
  else if hi > 0x800000 then some 0x42
  else if s.flag TXC.CAL_CTRL_en ∧ lo < cHi ∧ cLo < hi then some 0x41
  else none

/-- The capture starts with its edge at an instant (R221). Words of the record at whose instants no sample passes are zero (log 97). -/
def State.capStart (s : State) (edgeCt : Nat) : State :=
  let t0 := edgeCt + 64 * s.get LND.CAP_DLY_delay
  let d := signed (s.get LND.CAP_DLY_obs) 12
  let c : Capture := ⟨t0, s.get LND.CAP_LEN_len + 1, s.get LND.CAP_CTRL_mode, s.get LND.CAP_CTRL_ref,
    if s.flag CLK.PLL_CTRL_half then d / 2 * 2 else d, 4096 * s.get LND.CAP_BASE_base, s.capBlocks, false⟩
  let lo := 0x20000000 + c.base
  let t := ((s.wr64 LND.CAP_T_LO t0).set LND.CAP_CTRL_arm 0).set LND.CAP_STAT_busy 1
  { (t.set LND.CAP_STAT_flags 0).wipe lo (lo + s.capBytes) with capture := some c }

/-- An edge of the trigger line (R221, R223): starts an armed capture; while one runs it is dropped. -/
def State.capEdge (s : State) (edgeCt : Nat) : State :=
  if s.capture.isSome then (s.count LND.CAP_STAT_dropped 1).raise LND.base 2
  else if s.flag LND.CAP_CTRL_arm then s.capStart edgeCt
  else s

/-- The capture engine stops: no capture runs or is armed. -/
def State.capStop (s : State) : State := { ((s.set LND.CAP_CTRL_arm 0).set LND.CAP_STAT_busy 0) with capture := none }

/-- A write of a `CAP_*` register (R49, R223): refused from another requester than the holder while enabled, and while a capture
runs. -/
def State.capWrite (s : State) (id : ReqId) (a : Nat) (f : State → State) : State :=
  if s.flag LND.CAP_CTRL_en ∧ !s.holds id 42 then s.logErr LND.base 0x03 a
  else if s.capture.isSome then s.logErr LND.base 0x40 a
  else f s

/-- A write of `CAP_CTRL` (R220, R221, R223). -/
def State.capCtrlWrite (s : State) (id : ReqId) (v : Word) : State :=
  s.capWrite id LND.CAP_CTRL fun s =>
    let t := ((s.set LND.CAP_CTRL_mode (bits v 4 2)).set LND.CAP_CTRL_ref (bits v 6 2)).set LND.CAP_CTRL_line (bits v 8 4)
    let armed := bit v 1 || bit v 2
    let t := if armed ∧ bit v 0 ∧ !s.holds id 42 then t.set LND.CAP_CTRL_en 0
      else t.enableIf (s.holds id 42) LND.CAP_CTRL_en (bits v 0 1)
    let t := if bit v 0 then t else t.set LND.CAP_CTRL_arm 0
    if armed then
      (match t.capRefusal id with
      | some c => t.logErr LND.base c LND.CAP_CTRL
      | none => if bit v 1 then t.capStart (64 * (t.bt + 1)) else t.set LND.CAP_CTRL_arm 1)
    else t

/-- Stores a captured word: block i, sample n, word j of the sample (R222). -/
def State.capPut (s : State) (c : Capture) (i n j : Nat) (x : Cx) : State :=
  let w := capWords c.mode c.ref
  s.setParityWord (0x20000000 + c.base + i * 64 * c.len * w + 4 * w * n + 4 * j) x.toWord

/-- Sets a flag of R224: 0 outside, 1 muted, 2 deficit, 3 overrange, 4 bypass, 5 fade. -/
def State.capFlag (s : State) (n : Nat) (b : Bool) : State :=
  if b then s.set LND.CAP_STAT_flags (s.get LND.CAP_STAT_flags ||| 2 ^ n) else s

/-- The sample index of an instant, counted from a start in steps of 4 CT. -/
def capIndex (len : Nat) (from_ t : Int) : Option Nat :=
  if t < from_ ∨ (t - from_) % 4 ≠ 0 ∨ (t - from_) / 4 ≥ 16 * len then none else some ((t - from_) / 4).toNat

/-- Position of a block in the selection. -/
def Capture.find (c : Capture) (b : Nat) : Option Nat := (List.range c.blocks.length).find? fun i => c.blocks.getD i 0 = b

/-- A first-decimator output of path p at the present instant goes into the record (R220, R221), with what came from an overrange
code. -/
def State.capAdc (s : State) (p : Nat) (x : Cx) (above : Bool) : State :=
  match s.capture with
  | none => s
  | some c =>
    let k := if c.mode = 0 then capIndex c.len c.t0 s.ct else if c.mode = 1 then capIndex c.len (c.t0 + c.obs) s.ct else none
    (match k, c.find p with
    | some n, some i => (s.capPut c i n (if c.mode = 0 then 0 else capWords c.mode c.ref - 1) x).capFlag 3 above
    | _, _ => s)

/-- A first-decimator output of observation converter st goes into the record. -/
def State.capObs (s : State) (st : Nat) (x : Cx) (above : Bool) : State :=
  match s.capture with
  | none => s
  | some c =>
    (match (if c.mode = 2 then capIndex c.len (c.t0 + c.obs) s.ct else none), c.find st with
    | some n, some i => (s.capPut c i n (capWords c.mode c.ref - 1) x).capFlag 3 above
    | _, _ => s)

/-- The reference of path p at a DAC instant goes into the record: the DAC-gate sample z, the predistortion input x, or both. -/
def State.capRef (s : State) (p dacCt : Nat) (z x : Cx) : State :=
  match s.capture with
  | none => s
  | some c =>
    let blk := if c.mode = 2 then p / 8 else p
    (match (if c.mode = 0 then none else capIndex c.len c.t0 dacCt), c.find blk with
    | some n, some i =>
      let per := if c.ref = 2 then 2 else 1
      let o := if c.mode = 2 then per * (p % 8) else 0
      if c.ref = 0 then s.capPut c i n o z else if c.ref = 1 then s.capPut c i n o x else (s.capPut c i n o x).capPut c i n (o + 1) z
    | _, _ => s)

/-- The running entry is a downlink entry with obs. -/
def State.obsEntry (s : State) : Bool :=
  match s.timer.cur with | some e => e.dir = 1 && e.obs | none => false

/-- Observation converter st digitises (R105). -/
def State.obsRuns (s : State) (st : Nat) : Bool :=
  s.flag (STD.OBS_CTRL_en st) && s.flag CLK.PLL_STAT_locked && s.on (14 + st) && s.awake && s.convOn st 2

/-- The samples of a capture that stand at an instant and after it have not all passed, and the first has. -/
def Capture.covers (c : Capture) (from_ t : Int) : Bool := decide (from_ ≤ t) && decide (t ≤ from_ + 4 * (16 * c.len - 1))

/-- The paths whose references a capture takes. -/
def Capture.paths (c : Capture) : List Nat :=
  if c.mode = 0 then [] else if c.mode = 1 then c.blocks else c.blocks.flatMap fun st => (List.range 8).map (8 * st + ·)

/-- What holds now goes into the flags of the capture for the samples of an instant (R224): of the referenced paths where a reference sample
stands at it, and of the observation where an observed sample does. -/
def State.capNote (s : State) (at_ : Int) : State :=
  match s.capture with
  | none => s
  | some c =>
    let ps := c.paths
    let byp (p : Nat) : Bool := (s.effGet (DPD.BYP_byp (p / 8))).testBit (p % 8) || (s.dpdPath p).ibyp
    let t := if c.covers c.t0 at_ then
        (((s.capFlag 1 (ps.any fun p => s.tx.muted.getLsbD p)).capFlag 2 (ps.any fun p => (s.tx.paths.getD p TxPath.reset).deficit)).capFlag 4
          (ps.any byp)).capFlag 5 (ps.any fun p => (s.dpdPath p).fade.isSome)
      else s
    if c.covers (c.t0 + c.obs) at_ then
      t.capFlag 0 (if c.mode = 1 then !s.obsEntry else c.mode = 2 && c.blocks.any fun st => !s.obsRuns st)
    else t

/-- The thermal states at T_0 go to `CAP_THETA_p` (R225), once the samples of that instant have passed. -/
def State.capTheta (s : State) : State :=
  match s.capture with
  | some c =>
    if c.theta then s
    else
      let t := (List.range 64).foldl (fun t p => t.set (LND.CAP_THETA_theta p) (t.thetaQ p c.t0)) s
      { t with capture := some { c with theta := true } }
  | none => s

/-- A capture that runs follows what holds for the samples of an instant (R224, R225). -/
def State.capTickAt (s : State) (at_ : Int) : State :=
  match s.capture with
  | some c => if c.t0 < s.ct then s.capTheta.capNote at_ else s.capNote at_
  | none => s

/-- A capture that runs follows what holds at the present instant. -/
def State.capTick (s : State) : State := s.capTickAt s.ct

/-- What changes at the present instant has held for the samples before it. -/
def State.capPre (s : State) : State := s.capTickAt ((s.ct : Int) - 1)

/-- The capture completes after its last sample's later instant (R221). -/
def State.capDone (s : State) : State :=
  match s.capture with
  | none => s
  | some c =>
    let last : Int := c.t0 + 4 * (16 * c.len - 1) + (if c.mode = 0 then 0 else max 0 c.obs)
    let t := (let u := s.atCt last.toNat; u.capNote u.ct).capTheta
    { ((t.set LND.CAP_STAT_busy 0).set LND.CAP_STAT_done 1).raise LND.base 1 with capture := none }

/-- Meaning of CAPTURE_ARM: a write of `CAP_CTRL`. -/
def execCaptureArm (id : ReqId) (data : Word) (s : State) : Host.Outcome State Fault Refusal :=
  .next (s.writeCmd id LND.CAP_CTRL data (·.capCtrlWrite id data))

/-- Meaning of CAPTURE_GO: a write of `CAP_CTRL`. -/
def execCaptureGo (id : ReqId) (data : Word) (s : State) : Host.Outcome State Fault Refusal :=
  .next (s.writeCmd id LND.CAP_CTRL data (·.capCtrlWrite id data))

/-- Meaning of CAPTURE_DONE. -/
def execCaptureDone (s : State) : Host.Outcome State Fault Refusal := .next s.capDone

/-- Meaning of LANDING_READ; the read may find an upset. -/
def execLandingRead (id : ReqId) (word : Fin 2097152) (upset : Bool) (s : State) : Host.Outcome State Fault Refusal :=
  let a : Nat := 0x20000000 + 4 * word.val
  let t := if upset then s.hit a .multi else s
  .next (t.gated (rdAcc id a) (·.landingRead a))

end Sys2Proof.Machine
end

