-- ==== Sys2Proof/Machine/Prt.lean ====
section
/-!
DEFINITION. Bias outputs (R229 to R239, R253), protection (R249 to R252, R255) and the effective mutes (R188 to R191).
-/
namespace Sys2Proof.Machine

/-! ## Protection state -/

/-- VNEG and VAUX lie within their windows. -/
def State.railOk (s : State) (r : Rail) : Bool := !s.pwr.railsOut.contains r

/-- Thermal halt is in force (R270). -/
def State.halted (s : State) : Bool := s.flag THM.STAT_halt

/-- A takeover runs, or the device has lost mastership and is not active again (R249, R354, R355; log 128). -/
def State.pairCond (s : State) : Bool := s.pair.lost || decide (s.get PAR.STAT_role = 3)

/-- The condition of protection source n is present now: `TRIP_RAW` (R249, R255). -/
def State.srcRaw (s : State) (n : Nat) : Bool :=
  if n < 16 then (s.get PRT.TRIP_RAW_raw).testBit n
  else if n < 24 then (List.range 8).any fun u => (s.dpd.getD (8 * (n - 16) + u) DpdPath.reset).ibyp
  else if n = 24 then false
  else if n = 25 then s.halted
  else if n = 26 then !s.railOk .vneg
  else if n = 27 then s.pairCond
  else false

/-- The `TRIP_RAW` word. -/
def State.tripRaw (s : State) : Nat := (List.range 28).foldl (fun m n => if s.srcRaw n then m + 2 ^ n else m) 0

/-- The action of source n is latched. -/
def State.acting (s : State) (n : Nat) : Bool := (s.get PRT.ACT_STAT_act).testBit n

/-- The paths that the action of source n mutes (R249, R251). -/
def State.srcMute (s : State) (n : Nat) : BitVec 64 :=
  let act := s.get (PRT.SRC_CFG_act n) % 4
  let paths : BitVec 64 := if n < 16 then BitVec.ofNat 64 (2 ^ s.get (PRT.SRC_CFG_path n)) else BitVec.ofNat 64 (s.prtPaths.get n 0)
  if act = 0 then 0
  else if act = 1 then paths
  else if act = 2 then
    (List.range 64).foldl (fun m p => setBit m p ((List.range 8).any fun u => paths.getLsbD (p / 8 * 8 + u))) 0
  else BitVec.allOnes 64

/-- The paths that protection mutes: of all latched actions together (R252). -/
def State.prtMute (s : State) : BitVec 64 :=
  (List.range 28).foldl (fun m n => if s.acting n then m ||| s.srcMute n else m) 0

/-- The safe-bank channels that protection holds (R251, R252). -/
def State.prtSafe (s : State) : Nat :=
  (List.range 28).foldl (fun m n =>
    if s.acting n && (s.get (PRT.SRC_CFG_act n)).testBit 2 then m ||| s.get (PRT.SRC_CFG_safe n) else m) 0

/-! ## Mutes (R188 to R190) -/

/-- The paths that mute registers mute. -/
def State.regMute (s : State) : BitVec 64 :=
  if s.flag TXC.MUTE_ALL_all then BitVec.allOnes 64
  else (List.range 64).foldl (fun m p =>
    setBit m p ((s.get TXC.MUTE_STAND_stand).testBit (p / 8) || (s.rd64 TXC.MUTE_PATH_LO).testBit p)) 0

/-- The paths that other sources mute, hard. -/
def State.hardMute (s : State) : BitVec 64 :=
  if s.halted ∨ s.pair.mute then BitVec.allOnes 64 else s.prtMute

/-- Samples of the ramp code of `MUTE_CFG` and `EDGE` (R180). -/
def rampLen (c : Nat) : Nat := if c = 0 then 0 else if c = 1 then 8 else if c = 2 then 32 else 128

/-- The factor of a path's mute at an instant, as numerator and denominator (R189, R190): during a ramp the sample's number over the
ramp's length, then 0 or 1. -/
def TxPath.level (x : TxPath) (muted : Bool) (ct : Nat) : Nat × Nat :=
  let rest : Nat × Nat := (if muted then 0 else 1, 1)
  match x.ramp with
  | none => rest
  | some r =>
    let k := (ct - r.start) / 4 + 1
    if r.len ≤ k then rest else (if r.down then r.len - k else k, r.len)

/-- The ramp of a path whose register mute changes now (R189, R190): a ramp that runs turns round at the level it has reached
(log 98). -/
def TxPath.newRamp (x : TxPath) (down : Bool) (len ct : Nat) : Option Ramp :=
  if len = 0 then none
  else
    let done := match x.ramp with
      | some r => let k := (ct - r.start) / 4; if r.down ≠ down ∧ k < r.len then r.len - k else 0
      | none => 0
    some ⟨down, ct - 4 * (done * len / max 1 (match x.ramp with | some r => r.len | none => 1)), len⟩

/-- The effective mutes take new values: event bit 5 at a change, ramps of register mutes, the muted bit of symbols. -/
def State.setMuted (s : State) (new : BitVec 64) : State :=
  let s := s.capPre
  let old := s.tx.muted
  let hard := s.hardMute
  let r := rampLen (s.get TXC.MUTE_CFG_ramp)
  let paths := (List.range 64).map fun p =>
    let x := s.tx.paths.getD p TxPath.reset
    if hard.getLsbD p then { x with ramp := none }
    else if new.getLsbD p ≠ old.getLsbD p then { x with ramp := x.newRamp (new.getLsbD p) r s.ct }
    else x
  let cur : Nat := match s.timer.cur with | some e => e.startBt | none => 0
  let syms := s.tx.syms.map fun (y : TxSym) => if new != 0 && y.startBt = cur && s.timer.cur.isSome then { y with muted := true } else y
  let t := { s with tx := { s.tx with muted := new, paths := paths, syms := syms } }
  if new = old then t else (t.capTick).raise TXC.base 5

/-- A mute of the whole device is asked for (R188): by `MUTE_ALL`, an action "mute all", a thermal halt, or the pair. -/
def State.deviceMute (s : State) : Bool :=
  s.flag TXC.MUTE_ALL_all || s.halted || s.pair.mute ||
    (List.range 28).any fun n => s.acting n && decide (s.get (PRT.SRC_CFG_act n) % 4 = 3)

/-- Mute sources have changed (R189, R190): a mute takes effect at once, an unmute at the next entry start or, with the timer
stopped, at once. -/
def State.muteUpdate (s : State) : State :=
  let want := s.regMute ||| s.hardMute
  let t := s.setMuted (if s.running then s.tx.muted ||| want else want)
  { t with tx := { t.tx with devMuted := s.deviceMute || (s.running && s.tx.devMuted) } }

/-- At an entry start, or as the timer stops, paths unmute (R190). -/
def State.muteEntry (s : State) : State :=
  let t := s.setMuted (s.regMute ||| s.hardMute)
  { t with tx := { t.tx with devMuted := s.deviceMute } }

/-- The `MUTE_SRC` word (R195). -/
def State.muteSrc (s : State) : Nat :=
  (if s.regMute != 0 then 1 else 0) + (if s.prtMute != 0 then 2 else 0) + (if s.halted then 4 else 0) + (if s.pair.mute then 8 else 0)

/-! ## Bias channels -/

/-- Channel j's state beside its registers. -/
def State.biasCh (s : State) (j : Nat) : BiasCh := s.bias.getD j ⟨0, none⟩
/-- Stores it. -/
def State.setBias (s : State) (j : Nat) (c : BiasCh) : State := { s with bias := s.bias.set j c }

/-- Channel j belongs to the safe bank. -/
def isSafe (j : Nat) : Bool := decide (80 ≤ j)

/-- The safe-bank channel rests at ground (R230); otherwise at VNEG. -/
def State.restGround (s : State) (j : Nat) : Bool := s.otp.safeRestGround.getLsbD (j - 80)

/-- The code nearest the rest value in a mode and span (R229, R230). -/
def restCode (j mode span : Nat) : Nat :=
  if isSafe j then 0 else if mode = 1 then 0 else if span = 2 then 0x8000 else if span = 3 then 0xFFFF else 0

/-- The fault value of channel j (R236). -/
def faultCode (j : Nat) : Nat := if isSafe j then 0 else 0x8000

/-- A fault cause acts on channel j (R236; log 78). -/
def State.biasCause (s : State) (j : Nat) : Bool :=
  s.halted || !s.railOk .vaux || !s.railOk .vneg || s.pair.hiz || (isSafe j && s.prtSafe.testBit (j - 80))

/-- Channel j enters a fault (R236, R237). -/
def State.biasEnter (s : State) (j : Nat) : State :=
  let aborted := (s.biasCh j).change.isSome
  let t := s.setBias j ⟨0, none⟩
  let t := (t.set (BIA.TARGET_target j) (faultCode j)).set (BIA.CODE_code j) (faultCode j)
  let t := ((t.setFlag (BIA.CODE_clamp j) (isSafe j)).set (BIA.CODE_fault j) 1).set (BIA.CODE_changing j) 0
  let t := if aborted then t.set (BIA.CODE_abort j) 1 else t
  t.raise BIA.base 1

/-- Fault causes have changed: channels enter and leave their faults (R237, R238). -/
def State.biasUpdate (s : State) : State :=
  (List.range 96).foldl (fun t j =>
    if s.biasCause j then (if t.flag (BIA.CODE_fault j) then t else t.biasEnter j)
    else if t.flag (BIA.CODE_fault j) then (t.set (BIA.CODE_fault j) 0).raise BIA.base 2
    else t) s

/-- A mode and span that channel j accepts (R229, R230). -/
def State.spanOk (s : State) (j mode span : Nat) : Bool :=
  if isSafe j then mode = 0 && (if s.restGround j then span = 0 || span = 1 else span = 3)
  else mode = 0 || span < 2

/-- A write of `BIA.CFG_j` (R229, R230, R234, R235, R237). -/
def State.biasCfgWrite (s : State) (j : Nat) (v : Word) : State :=
  let a := BIA.CFG j
  let mode := bits v 0 1
  let span := bits v 1 2
  if s.flag (BIA.CODE_fault j) then s.logErr BIA.base 0x42 a
  else if (s.biasCh j).change.isSome then s.logErr BIA.base 0x40 a
  else if !s.spanOk j mode span then s.logErr BIA.base 0x43 a
  else if mode = s.get (BIA.CFG_mode j) ∧ span = s.get (BIA.CFG_span j) then s
  else (s.setBias j ⟨(s.biasCh j).cnt, some ⟨mode, span, 1, 0⟩⟩).set (BIA.CODE_changing j) 1

/-- A write of `BIA.TARGET_j` (R231, R233, R235, R237, R238). -/
def State.biasTargetWrite (s : State) (j : Nat) (v : Word) : State :=
  let c := bits v 0 16
  if s.flag (BIA.CODE_fault j) then s.logErr BIA.base 0x42 (BIA.TARGET j)
  else if c < s.get (BIA.LIM_lo j) ∨ s.get (BIA.LIM_hi j) < c then s.logErr BIA.base 0x41 (BIA.TARGET j)
  else
    let t := s.set (BIA.TARGET_target j) c
    if isSafe j ∧ t.flag (BIA.CODE_clamp j) ∧ (t.biasCh j).change.isNone then t.set (BIA.CODE_clamp j) 0 else t

/-- A write of `BIA.LIM_j` (R231). -/
def State.biasLimWrite (s : State) (j : Nat) (v : Word) : State :=
  if isSafe j ∧ bits v 16 16 > s.otp.ceil (j - 80) then s.logErr BIA.base 0x05 (BIA.LIM j)
  else (s.set (BIA.LIM_lo j) (bits v 0 16)).set (BIA.LIM_hi j) (bits v 16 16)

/-- One tick of the slew limiter toward a target (R232). -/
def State.slewStep (s : State) (j target : Nat) : State :=
  let code := s.get (BIA.CODE_code j)
  let ivl := s.get (BIA.SLEW_ivl j)
  let d := s.get (BIA.SLEW_step j) + 1
  let c := s.biasCh j
  if code = target then s.setBias j { c with cnt := ivl }
  else if c.cnt < ivl then s.setBias j { c with cnt := c.cnt + 1 }
  else (s.setBias j { c with cnt := 0 }).set (BIA.CODE_code j)
    (if code < target then min (code + d) target else max (code - d) target)

/-- A span change ends (R234). -/
def State.spanDone (s : State) (j : Nat) : State :=
  ((s.setBias j { s.biasCh j with change := none }).set (BIA.CODE_changing j) 0).raise BIA.base 3

/-- The rest clamp engages and the mode and span switch: steps 2 to 4 of R234. -/
def State.spanSwitch (s : State) (j : Nat) (x : SpanChange) : State :=
  let t := s.setBias j { s.biasCh j with change := some { x with stage := 4, left := 40 } }
  ((t.set (BIA.CODE_clamp j) 1).set (BIA.CFG_mode j) x.mode).set (BIA.CFG_span j) x.span

/-- The AUX tick of one channel (R232, R234). -/
def State.biasTick (s : State) (j : Nat) : State :=
  if s.flag (BIA.CODE_fault j) then s
  else match (s.biasCh j).change with
  | none => if s.flag (BIA.CODE_clamp j) then s else s.slewStep j (s.get (BIA.TARGET_target j))
  | some x =>
    let rest := restCode j (s.get (BIA.CFG_mode j)) (s.get (BIA.CFG_span j))
    if x.stage = 1 then
      (let t := if s.flag (BIA.CODE_clamp j) then s.set (BIA.CODE_code j) rest else s.slewStep j rest
       if t.get (BIA.CODE_code j) = rest then t.spanSwitch j x else t)
    else if x.stage = 4 then s.setBias j { s.biasCh j with change := some { x with left := x.left - 1 } }
    else
      let t := s.slewStep j (s.get (BIA.TARGET_target j))
      if t.get (BIA.CODE_code j) = t.get (BIA.TARGET_target j) then t.spanDone j else t

/-- The next AUX tick (R232); in Rest and Dormant the bias outputs are frozen (R239). -/
def State.auxTickSlew (s : State) : State :=
  let n := max (s.auxTick + 1) (s.ct * 100 / 393216)
  let t : State := { s.atCt (auxTickCt n) with auxTick := n }
  if t.pwr.sleep = .rest ∨ t.pwr.sleep = .dormant ∨ !t.on 26 then t
  else (List.range 96).foldl State.biasTick t

/-- After 40 ticks the clamp releases at the new span (R234, step 5); a code already at its target ends the change. -/
def State.spanSettled (s : State) (j : Nat) : State :=
  match (s.biasCh j).change with
  | some x =>
    if x.stage = 4 ∧ x.left = 0 then
      let t := (s.setBias j { s.biasCh j with change := some { x with stage := 6 } }).set (BIA.CODE_clamp j) 0
      let t := t.set (BIA.CODE_code j) (restCode j x.mode x.span)
      if t.get (BIA.CODE_code j) = t.get (BIA.TARGET_target j) then t.spanDone j else t
    else s
  | none => s

/-! ## Trips and clears (R249 to R252) -/

/-- Actions have changed: bias safe and mutes follow. -/
def State.prtUpdate (s : State) : State := s.biasUpdate.muteUpdate

/-- A source latches its action (R252). -/
def State.prtTrip (s : State) (n : Nat) : State :=
  let t := (s.set PRT.ACT_STAT_act (s.get PRT.ACT_STAT_act ||| 2 ^ n)).count (PRT.TRIP_COUNT_count n) 1
  (if (t.get (PRT.SRC_CFG_act n)).testBit 3 then t.raise PRT.base 1 else t).prtUpdate

/-- A latched action ends (R252): event bit 2. -/
def State.prtEnd (s : State) (n : Nat) : State :=
  if s.acting n then
    ({ s.set PRT.ACT_STAT_act (s.get PRT.ACT_STAT_act - 2 ^ n) with prtPaths := s.prtPaths.del n }.raise PRT.base 2).prtUpdate
  else s.prtUpdate

/-- The action of VNEG outside its window lasts through a reset that clears the protection page (R249, R504). -/
def State.railsHold (s : State) : State := if s.railOk .vneg then s else s.prtTrip 26

/-- The pair's mute, high impedance or condition has changed: source 27 trips, or its action ends with its condition (R249, R252). -/
def State.pairTrip (s : State) : State :=
  if s.pairCond ∧ !s.acting 27 then s.prtTrip 27 else if !s.pairCond then s.prtEnd 27 else s.prtUpdate

/-- A bank integrity fault of a path (R212, R249). -/
def State.prtBank (s : State) (p : Nat) : State :=
  let n := 16 + p / 8
  ({ s with prtPaths := s.prtPaths.put n (s.prtPaths.get n 0 ||| 2 ^ p) 0 }).prtTrip n

/-- The pin of comparator m crosses its window (R250): a trip of an enabled comparator, or the end of its condition. -/
def State.comparator (s : State) (m : Nat) (l : PinLevel) : State :=
  let raw := s.get PRT.TRIP_RAW_raw
  let up : Bool := s.flag (PRT.CMP_en m) && (s.pwr.sleep = .run || s.pwr.sleep = .idle) && s.on 26
  match l with
  | .inside => if raw.testBit m then s.set PRT.TRIP_RAW_raw (raw - 2 ^ m) else s
  | .above => if up && !raw.testBit m then (s.set PRT.TRIP_RAW_raw (raw ||| 2 ^ m)).prtTrip m else s
  | .below =>
    if up && !raw.testBit m && s.get (PRT.CMP_lo m) != 0 then (s.set PRT.TRIP_RAW_raw (raw ||| 2 ^ m)).prtTrip m else s

/-- A write of `CMP_m`: a comparator that is disabled no longer finds its condition. -/
def State.cmpWrite (s : State) (m : Nat) (v : Word) : State :=
  let t := s.wr (PRT.CMP m) (v &&& 0xFFFF0FFF#32)
  if bit v 31 then t else t.comparator m .inside

/-- A write of `SRC_CFG_n` (R249, R251). -/
def State.srcCfgWrite (s : State) (n : Nat) (v : Word) : State :=
  let act := bits v 0 4
  let least := s.otp.minAct n
  if n ≥ 25 then s.logErr PRT.base 0x41 (PRT.SRC_CFG n)
  else if n = 24 then (if bit v 3 then s.set (PRT.SRC_CFG_act n) 8 else s.logErr PRT.base 0x05 (PRT.SRC_CFG n))
  else if act % 4 < least % 4 ∨ least &&& (15 - act) &&& 0xC ≠ 0 ∨ least &&& (15 - act) &&& 3 ≠ 0 ∧ act % 4 < least % 4 then
    s.logErr PRT.base 0x05 (PRT.SRC_CFG n)
  else
    (((s.set (PRT.SRC_CFG_act n) act).set (PRT.SRC_CFG_path n) (bits v 8 6)).set (PRT.SRC_CFG_safe n) (bits v 16 16)).prtUpdate

/-- A write of `ACT_CLR` (R252). -/
def State.protClear (s : State) (v : Word) : State :=
  let ns := (List.range 28).filter fun n => bit v n
  let blocked := ns.any s.srcRaw
  let t := ns.foldl (fun t n => if s.srcRaw n || 25 ≤ n || !t.acting n then t else t.prtEnd n) s
  if blocked then t.logErr PRT.base 0x40 PRT.ACT_CLR else t

/-! ## Mute registers (R188, R189, R191) -/

/-- A whole mute register is written. -/
def State.muteSet (s : State) (r : MuteReg) (v : Nat) : State :=
  (match r with
  | .all => s.set TXC.MUTE_ALL_all v
  | .stand => s.set TXC.MUTE_STAND_stand v
  | .pathLo => s.wr64 TXC.MUTE_PATH_LO v
  | .pathHi => s).muteUpdate

/-! ## Commands -/

/-- Meaning of BIAS_TARGET_WRITE. -/
def execBiasTargetWrite (id : ReqId) (j : Fin 96) (data : Word) (s : State) : Host.Outcome State Fault Refusal :=
  .next (s.writeCmd id (BIA.TARGET j) data (·.biasTargetWrite j data))

/-- Meaning of AUX_TICK_SLEW. -/
def execAuxTickSlew (s : State) : Host.Outcome State Fault Refusal := .next s.auxTickSlew

/-- Meaning of SPAN_CHANGE_START: a write of `CFG_j`. -/
def execSpanChangeStart (id : ReqId) (j : Fin 96) (data : Word) (s : State) : Host.Outcome State Fault Refusal :=
  .next (s.writeCmd id (BIA.CFG j) data (·.biasCfgWrite j data))

/-- Meaning of SPAN_SETTLE_EXPIRY. -/
def execSpanSettleExpiry (j : Fin 96) (s : State) : Host.Outcome State Fault Refusal := .next (s.spanSettled j)

/-- Meaning of COMPARATOR_TRIP. -/
def execComparatorTrip (m : Fin 16) (level : PinLevel) (s : State) : Host.Outcome State Fault Refusal :=
  .next (s.comparator m level)

/-- Meaning of PROTECTION_CLEAR: a write of `ACT_CLR`. -/
def execProtectionClear (id : ReqId) (data : Word) (s : State) : Host.Outcome State Fault Refusal :=
  .next (s.writeCmd id PRT.ACT_CLR data (·.protClear data))

end Sys2Proof.Machine
end

