-- ==== Sys2Proof/Machine/Dpd.lean ====
section
/-!
DEFINITION. Digital predistortion (R196 to R216): the model, the banks in memory with their marks and reload requests, swaps and
fades, integrity bypass.
-/
namespace Sys2Proof.Machine

/-! ## The model (R196, R197) -/

/-- The envelope in Q0.17 (R197). -/
def envelope (x : Cx) : Nat := min (2 ^ 17 - 1) (rsqrt (16 * x.mag2.toNat))

/-- Power m of the envelope, for m above 0 (R197). -/
def envPow (r : Nat) : Nat → Nat
  | 0 => r
  | 1 => r
  | m + 1 => (rhe (envPow r m * r : Nat) (2 ^ 17)).toNat

/-- φ_j (R196): the term word, the delay line newest first, the thermal input. -/
def dpdPhi (w : Word) (dl : List Cx) (th : Int) : Cx :=
  let x := dl.getD (bits w 0 3) Cx.zero
  let k := bits w 8 4
  let x := if k ≤ 1 then x else
    let r := envPow (envelope (dl.getD (bits w 4 3) Cx.zero)) (k - 1)
    ⟨rhe (x.i * r) (2 ^ 17), rhe (x.q * r) (2 ^ 17)⟩
  if bit w 12 then ⟨rhe (x.i * th) (2 ^ 15), rhe (x.q * th) (2 ^ 15)⟩ else x

/-- The output of R196. -/
def dpdModel (terms : List Word) (c dl : List Cx) (th : Int) : Cx :=
  ((List.range terms.length).foldl (fun a j => a.add ((c.getD j Cx.zero).mul (dpdPhi (terms.getD j 0) dl th))) Cx.zero).round 22

/-- α_k of a fade of length L (R207). -/
def fadeAlpha (len k : Nat) : Int := rhe (32768 * (k + 1) : Nat) len

/-- A faded sample (R207). -/
def fadeMix (len k : Nat) (new old : Cx) : Cx :=
  let a := fadeAlpha len (min k (len - 1))
  ⟨rhe (a * new.i + (32768 - a) * old.i) 32768, rhe (a * new.q + (32768 - a) * old.q) 32768⟩

/-! ## Banks, marks, reload requests (R203, R205, R211 to R215) -/

/-- Address of word w of bank z (0 A, 1 B) of path p. -/
def bankAddr (p z w : Nat) : Nat := 0x34000000 + (2 * p + z) * 240 + 4 * w

/-- Coefficient j of a bank (R203). -/
def State.coeff (s : State) (p z j : Nat) : Cx :=
  let a := bankAddr p z 0 + 6 * j
  ⟨signed (s.load a 3) 24, signed (s.load (a + 3) 3) 24⟩

/-- The term words of structure z of a stand, up to its count (R199). -/
def State.terms (s : State) (st z : Nat) : List Word :=
  (List.range (s.get (if z = 0 then DPD.TERMS_a st else DPD.TERMS_b st))).map fun n =>
    s.rd (if z = 0 then DPD.TERM_A st n else DPD.TERM_B st n)

/-- Predistortion is enabled (R209). -/
def State.dpdOn (s : State) : Bool := s.flag (DPD.CTRL_en 0)

/-- Bank z is marked. -/
def DpdPath.marked (x : DpdPath) (z : Nat) : Bool := if z = 0 then x.markA else x.markB
/-- Sets or clears a mark. -/
def DpdPath.setMark (x : DpdPath) (z : Nat) (b : Bool) : DpdPath := if z = 0 then { x with markA := b } else { x with markB := b }
/-- Working set of bank z. -/
def DpdPath.work (x : DpdPath) (z : Nat) : List Cx := if z = 0 then x.workA else x.workB
/-- Stores the working set. -/
def DpdPath.setWork (x : DpdPath) (z : Nat) (c : List Cx) : DpdPath := if z = 0 then { x with workA := c } else { x with workB := c }

/-- A bank takes a mark and a reload request (R214, R215); sources 0 load, 1 Cruiser, 2 read. -/
def State.markBank (s : State) (p z src : Nat) : State :=
  let x := s.dpdPath p
  let st := p / 8
  if x.marked z then s
  else
    let t := s.setDpd p (x.setMark z true)
    let q := t.reload.getD st []
    let w : Word := BitVec.ofNat 32 (p % 8 + 0x100 * z + 0x10000 * src + 0x80000000)
    let t : State := if q.length < 8 then { t with reload := t.reload.set st (q ++ [w]) } else t.count (DPD.RELOAD_COUNT_lost st) 1
    t.raise (DPD.base st) 5

/-- A bank is busy (R205, R216). -/
def State.bankBusy (s : State) (p z : Nat) : Bool :=
  let x := s.dpdPath p
  s.dpdOn && !x.ibyp && (x.active = z || (match x.fade with | some f => f.target = z | none => false) ||
    (match x.held with | some h => h.target = z | none => false))

/-- Structure z of a stand is busy: its bank is busy for a path of the stand. -/
def State.termsBusy (s : State) (st z : Nat) : Bool := (List.range 8).any fun u => s.bankBusy (8 * st + u) z

/-- A load of a bank passes (R211, R214): no mark, no failing word. -/
def State.loadOk (s : State) (p z : Nat) : Bool :=
  !(s.dpdPath p).marked z && !((List.range 60).any fun w => s.parityBad (bankAddr p z w))

/-- The bank is copied into the working set. -/
def State.loadBank (s : State) (p z : Nat) : State :=
  s.setDpd p ((s.dpdPath p).setWork z ((List.range 40).map (s.coeff p z)))

/-- Entry into integrity bypass (R212). -/
def State.enterBypass (s : State) (p : Nat) : State :=
  let t := s.capPre.markBank p (s.dpdPath p).active 0
  let t := t.setDpd p { t.dpdPath p with ibyp := true, fade := none, held := none }
  (((t.count (DPD.COUNTS_ibyp (p / 8)) 1).raise (DPD.base (p / 8)) 3)).prtBank p

/-- The load of the active bank at a run or frame start (R211). A path that is in integrity bypass stays in it, whatever the load finds
(R216). -/
def State.loadActive (s : State) (p : Nat) : State :=
  let x := s.dpdPath p
  if s.loadOk p x.active then s.loadBank p x.active
  else if x.ibyp then s.markBank p x.active 0
  else s.enterBypass p

/-! ## Swaps and fades (R206 to R209, R213, R216) -/

/-- A request completes (R206): the target is active; a path leaves integrity bypass by it (R216). -/
def State.swapDone (s : State) (p z : Nat) (leave : Bool) : State :=
  let s := s.capPre
  let x := s.dpdPath p
  let t := (s.setDpd p { x with active := z, fade := none, ibyp := x.ibyp && !leave }).raise (DPD.base (p / 8)) 1
  if leave ∧ x.ibyp then t.prtUpdate else t

/-- The running entry transmits: samples of a run pass. -/
def State.inRun (s : State) : Bool := match s.timer.cur with | some e => s.isTx e | none => false

/-- A held request starts: at once where its target is already active, else as a fade, which counts samples of runs only (R207). -/
def State.swapStart (s : State) (p : Nat) (h : Swap) : State :=
  let x := s.dpdPath p
  let t := s.setDpd p { x with held := none }
  if h.target = x.active ∧ !x.ibyp then t.swapDone p h.target false
  else (t.capPre.setDpd p { t.dpdPath p with fade := some ⟨h.target, h.len, 0, if t.inRun then some t.ct else none⟩ }).capTick

/-- The load of a request's target (R206, R208): a failing load cancels the request (R213; log 43). -/
def State.loadHeld (s : State) (p : Nat) (h : Swap) : State :=
  let x := s.dpdPath p
  if s.loadOk p h.target then
    let t := s.setDpd p { x with held := some { h with loaded := true } }
    t.loadBank p h.target
  else (s.setDpd p { x with held := none }).markBank p h.target 0

/-- One path's request (R206, R208, R209, R214). The target of a pending request is loaded as it is held, which is within the 16 BT
of R208 (log 43). -/
def State.swapRequest (s : State) (p z len : Nat) : State :=
  let x := s.dpdPath p
  let st := p / 8
  if x.marked z then s.logErr (DPD.base st) 0x43 (DPD.SWAP st)
  else if !s.dpdOn then s.swapDone p z false
  else
    let t := match x.held with
      | some _ => (s.count (DPD.COUNTS_ovr st) 1).raise (DPD.base st) 2
      | none => s
    let h : Swap := ⟨z, len, x.fade.isSome, s.ct + 1024, false⟩
    let t := t.setDpd p { t.dpdPath p with held := some h }
    if h.pending then t.loadHeld p h else t

/-- A write of `SWAP`. -/
def State.swapWrite (s : State) (st : Nat) (v : Word) : State :=
  (List.range 8).foldl (fun t u => if bit v u then t.swapRequest (8 * st + u) (bits v 8 1) (16 * (bits v 16 8 + 1)) else t) s

/-- At a fetch of a transmitting entry the targets of scheduled requests are loaded (R206). -/
def State.dpdFetch (s : State) (e : Entry) : State :=
  if !s.isTx e then s
  else (List.range 64).foldl (fun t p =>
    match (t.dpdPath p).held with
    | some h => if h.pending || h.loaded then t else t.loadHeld p h
    | none => t) s

/-- At the start of a transmitting entry (R206, R211): with `load` the active banks are loaded, and loaded requests start. -/
def State.dpdStart (s : State) (load : Bool) : State :=
  (List.range 64).foldl (fun t p =>
    let t := if load then t.loadActive p else t
    match (t.dpdPath p).held with
    | some h => if h.loaded && !h.pending then t.swapStart p h else t
    | none => t) s

/-- The number of the fade's sample at an instant (R207). -/
def Fade.at_ (f : Fade) (ct : Nat) : Nat := f.k + (match f.from_ with | some b => (ct - b) / 4 | none => 0)

/-- Fades pause as a run ends: with the number of the first sample that was not released. -/
def State.fadesPause (s : State) : State :=
  { s with dpd := s.dpd.map fun (x : DpdPath) => { x with fade := x.fade.map fun (f : Fade) => { f with k := f.at_ (s.ct + 3), from_ := none } } }

/-- Fades resume with a run. -/
def State.fadesResume (s : State) (ct : Nat) : State :=
  { s with dpd := s.dpd.map fun (x : DpdPath) => { x with fade := x.fade.map fun (f : Fade) => { f with from_ := some (f.from_.getD ct) } } }

/-- A fade has passed its last sample (R207): one that counts ends with the sample's period; one that pauses before it goes on. -/
def State.fadeDone (s : State) (p : Nat) : State :=
  match (s.dpdPath p).fade with
  | some f => (match f.from_ with
    | some b => (s.atCt (b + 4 * (f.len - f.k))).swapDone p f.target true
    | none => if f.len ≤ f.k then s.swapDone p f.target true else s)
  | none => s

/-- A pending fade starts after the running one, 16 BT or more after its request was held (R208). -/
def State.pendingStart (s : State) (p : Nat) : State :=
  match (s.dpdPath p).held, (s.dpdPath p).fade with
  | some h, none =>
    if !h.pending then s
    else
      (s.atCt h.dueCt).swapStart p h
  | _, _ => s

/-- A write of `DPD.CTRL` (R209, R433): one field on eight pages; requests and fades complete as it clears. -/
def State.dpdEnable (s : State) (st : Nat) (v : Word) : State :=
  let on := bit v 0
  if on = s.dpdOn then s
  else if s.anyLive true then s.logErr (DPD.base st) 0x40 (DPD.CTRL st)
  else
    let t := (List.range 8).foldl (fun t k => t.setFlag (DPD.CTRL_en k) on) s
    if on then (if t.termsInUse > termCap t.checkLevel then s.logErr (DPD.base st) 0x07 (DPD.CTRL st) else t)
    else (List.range 64).foldl (fun t p =>
      let t := match (t.dpdPath p).fade with | some f => t.swapDone p f.target true | none => t
      match (t.dpdPath p).held with
      | some h => (t.setDpd p { t.dpdPath p with held := none }).swapDone p h.target false
      | none => t) t

/-- A write of `TERMS` (R199, R205). -/
def State.termsWrite (s : State) (st : Nat) (v : Word) : State :=
  let a := bits v 0 6
  let b := bits v 16 6
  let m := min 40 (termCap s.checkLevel)
  if m < a ∨ m < b then s.logErr (DPD.base st) 0x07 (DPD.TERMS st)
  else if a = 0 ∨ b = 0 then s.logErr (DPD.base st) 0x42 (DPD.TERMS st)
  else if (a ≠ s.get (DPD.TERMS_a st) ∧ s.termsBusy st 0) ∨ (b ≠ s.get (DPD.TERMS_b st) ∧ s.termsBusy st 1) then
    s.logErr (DPD.base st) 0x41 (DPD.TERMS st)
  else (s.set (DPD.TERMS_a st) a).set (DPD.TERMS_b st) b

/-- A write of term n of structure z (R199, R205). -/
def State.termWrite (s : State) (st z n : Nat) (v : Word) : State :=
  let a := if z = 0 then DPD.TERM_A st n else DPD.TERM_B st n
  if bits v 8 4 = 0 ∨ bits v 8 4 > 9 then s.logErr (DPD.base st) 0x42 a
  else if s.termsBusy st z then s.logErr (DPD.base st) 0x41 a
  else s.wr a (v &&& 0x1F77#32)

/-- A write of `TERMS`, `TERM_A_n` or `TERM_B_n`, by address. -/
def State.dpdTermsWrite (s : State) (a : Nat) (v : Word) : State :=
  let st := (a - DPD.base 0) / 0x1000
  let o := a % 0x1000
  if o = 0x50 then s.termsWrite st v
  else if 0x100 ≤ o ∧ o < 0x1A0 then s.termWrite st 0 ((o - 0x100) / 4) v
  else if 0x200 ≤ o ∧ o < 0x2A0 then s.termWrite st 1 ((o - 0x200) / 4) v
  else s

/-- A write of a bank-store word (R205, R214). -/
def State.bankWrite (s : State) (a : Nat) (v : Word) : State :=
  let b := (a - 0x34000000) / 240
  let p := b / 2
  let z := b % 2
  if s.bankBusy p z then s.logErr (DPD.base (p / 8)) 0x41 a
  else (s.setParityWord a v).setDpd p ((s.dpdPath p).setMark z false)

/-- A read of a bank-store word (R214): a failing word reads 0 and marks its bank. -/
def State.bankRead (s : State) (a : Nat) : State :=
  let b := (a - 0x34000000) / 240
  if s.parityBad a then (s.markBank (b / 2) (b % 2) 2).detected else s.answerW (s.word a)

/-- A read of `RELOAD` pops the head request (R215). -/
def State.reloadPop (s : State) (st : Nat) : State :=
  match s.reload.getD st [] with
  | [] => s.answer 0
  | w :: t => ({ s with reload := s.reload.set st t }).answerW w

/-- `PATH_STAT_u` (R227). -/
def State.pathStat (s : State) (p : Nat) : Nat :=
  let x := s.dpdPath p
  let b (c : Bool) : Nat := if c then 1 else 0
  x.active + 2 * b x.fade.isSome + 4 * b x.held.isSome + 8 * (match x.held with | some h => h.target | none => 0) + 16 * b x.ibyp +
    32 * (s.effGet (DPD.BYP_byp (p / 8)) / 2 ^ (p % 8) % 2) + 256 * b x.markA + 512 * b x.markB

/-- A write of `THM_INIT_u` (R202). -/
def State.thmInitWrite (s : State) (p : Nat) (v : Word) : State :=
  let t := s.set (DPD.THM_INIT_init (p / 8) (p % 8)) (bits v 0 16)
  if bit v 31 then t.thetaInit p else t

/-- Warm values of predistortion (R204): every path on bank A, unmarked, the store at the identity. -/
def State.dpdReset (s : State) : State :=
  { s.wipe 0x34000000 0x34007800 with dpd := List.replicate 64 DpdPath.reset, reload := List.replicate 8 [] }

/-! ## A sample (R196 to R198, R207, R210, R212) -/

/-- The output of a bank for the delay line of path p at an instant. -/
def State.bankOut (s : State) (p z : Nat) (dl : List Cx) (ct : Nat) : Cx :=
  let th : Int := (s.thetaQ p ((ct : Int) - 1024) : Int) - s.effGet (DPD.THM_CFG_ref (p / 8) (p % 8))
  dpdModel (s.terms (p / 8) z) ((s.dpdPath p).work z) dl th

/-- Integrity bypass (R212). -/
def State.bypassOut (s : State) (x : Cx) : Cx :=
  let b : Int := (s.otp.backoff : Int)
  ⟨rhe (b * x.i) (2 ^ 15), rhe (b * x.q) (2 ^ 15)⟩

/-- The sample of an instant passes predistortion of path p with its delay line, itself first. -/
def State.dpdSample (s : State) (p ct : Nat) (dl : List Cx) : State × Cx :=
  let h := s.dpdPath p
  let st := p / 8
  let x := dl.headD Cx.zero
  if !s.dpdOn then (s, x)
  else
    let t := if x.mag2 ≥ 2 ^ 30 then (s.count (DPD.ENV_SAT_COUNT_count st) 1).raise (DPD.base st) 4 else s
    let old := if h.ibyp then s.bypassOut x else s.bankOut p h.active dl ct
    let y := match h.fade with
      | some f => fadeMix f.len (f.at_ ct) (s.bankOut p f.target dl ct) old
      | none => old
    (t, if (s.effGet (DPD.BYP_byp st)).testBit (p % 8) then x else y)

/-! ## Commands -/

/-- Meaning of DPD_SWAP_REQUEST. -/
def execDpdSwapRequest (id : ReqId) (st : Fin 8) (data : Word) (s : State) : Host.Outcome State Fault Refusal :=
  .next (s.writeCmd id (DPD.SWAP st) data (·.swapWrite st data))

/-- Meaning of DPD_FADE_DONE. -/
def execDpdFadeDone (p : Fin 64) (s : State) : Host.Outcome State Fault Refusal := .next (s.fadeDone p)

/-- Meaning of DPD_PENDING_FADE_START. -/
def execDpdPendingFadeStart (p : Fin 64) (s : State) : Host.Outcome State Fault Refusal := .next (s.pendingStart p)

/-- Meaning of DPD_ENABLE_WRITE. -/
def execDpdEnableWrite (id : ReqId) (st : Fin 8) (data : Word) (s : State) : Host.Outcome State Fault Refusal :=
  .next (s.writeCmd id (DPD.CTRL st) data (·.dpdEnable st data))

/-- Meaning of DPD_TERMS_WRITE: a write of `TERMS` or of a term word; elsewhere the command is no such write. -/
def execDpdTermsWrite (id : ReqId) (addr : Word) (data : Word) (s : State) : Host.Outcome State Fault Refusal :=
  .next (if DPD.base 0 ≤ addr.toNat ∧ addr.toNat < DPD.base 8 then s.writeCmd id addr.toNat data (·.dpdTermsWrite addr.toNat data) else s)

/-- Meaning of DPD_BANK_WRITE. -/
def execDpdBankWrite (id : ReqId) (word : Fin 7680) (data : Word) (s : State) : Host.Outcome State Fault Refusal :=
  .next (s.writeCmd id (0x34000000 + 4 * word) data (·.bankWrite (0x34000000 + 4 * word) data))

/-- Meaning of DPD_BANK_READ; the read may find an upset. -/
def execDpdBankRead (id : ReqId) (word : Fin 7680) (upset : Bool) (s : State) : Host.Outcome State Fault Refusal :=
  let a : Nat := 0x34000000 + 4 * word.val
  let t := if upset then s.hit a .multi else s
  .next (t.gated (rdAcc id a) (·.bankRead a))

/-- Meaning of DPD_RELOAD_POP. -/
def execDpdReloadPop (id : ReqId) (st : Fin 8) (s : State) : Host.Outcome State Fault Refusal :=
  .next (s.gated (rdAcc id (DPD.RELOAD st)) (·.reloadPop st))

/-- Meaning of THERMAL_STATE_LOAD: a write of `THM_INIT_u`. -/
def execThermalStateLoad (id : ReqId) (p : Fin 64) (data : Word) (s : State) : Host.Outcome State Fault Refusal :=
  let a := DPD.THM_INIT (p.val / 8) (p.val % 8)
  .next (s.writeCmd id a data (·.thmInitWrite p data))

end Sys2Proof.Machine
end

