-- ==== Sys2Proof/Machine/Flow.lean ====
section
/-!
DEFINITION. The flow table (R304 to R309, R315, R318) with the rules of cascades that bear on it (R330 to R340, R345), and the
latencies of samples (R134, R135, R177).
-/
namespace Sys2Proof.Machine

/-! ## Latencies -/

/-- Nanoseconds in whole CT, rounded up (R178). -/
def nsCt (ns : Nat) : Nat := (ns * 786432 + 99999) / 100000

/-- The transmit figures of R177 in ns. -/
def txNs (preset rate : Nat) : Nat :=
  (if preset = 0 then [2494, 1370, 804, 520, 380] else if preset = 1 then [1606, 926, 581, 410, 323]
    else [949, 594, 416, 327, 279]).getD rate 0

/-- L_g in CT (R177, R178): the figure of the group's slice. -/
def State.txLatency (s : State) (g : Nat) : Nat :=
  let i := s.sliceOf g
  nsCt (txNs (s.slicePreset true i) (s.sliceRate true i) - (if s.flag TXC.CFR_CTRL_en then 0 else 96) -
    (if s.flag (DPD.CTRL_en 0) then 0 else 38)) + (if s.flag CLK.PLL_CTRL_half then 96 else 0)

/-- Width of port q in lanes (R277). -/
def State.portWidth (s : State) (q : Nat) : Nat := 2 ^ s.get (PORT.CFG_width q)

/-- E_f in ns by format and width code (R135). -/
def egressNs (fmt width : Nat) : Nat :=
  (if fmt = 1 then [268, 204, 172, 156, 148] else if fmt = 2 then [276, 212, 180, 164, 156]
    else [292, 228, 196, 180, 172]).getD width 0

/-- E of R135 in CT, rounded up; 1,280 code-group bits at the lane rate. -/
def State.egressCt (s : State) (q fmt : Nat) : Nat :=
  let r := s.portRate q
  ((egressNs fmt (s.get (PORT.CFG_width q)) * r + 12800000) * 786432 + 100000 * r - 1) / (100000 * r)

/-! ## Orientation and roles (R330, R335, R345) -/

/-- Role of the device in a cascade. -/
def State.role (s : State) : Nat := s.get CAS.CFG_role

/-- A ring member acts in reverse. -/
def State.reversedNow (s : State) : Bool := s.get CAS.CFG_topo = 2 && 2 ≤ s.role && s.flag CAS.ORIENT_cur

/-- The port that a flow-table port field means. -/
def ringPort (rev : Bool) (q : Nat) : Nat := if rev then (if q = 0 then 1 else if q = 1 then 0 else q) else q

/-- Ports from which partial sums are expected, in ascending order. -/
def State.downPorts (s : State) : List Nat :=
  if s.role = 1 ∨ s.role = 2 then
    (List.range 4).filter fun q => (s.get CAS.DOWN_EN_ports).testBit (ringPort s.reversedNow q)
  else []

/-- Height of the device (R332, R345). -/
def State.height (s : State) : Nat :=
  if s.role = 0 then 0 else if s.reversedNow then s.get CAS.CFG_height_rev else s.get CAS.CFG_height_fwd

/-- The ports that are down ports in the device's role and topology (R330, R331). -/
def State.downSides (s : State) (rev : Bool) : List Nat :=
  if s.role ≠ 1 ∧ s.role ≠ 2 then []
  else if s.get CAS.CFG_topo = 1 then [1, 2, 3]
  else if s.get CAS.CFG_topo = 2 ∧ s.role = 1 then [1, 3]
  else [ringPort rev 1]

/-- Ports on which packets of a flow with rep are repeated (R335): down ports only (R336). -/
def State.repPorts (s : State) (f : FlowCfg) (rev : Bool) : List Nat :=
  (if !f.rep then []
   else if s.get CAS.CFG_topo = 1 ∨ (s.get CAS.CFG_topo = 2 ∧ s.role = 1) then
     (List.range 4).filter fun q => (s.get CAS.DOWN_EN_ports).testBit q
   else [ringPort rev f.repQ]).filter (s.downSides rev).contains

/-! ## Entries (R304) -/

/-- Address of word w of flow entry i. -/
def flowAddr (i w : Nat) : Nat := 0x38000000 + 32 * i + 4 * w

/-- Words 0 to 3 read as a configuration. -/
def flowOf (w0 w1 w2 w3 : Word) : FlowCfg where
  fid := bits w0 0 12
  ty := bits w0 12 4
  port := bits w0 16 2
  egress := bit w0 18
  fmt := bits w0 20 4
  bad := bit w0 30
  en := bit w0 31
  v0 := bits w1 0 7
  np := bits w1 8 8
  g := bits w1 16 2
  blocks := bits w1 20 4 + 1
  rep := bit w1 24 && !bit w0 18
  repQ := bits w1 25 2
  used := bit w1 27
  arg := w1.toNat
  win := bits w2 0 20
  slots := bits w3 0 16

/-- Flow entry i. -/
def State.flow (s : State) (i : Nat) : FlowCfg :=
  flowOf (s.word (flowAddr i 0)) (s.word (flowAddr i 1)) (s.word (flowAddr i 2)) (s.word (flowAddr i 3))

/-- The type carries samples. -/
def FlowCfg.isSample (f : FlowCfg) : Bool := f.ty = 0 || f.ty = 1
/-- Bytes of one block (R310). -/
def FlowCfg.block (f : FlowCfg) : Nat := if f.fmt = 1 then 48 else if f.fmt = 2 then 36 else if f.fmt = 3 then 37 else 28
/-- Payload of a sample packet (R312). -/
def FlowCfg.bytes (f : FlowCfg) : Nat := f.blocks * f.np * f.block
/-- Samples per port and packet. -/
def FlowCfg.samples (f : FlowCfg) : Nat := 12 * f.blocks
/-- Granules reserved (R318). -/
def FlowCfg.granules (f : FlowCfg) : Nat := if f.isSample && !f.egress && f.used then f.slots * ((f.bytes + 255) / 256) else 0

/-- The flow carries uplink samples: partial sums, and samples toward the baseband. -/
def FlowCfg.uplink (f : FlowCfg) : Bool := f.ty = 1 || f.egress

/-- Rate code of a sample flow's slice. -/
def State.flowRate (s : State) (f : FlowCfg) : Nat := s.sliceRate (!f.uplink) (s.sliceOf f.g)

/-- Enabled entries, in ascending order. -/
def State.enabledFlows (s : State) : List Nat :=
  s.link.alloc.filter fun i => (s.flow i).en

/-- Free staging granules (R318). -/
def State.stageFree (s : State) : Nat := 12288 - ((s.enabledFlows.map fun i => (s.flow i).granules).foldl (· + ·) 0)

/-! ## Load (R315) -/

/-- Columns of a packet on a port. -/
def State.columns (s : State) (q len : Nat) : Nat := (len + 20 + s.portWidth q - 1) / s.portWidth q + 2

/-- Σ C_f F_f of a set of flows in one direction of port q, in units of 1/720,720 columns per second. -/
def State.loadSum (s : State) (rev : Bool) (q : Nat) (tx : Bool) (fs : List FlowCfg) : Nat :=
  fs.foldl (fun a f =>
    let c := s.columns q f.bytes * 2 ^ s.flowRate f * 2560000 * (720720 / f.blocks)
    if !f.isSample then a
    else
      let own := if ringPort rev f.port = q ∧ f.egress = tx then c else 0
      let rep := if tx ∧ !f.egress then c * ((s.repPorts f rev).filter (· = q)).length else 0
      a + own + rep) 0

/-- K of R315 in units of 1/720,720 columns per second, times 4,096. -/
def State.loadCap (s : State) (q : Nat) : Nat := s.portRate q * 10000 * 4092 * 720720

/-- `LOAD_q` (R328). -/
def State.loadWord (s : State) (q : Nat) : Nat :=
  let fs := s.enabledFlows.map s.flow
  let l (tx : Bool) : Nat := (rhe (s.loadSum s.reversedNow q tx fs * 4096 * 4096 : Nat) (s.loadCap q)).toNat
  min 0x1FFF (l false) + 65536 * min 0x1FFF (l true)

/-- With flow f among a set of flows the load lies within its limit in f's direction of f's port, and in the egress direction of the
ports that repeat it (R306, R336), on a member of a ring in both orientations (R345). -/
def State.admits (s : State) (f : FlowCfg) (fs : List FlowCfg) : Bool :=
  (if s.get CAS.CFG_topo = 2 ∧ 2 ≤ s.role then [false, true] else [s.reversedNow]).all fun rev =>
    ((ringPort rev f.port, f.egress) :: (if f.egress then [] else (s.repPorts f rev).map fun q => (q, true))).all fun x =>
      decide (s.loadSum rev x.1 x.2 fs * 4096 * 32 ≤ 31 * s.loadCap x.1)

/-! ## The hop figure (R340) -/

/-- The COMBINE entries that H is computed from. -/
def State.hopFlows (s : State) (fs : List FlowCfg) : List FlowCfg :=
  let up := fs.filter fun f => f.ty = 1 && f.egress
  if up.isEmpty then (match s.downPorts with
    | [] => []
    | q :: _ => fs.filter fun f => f.ty = 1 && !f.egress && ringPort s.reversedNow f.port = q)
  else up

/-- H in CT, where COMBINE entries give it. -/
def State.hopCt (s : State) : Option Nat :=
  match s.hopFlows (s.enabledFlows.map s.flow) with
  | [] => none
  | f :: t =>
    let q := ringPort s.reversedNow f.port
    let r := s.portRate q
    let cols := (f :: t).foldl (fun a f => a + s.columns q f.bytes) 0
    -- ns times r in 100 kBd: E_f, the decode stage and the wire; 1,280 and 1,600 bits and the columns at the lane rate
    let n := (egressNs f.fmt (s.get (PORT.CFG_width q)) + 350 + s.get CAS.CFG_wire) * r + 10000 * (1280 + 1600 + 10 * cols)
    some ((n * 786432 + 100000 * r - 1) / (100000 * r))

/-- A COMBINE packet of the port would wait behind more than one packet of each other flow (R340). -/
def State.spacingBad (s : State) (f : FlowCfg) : Bool :=
  let q := ringPort s.reversedNow f.port
  let fs := f :: (s.enabledFlows.map s.flow).filter fun x => x.ty = 1 && x.egress && x.port = f.port
  let cols := fs.foldl (fun a x => a + s.columns q x.bytes) 0
  fs.any fun x => decide (48 * x.blocks * 6400000 * s.portRate q < cols * 100000 * 2 ^ s.flowRate x * 786432)

/-! ## Commands (R305, R306) -/

/-- Group g is joined with group g + 2 (R147). -/
def State.joined (s : State) (g : Nat) : Bool := (g = 0 && s.flag BF.JOIN_en_0) || (g = 1 && s.flag BF.JOIN_en_1)

/-- A port number of a flow as group and port (R304). -/
def beamPort (g v : Nat) : Nat × Nat := if v < 64 then (g, v) else (g + 2, v - 64)

/-- Fields out of range (R306). -/
def State.flowRange (s : State) (f : FlowCfg) : Bool :=
  6 < f.ty || (if f.isSample then f.fmt = 0 || 4 < f.fmt else f.fmt != 0) || f.bad ||
  (f.isSample && (f.np = 0 || 128 < f.np || (if s.joined f.g then 128 else 64) < f.v0 + f.np || (!f.egress && f.win < 16))) ||
  (f.ty = 3 && !f.egress && !(let r := s.flow (f.arg % 1024); f.arg % 1024 < 640 && r.en && r.egress && r.ty = 3)) ||
  ((f.ty = 2 || f.ty = 6) && 31 < f.arg) || (f.ty = 4 && f.egress && f.arg % 256 = 0)

/-- Rules of R336 and R338 that an enable would break: uplink samples leave by port 0 only, as SAMPLE at the root and as COMBINE below
it, one entry per group; partial sums enter by the ports of `DOWN_EN`, one entry per group and port. -/
def State.cascadeBad (s : State) (f : FlowCfg) : Bool :=
  let mine (x : FlowCfg) : Bool := x.ty = 1 || (s.role = 1 && x.egress && x.ty = 0)
  let others := (s.enabledFlows.map s.flow).filter fun x => x.g = f.g && mine x
  s.role != 0 && (
    (mine f && others.any fun x => x.blocks != f.blocks || x.np != f.np || (x.ty = 1 && f.ty = 1 && x.fmt != f.fmt)) ||
    (f.isSample && f.egress && (f.port != 0 || f.ty != (if s.role = 1 then 0 else 1) || others.any (·.egress))) ||
    (f.ty = 1 && f.egress && (f.v0 != 0 || f.np != s.ports false f.g + (if s.joined f.g then s.ports false (f.g + 2) else 0))) ||
    (f.ty = 1 && !f.egress && (s.role = 3 || !(s.get CAS.DOWN_EN_ports).testBit f.port ||
      others.any fun x => !x.egress && x.port = f.port)))

/-- Two flows have a beam port in common (R306). -/
def portOverlap (f x : FlowCfg) : Bool :=
  (List.range f.np).any fun j => (List.range x.np).any fun k => beamPort f.g (f.v0 + j) = beamPort x.g (x.v0 + k)

/-- Why an enable of entry i is refused (R306, R338, R340; log 68). -/
def State.flowRefusal (s : State) (i : Nat) : Option Nat :=
  let f := s.flow i
  let en := s.enabledFlows.map s.flow
  if en.any fun x => x.fid = f.fid && x.port = f.port && x.egress = f.egress then some 0x41
  else if s.flowRange f || s.cascadeBad f then some 0x42
  else if f.ty = 0 && !f.egress && f.used && en.any fun x => x.ty = 0 && !x.egress && x.used && portOverlap f x then some 0x44
  else if s.stageFree < f.granules then some 0x43
  else if f.isSample && !s.admits f (f :: en) then some 0x07
  else if f.ty = 1 && f.egress && s.spacingBad f then some 0x07
  else none

/-- Word 4 of an ingress entry: H and its validity (R320). -/
def State.setSeq (s : State) (i h : Nat) (hv : Bool) : State :=
  s.setWord (flowAddr i 4) (BitVec.ofNat 32 (h % 65536 + (if hv then 65536 else 0)))

/-- Adds one to a 16-bit count in the words kept by the device (R304). -/
def State.flowCount (s : State) (i w lo : Nat) : State :=
  let v := (s.word (flowAddr i w)).toNat
  s.setWord (flowAddr i w) (BitVec.ofNat 32 (setBits v lo 16 (min 0xFFFF (bitsOf v lo 16 + 1))))

/-- Sets the enable of an entry. A word that fails its check goes on failing until its owner rewrites it (R420). -/
def State.setEn (s : State) (i : Nat) (b : Bool) : State :=
  s.setWord (flowAddr i 0) ((s.word (flowAddr i 0) &&& 0x7FFFFFFF#32) ||| (if b then 0x80000000#32 else 0))

/-- The session ends, with its challenge where the flow is gone (R326). -/
def State.sessionEnd (s : State) (i : Nat) : State :=
  let mine : Bool := match s.link.chal with | some (j, _, _) => decide (j = i) | none => false
  let t : State := if mine then { s with link := { s.link with chal := none } } else s
  if t.link.session = some i then
    (({ t with link := { t.link with session := none } }).wr PNL.SESS_STAT 0).raise PNL.base 3
  else t

/-- An enabled entry becomes allocated (R305): its staged packets go at the next entry start, what a CTRL or DIAG flow has buffered at
once (log 41), and its Yarder channel loses its side (R406). -/
def State.flowOff (s : State) (i : Nat) : State :=
  let f := s.flow i
  let s := s.withdraw fun k d => s.get (YCH.CFG_periph k) == 0x10 && (f.ty == 2 || f.ty == 6) && f.arg % 32 == k && d.dstReq == f.egress
  let t : State := { s with
    staged := s.staged.map fun (x : Staged) => if x.idx = i then { x with off := true } else x
    link := { s.link with
      rxBuf := s.link.rxBuf.filter fun (e : Nat × List Byte) => e.1 != i
      txBuf := s.link.txBuf.filter fun (e : Nat × List Byte) => e.1 != i } }
  (t.setEn i false).sessionEnd i

/-- The result of a flow command. -/
def State.flowResult (s : State) (i : Nat) (ok : Bool) : State :=
  ((s.set PNL.FLOW_STAT_index i).setFlag PNL.FLOW_STAT_ok ok).raise PNL.base 1

/-- A detection in entry i (R309): an enabled entry is disabled, and an egress one sends nothing any more. The word goes on failing until
its owner rewrites it (R420). -/
def State.flowDetect (s : State) (i : Nat) : State :=
  let en := (s.flow i).en
  let t := if en then s.flowOff i else s
  let t := t.setWord (flowAddr i 0) (t.word (flowAddr i 0) ||| 0x40000000#32)
  let t : State := if en then { t with link := { t.link with
      prog := t.link.prog.filter (·.idx ≠ i)
      sums := t.link.sums.filter (·.idx ≠ i)
      out := t.link.out.map fun l => l.filter (·.idx ≠ i) } } else t
  (((t.count PNL.DET_COUNT_count 1).set PNL.DET_ENTRY_index i).set PNL.DET_ENTRY_valid 1).raise PNL.base 2

/-- Entry i has a failing word. -/
def State.flowBad (s : State) (i : Nat) : Bool := (List.range 8).any fun w => s.parityBad (flowAddr i w)

/-- A lookup of an entry in use checks it (R309). -/
def State.flowLook (s : State) (i : Nat) : State := if s.link.alloc.contains i ∧ s.flowBad i then s.flowDetect i else s

/-- An enable looks up its entry, the response entry it names and the enabled ones it is held against (R306, R309). An entry that is bad
already is refused as such and not looked up. -/
def State.enableLooks (s : State) (i : Nat) : State :=
  let look (t : State) (j : Nat) : State := if j < 640 ∧ !(t.flow j).bad ∧ t.flowBad j then t.flowDetect j else t
  let t := look s i
  let f := t.flow i
  let t := if f.ty = 3 ∧ !f.egress then look t (f.arg % 1024) else t
  t.enabledFlows.foldl (fun t j => t.flowLook j) t

/-- The effect of a flow command (R305). -/
def State.flowRun (s : State) (v : Word) : State :=
  let i := bits v 0 10
  let op := bits v 16 3
  let page := PNL.base
  let a := PNL.FLOW_CMD
  if op = 1 then
    (match (List.range 640).find? fun i => !s.link.alloc.contains i with
    | some i => ({ s with link := { s.link with alloc := (List.range 640).filter fun j => j = i || s.link.alloc.contains j } }).flowResult i true
    | none => (s.logErr page 0x06 a).flowResult i false)
  else if i ≥ 640 then (s.logErr page 0x42 a).flowResult i false
  else
    let s := if op = 2 then s.enableLooks i else s.flowLook i
    let f := s.flow i
    let has := s.link.alloc.contains i
    if op = 2 then
      (if has && f.en then s.flowResult i false
       else match s.flowRefusal i with
        | some c => (s.logErr page c a).flowResult i false
        | none =>
          let t : State := { s with link := { s.link with alloc := (List.range 640).filter fun j => j = i || s.link.alloc.contains j } }
          let t := t.setEn i true
          let t := if f.egress then t else t.setSeq i (bits (s.word (flowAddr i 4)) 0 16) false
          t.flowResult i true)
    else if op = 3 then (if has && f.en then (s.flowOff i).flowResult i true else s.flowResult i false)
    else if op = 4 then
      (if f.en ∨ !has then s.flowResult i false
       else
        let t : State := { s with link := { s.link with alloc := s.link.alloc.filter (· ≠ i) } }
        ((List.range 8).foldl (fun t w => t.setParityWord (flowAddr i w) 0) t).flowResult i true)
    else ((s.setParityWord (flowAddr i 6) 0).setParityWord (flowAddr i 7) 0).flowResult i true

/-- A flow command that runs completes once its time is over (R305); every look at the flow table comes after this. -/
def State.flowSettle (s : State) : State :=
  match s.link.cmd with
  | some (v, t) => if t ≤ s.now then ({ s with link := { s.link with cmd := none } }).flowRun v else s
  | none => s

/-- The time of a flow command that runs is over, whatever is left of it: what follows takes longer than a command does (R305). -/
def State.flowFinish (s : State) : State :=
  match s.link.cmd with
  | some (v, _) => ({ s with link := { s.link with cmd := none } }).flowRun v
  | none => s

/-- A write of `FLOW_CMD` (R305, R328): a command takes effect at its completion, after a time the spec only bounds by 2 µs (log 20); one
written while another runs has no effect, and the codes 0, 6 and 7 are no commands. -/
def State.flowCmd (s : State) (v : Word) : State :=
  let s := s.flowSettle
  if bits v 16 3 = 0 ∨ 5 < bits v 16 3 then s
  else if s.link.cmd.isSome then s.logErr PNL.base 0x47 PNL.FLOW_CMD
  else
    let r := s.free
    ({ r.2 with link := { r.2.link with cmd := some (v, s.now + r.1.toNat % (usCt 2 + 1)) } }).flowSettle

/-- A lookup of every enabled entry, after a flow command that is over has completed. -/
def State.flowsLook (s : State) : State :=
  let t := s.flowSettle
  t.enabledFlows.foldl (fun t i => t.flowLook i) t

/-- A write of a flow-table word (R304, R305, R309). -/
def State.flowWrite (s : State) (a : Nat) (v : Word) : State :=
  let s := s.flowSettle
  let i := (a - 0x38000000) / 32
  let w := (a - 0x38000000) / 4 % 8
  let f := s.flow i
  if w < 4 then
    (if f.en then s.logErr PNL.base 0x40 a
     else
      let t := s.setWord (flowAddr i 0) (s.word (flowAddr i 0) &&& 0xBFFFFFFF#32)
      t.setParityWord a (if w = 0 then v &&& 0x3FFFFFFF#32 else v))
  else if w = 4 ∧ f.egress ∧ !f.en then s.setParityWord a (v &&& 0xFFFF#32)
  else s

/-- A read of a flow-table word (R309). -/
def State.flowRead (s : State) (a : Nat) : State :=
  let s := s.flowSettle
  if s.parityBad a then (s.flowDetect ((a - 0x38000000) / 32)).detected else s.answerW (s.word a)

/-- `FLOW_COUNT` (R328). -/
def State.flowCountWord (s : State) : Nat := s.enabledFlows.length + 65536 * s.link.alloc.length

/-! ## Entries of the running list as symbols (R313) -/

/-- Samples per port of a symbol of D BT (R313). -/
def symSamples (d n : Nat) : Nat := d * 2 ^ n / 4

/-- Symbol time of packet k (R313). -/
def pktTime (start k blocks n : Nat) : Nat := start + k * 48 * blocks / 2 ^ n

/-- Packets of a symbol. -/
def pktCount (samples blocks : Nat) : Nat := (samples + 12 * blocks - 1) / (12 * blocks)

/-! ## Commands -/

/-- Meaning of FLOW_ALLOCATE: a write of `FLOW_CMD`. -/
def execFlowAllocate (id : ReqId) (data : Word) (s : State) : Host.Outcome State Fault Refusal :=
  .next (s.writeCmd id PNL.FLOW_CMD data (·.flowCmd data))

/-- Meaning of FLOW_ENABLE: a write of `FLOW_CMD`. -/
def execFlowEnable (id : ReqId) (data : Word) (s : State) : Host.Outcome State Fault Refusal :=
  .next (s.writeCmd id PNL.FLOW_CMD data (·.flowCmd data))

/-- Meaning of FLOW_DISABLE: a write of `FLOW_CMD`. -/
def execFlowDisable (id : ReqId) (data : Word) (s : State) : Host.Outcome State Fault Refusal :=
  .next (s.writeCmd id PNL.FLOW_CMD data (·.flowCmd data))

/-- Meaning of FLOW_FREE: a write of `FLOW_CMD`. -/
def execFlowFree (id : ReqId) (data : Word) (s : State) : Host.Outcome State Fault Refusal :=
  .next (s.writeCmd id PNL.FLOW_CMD data (·.flowCmd data))

/-- Meaning of FLOW_CLEAR: a write of `FLOW_CMD`. -/
def execFlowClear (id : ReqId) (data : Word) (s : State) : Host.Outcome State Fault Refusal :=
  .next (s.writeCmd id PNL.FLOW_CMD data (·.flowCmd data))

/-- Meaning of FLOW_TABLE_WRITE. -/
def execFlowTableWrite (id : ReqId) (word : Fin 5120) (data : Word) (s : State) : Host.Outcome State Fault Refusal :=
  .next (s.writeCmd id (0x38000000 + 4 * word) data (·.flowWrite (0x38000000 + 4 * word) data))

/-- Meaning of FLOW_TABLE_READ; the read may find an upset. -/
def execFlowTableRead (id : ReqId) (word : Fin 5120) (upset : Bool) (s : State) : Host.Outcome State Fault Refusal :=
  let a : Nat := 0x38000000 + 4 * word.val
  let t := if upset then s.hit a .multi else s
  .next (t.gated (rdAcc id a) (·.flowRead a))

end Sys2Proof.Machine
end

