-- ==== Sys2Proof/Machine/Mem.lean ====
section
/-!
DEFINITION. The SECDED memories (R414 to R417): correction, write-back, poison, partial writes; the common SRAM fences (R487).
-/
namespace Sys2Proof.Machine

/-- Index i of a SECDED memory (R414). -/
def secdedIndex : MemKind → Option Nat
  | .imem c => some c
  | .dmem c => some (8 + c)
  | .cmem => some 16
  | .aon => some 17
  | _ => none

/-- A correction in memory i at a 64-bit word (R415, R426). -/
def State.corrected (s : State) (i a b : Nat) : State :=
  let t := (s.count (MEM.CORR_COUNT_count i) 1).set (MEM.CORR_COUNT_bit i) b
  if t.get (MEM.CORR_ADDR_addr i) = a / 8 then
    (if t.flag (MEM.CORR_ADDR_repeat i) then t else (t.set (MEM.CORR_ADDR_repeat i) 1).raise MEM.base 3)
  else ((t.set (MEM.CORR_ADDR_addr i) (a / 8)).set (MEM.CORR_ADDR_repeat i) 0).raise MEM.base 1

/-- An uncorrectable error in memory i (R416): counted, and the word stored back as poison-marked. -/
def State.uncorrectable (s : State) (i a : Nat) : State :=
  let t := ((s.count (MEM.UNC_COUNT_count i) 1).set (MEM.UNC_ADDR_addr i) (a / 8)).raise MEM.base 2
  { t.heal a with poison := t.poison.put a true false }

/-- A 64-bit word is poison-marked. -/
def State.poisoned (s : State) (a : Nat) : Bool := s.poison.get (a - a % 8) false

/-- The check that every read of a SECDED word makes (R415, R416, R425). -/
def State.secdedCheck (s : State) (i a : Nat) : State :=
  let w := a - a % 8
  if s.poisoned w then s
  else match s.upsets.find? w with
  | none => s
  | some (.flip b) => ({ s with upsets := s.upsets.del w }).corrected i w b
  | some (.stuck b) => s.corrected i w b
  | some _ => s.uncorrectable i w

/-- A read of a SECDED memory: checked, then delivered with its poison mark. -/
def State.secdedRead (s : State) (i a size : Nat) : State :=
  let t := s.secdedCheck i a
  { t with resp := ⟨BitVec.ofNat 64 (t.load a size), false, false, t.poisoned a, false⟩ }

/-- A write of a SECDED memory (R417): a full clean word replaces whatever is stored; a smaller write merges into the checked
word, whose poison stays; poisoned data poisons the word (R416). -/
def State.secdedWrite (s : State) (i a size v : Nat) (p : Bool) : State :=
  let w := a - a % 8
  let t := if size = 8 then
      { s.heal w with poison := s.poison.put w false false }
    else s.secdedCheck i a
  let t := t.store a v size
  if p then { t with poison := t.poison.put w true false } else t

/-- Stores bytes of an engine of the device: the words they cover whole are written clean, a word at an edge merges into the checked
word (R417, R425). -/
def State.putClean (s : State) (a : Nat) (l : List Byte) : State :=
  let z := a + l.length
  let s := match (memAt a).bind secdedIndex with
    | some i =>
      let t := if a % 8 = 0 ∨ l = [] then s else s.secdedCheck i a
      if z % 8 = 0 ∨ l = [] ∨ (a % 8 ≠ 0 ∧ (z - 1) / 8 = a / 8) then t else t.secdedCheck i (z - 1)
    | none => s
  let t := s.putBytes a l
  let u := match memAt a with | some m => (if (secdedIndex m).isSome then 8 else 4) | none => 4
  let lo := (a + u - 1) / u * u
  let hi := (a + l.length) / u * u
  { t with
    upsets := healRange t.upsets lo hi
    poison := t.poison.filter fun e => !(decide (lo ≤ e.1) && decide (e.1 < hi)) }

/-- A bank of common SRAM is fenced (R487). -/
def State.fenced (s : State) (a : Nat) : Bool :=
  decide (0x10000000 ≤ a) && decide (a < 0x10400000) &&
    (s.get DBG.CMEM_FENCE_bank).testBit ((a - 0x10000000) / 0x40000)

/-- The error response of an access to a fenced bank (R487). -/
def State.fenceErr (s : State) (a : Nat) : State := (s.logErr DBG.base 0x41 a).errResp false

/-! ## Reads and writes of the device's own engines: SEC, the boot controller, the mirror (log 111) -/

/-- What a read of the 64-bit word at an address does to the state: the error of a fenced bank, or the SECDED check. -/
def State.engineWord (s : State) (a : Nat) : State :=
  if s.fenced a then s.logErr DBG.base 0x41 a
  else match (memAt a).bind secdedIndex with
    | some i => s.secdedCheck i a
    | none => s

/-- The reads of the words of n bytes from an address. -/
def State.engineCheck (s : State) (a n : Nat) : State :=
  (List.range ((a + n + 7) / 8 - a / 8)).foldl (fun (t : State) k => t.engineWord (a / 8 * 8 + 8 * k)) s

/-- The byte that such a read delivers: of the error response, in a fenced bank (R39). -/
def State.engineByte (s : State) (a : Nat) : Byte :=
  if s.fenced a then BitVec.ofNat 8 (0xDEAD0BAD / 256 ^ (a % 4)) else s.byte a

/-- The n bytes that they deliver. -/
def State.engineBytes (s : State) (a n : Nat) : List Byte :=
  if s.get DBG.CMEM_FENCE_bank = 0 then s.bytes a n else (List.range n).map fun i => s.engineByte (a + i)

/-- The part of an engine's bytes in one bank of common SRAM: stored, or an error for each word. -/
def State.engineStore1 (s : State) (a : Nat) (l : List Byte) : State :=
  if s.fenced a then (List.range ((a + l.length + 7) / 8 - a / 8)).foldl (fun (t : State) k => t.logErr DBG.base 0x41 (a / 8 * 8 + 8 * k)) s
  else s.putClean a l

/-- An engine stores bytes that touch at most two banks of common SRAM. -/
def State.engineStore (s : State) (a : Nat) (l : List Byte) : State :=
  let k := (a / 0x40000 + 1) * 0x40000 - a
  if l.length ≤ k then s.engineStore1 a l else (s.engineStore1 a (l.take k)).engineStore1 (a + k) (l.drop k)

end Sys2Proof.Machine
end

