-- ==== Sys2Proof/Machine/CoreBase.lean ====
section
/-!
DEFINITION. The Renelo cores as their pages show them (R358, R382 to R395): registers, landing of results, interrupt lines,
entry, exceptions, run, halt, reset, doorbell and watchdog. The issue of a bundle is in CoreIssue.lean.
-/
namespace Sys2Proof.Machine

/-- Core c. -/
def State.core (s : State) (c : Nat) : Core := s.cores.getD c Core.reset

/-- Stores core c. -/
def State.setCore (s : State) (c : Nat) (k : Core) : State := { s with cores := s.cores.set c k }

/-- Physical register of logical register i under rotation base rb (R368). -/
def physReg (rb i : Nat) : Nat := if i < 32 then i else 32 + (i - 32 + rb) % 32

/-- Logical g register i (R368) and its poison bit. -/
def Core.rg (k : Core) (i : Nat) : Word := k.g.get (physReg k.rb i) 0
/-- Poison bit of g register i. -/
def Core.rgP (k : Core) (i : Nat) : Bool := k.gP.get (physReg k.rb i) false

/-- A field of `ist` (R385). -/
def Core.istBit (k : Core) (n : Nat) : Bool := k.ist.getLsbD n
/-- One bit of `ist` written. -/
def Core.setIst (k : Core) (n : Nat) (b : Bool) : Core := { k with ist := setBit k.ist n b }

/-- One of a pair of loop registers. -/
def sel2 (p : Nat × Nat) (l : Nat) : Nat := if l = 0 then p.1 else p.2
/-- One of a pair of loop registers written. -/
def put2 (p : Nat × Nat) (l v : Nat) : Nat × Nat := if l = 0 then (v, p.2) else (p.1, v)

/-- A result lands in its register with its poison bit (R374, R391). -/
def Core.land (k : Core) (f : Flight) : Core :=
  let p := f.poison
  match f.dest with
  | .g r v => { k with g := k.g.put r v 0, gP := k.gP.put r p false }
  | .ac n v => { k with ac := k.ac.put n v 0, acP := k.acP.put n p false }
  | .pd n v => { k with pd := setBit k.pd n v, pdP := setBit k.pdP n p }
  | .ap n v => { k with ap := k.ap.put n v 0, apP := k.apP.put n p false }
  | .mo n v => { k with mo := k.mo.put n v 0, moP := k.moP.put n p false }
  | .cl n v => { k with cl := k.cl.put n v 0, clP := k.clP.put n p false }
  | .lc l v => { k with lc := put2 k.lc l v, spP := k.spP.put l p false }
  | .lb l v => { k with lb := put2 k.lb l v, spP := k.spP.put (2 + l) p false }
  | .le l v => { k with le := put2 k.le l v, spP := k.spP.put (4 + l) p false }
  | .rb v => { k with rb := v, spP := k.spP.put 6 p false }
  | .ipc v => { k with ipc := v, spP := k.spP.put 7 p false }
  | .ist v => { k with ist := v, spP := k.spP.put 8 p false }

/-- The end of a bundle: every result in flight comes one bundle nearer, and those that are due land, the later issued last
(R374, R375). -/
def Core.boundary (k : Core) : Core :=
  let due := k.flights.filter fun f => f.left ≤ 1
  let rest := (k.flights.filter fun f => ! decide (f.left ≤ 1)).map fun (f : Flight) => { f with left := f.left - 1 }
  due.foldl Core.land { k with flights := rest }

/-- Drains every result in flight (R383, R389), with fuel for the longest latency. -/
def Core.drain (k : Core) : Core :=
  { k.boundary.boundary.boundary.boundary with lastAc := [] }

/-- The page of `IRQ_ROUTE_i` has an enabled event pending (R382). -/
def State.pagePending (s : State) (pg : Nat) : Bool :=
  (s.rd (HDR.IRQ_PEND pg) &&& s.rd (HDR.IRQ_EN pg)) != 0

/-- The level line 56 + i of core c (R382). -/
def State.routeLine (s : State) (c i : Nat) : Bool :=
  s.flag (CORE.IRQ_ROUTE_en c i) && s.pagePending (0x40000000 + 0x1000 * s.get (CORE.IRQ_ROUTE_page c i))

/-- The pending lines of core c (R382): the latched ones, and lines 56 to 62 as their pages stand. -/
def State.intPend (s : State) (c : Nat) : BitVec 64 :=
  (List.range 7).foldl (fun m i => setBit m (56 + i) (s.routeLine c i)) (s.core c).latched

/-- The enabled lines of core c. -/
def State.intEn (s : State) (c : Nat) : BitVec 64 := BitVec.ofNat 64 (s.rd64 (CORE.INT_EN_LO c))

/-- The lowest line that is pending and enabled at core c. -/
def State.lowestLine (s : State) (c : Nat) : Option Nat :=
  (List.range 64).find? fun n => (s.intPend c &&& s.intEn c).getLsbD n

/-- Sets the latched pending bit of a line at core c (R382). -/
def State.latchLine (s : State) (c n : Nat) : State :=
  let k := s.core c
  s.setCore c { k with latched := setBit k.latched n true }

/-- Sets the latched pending bit of a line at every core (R382). -/
def State.latchAll (s : State) (n : Nat) : State := (List.range 8).foldl (fun t c => t.latchLine c n) s

/-- A write of 1s to `INT_PEND` (R382): latched bits clear; the level lines 56 to 62 stay. -/
def State.intPendClear (s : State) (c : Nat) (v : BitVec 64) : State :=
  let k := s.core c
  s.setCore c { k with latched := k.latched &&& ~~~(v &&& 0x80FFFFFFFFFFFFFF#64) }

/-- A bundle boundary is eligible (R384): not after a taken branch bundle or its first delay slot, and no di in force. -/
def Core.eligible (k : Core) : Bool := k.branch.isNone && !k.di

/-- A core issues, waits or is stalled: it is not halted. -/
def Core.active (k : Core) : Bool := k.mode != .halted

/-- An access of core c waits for its domain (R54): issue stands still until it is made (R361). -/
def State.coreStalled (s : State) (c : Nat) : Bool := s.stalled.any fun (a : Access) => a.id.toNat == 0x10 + c

/-- Core c halts after a drain (R393): `STAT.hpc` names the next bundle, event bit 1. -/
def State.coreHalt (s : State) (c : Nat) : State :=
  let k := (s.core c).drain
  ((s.setCore c { k with mode := .halted, haltReq := false, remote := none, loaded := [] }).set (CORE.STAT_hpc c) k.pc).raise (CORE.base c) 1

/-- A halt request (R393): at the next eligible boundary. -/
def State.coreHaltReq (s : State) (c : Nat) : State :=
  let k := s.core c
  if k.mode = .halted then s
  else if k.eligible ∧ k.mode ≠ .remote ∧ k.mode ≠ .fencing ∧ !s.coreStalled c then s.coreHalt c
  else s.setCore c { k with haltReq := true }

/-- The entry of an interrupt or a non-maskable interrupt at an eligible boundary (R383, R388). -/
def State.coreEnter (s : State) (c : Nat) (pc : Nat) (nmi : Bool) : State :=
  let k := (s.core c).drain
  let k := { k with ipc := k.pc % 8192, spP := k.spP.put 7 false false }
  let k := (k.setIst 1 (k.istBit 0)).setIst 0 false
  let k := (k.setIst 3 (k.istBit 2)).setIst 8 nmi
  s.setCore c { k with mode := .running, pc := pc }

/-- Takes the interrupt of a line (R383). -/
def State.takeInterrupt (s : State) (c n : Nat) : State :=
  let k := s.core c
  let s := s.setCore c { k with latched := setBit k.latched n false }
  ((s.coreEnter c (s.get (CORE.VEC_irq c)) false).set (CORE.INT_ACT_line c) n).set (CORE.INT_ACT_valid c) 1

/-- An interrupt is taken at an eligible boundary at which a line is pending and enabled while `ist.ie` = 1 (R383). -/
def State.interruptEntry (s : State) (c : Nat) : State :=
  let k := s.core c
  if (k.mode = .running ∨ k.mode = .waiting) ∧ k.eligible ∧ k.istBit 0 ∧ !s.coreStalled c then
    (match s.lowestLine c with
    | some n => s.takeInterrupt c n
    | none => s)
  else s

/-- A non-maskable interrupt enters at an eligible boundary, whatever ie is (R388). -/
def State.nmiEntry (s : State) (c : Nat) : State :=
  let k := s.core c
  if k.nmi ∧ (k.mode = .running ∨ k.mode = .waiting) ∧ k.eligible ∧ !s.coreStalled c then
    (s.setCore c { k with nmi := false }).coreEnter c (s.get (CORE.VEC_NMI_nmi c)) true
  else s

/-- The wait ends when an enabled line is pending: the interrupt is taken if ie = 1, else issue continues (R383). -/
def State.waitWake (s : State) (c : Nat) : State :=
  let k := s.core c
  if k.mode = .waiting ∧ !s.coreStalled c then
    (match s.lowestLine c with
    | none => s
    | some n =>
      if k.istBit 0 ∧ k.eligible then s.takeInterrupt c n else s.setCore c { k with mode := .running })
  else s

/-- Sends a non-maskable interrupt to every running core (R270). -/
def State.nmiAll (s : State) : State :=
  { s with cores := s.cores.map fun k => if k.active then { k with nmi := true } else k }

/-- Every register of a page from an offset on takes its warm value (R42). -/
def State.pageWarm (s : State) (pg off : Nat) : State :=
  { s with regs := s.regs.filterMap fun e =>
      if pg + off ≤ e.1 ∧ e.1 < pg + 0x1000 then
        (let v := warmWord s.otp e.1 e.2
         if v = coldWord s.otp e.1 then none else some (e.1, v))
      else some e }

/-- Core c takes its reset state (R393); IMEM and DMEM stay. -/
def State.coreReset (s : State) (c : Nat) : State := s.setCore c Core.reset

/-- A write of 1 to `CTRL.run` of a halted core (R393, R464). -/
def State.coreRun (s : State) (c : Nat) : State :=
  let k := s.core c
  if k.mode ≠ .halted then s
  else if !s.flag RST.BOOT_STAT_accepted then s.logErr RST.base 0x43 (CORE.CTRL c)
  else s.setCore c { k with mode := .running, pc := s.get (CORE.START_pc c) }

/-- A write of `CORE c .CTRL` (R393, R395). -/
def State.coreCtrlWrite (s : State) (c : Nat) (v : Word) : State :=
  let s := s.set (CORE.CTRL_aerr_exc c) (bits v 1 1)
  if bit v 0 then s.coreRun c else s.coreHaltReq c

/-- A write of `START` while the core runs has no effect (R395). -/
def State.coreStartWrite (s : State) (c : Nat) (v : Word) : State :=
  if (s.core c).active then s.logErr (CORE.base c) 0x40 (CORE.START c) else s.set (CORE.START_pc c) (bits v 0 13)

/-- A `DOORBELL` write (R382, R395): sets the writer's line; from a Yarder channel it has no effect. -/
def State.doorbell (s : State) (id : ReqId) (c : Nat) (v : Word) : State :=
  if !bit v 0 then s
  else if 0x10 ≤ id.toNat ∧ id.toNat < 0x18 then s.latchLine c (48 + (id.toNat - 0x10))
  else if id.toNat = 0x01 ∨ id.toNat = 0x02 ∨ id.toNat = 0x30 then s.latchLine c 63
  else s.logErr (CORE.base c) 0x41 (CORE.DOORBELL c)

/-- The deadline of the watchdog of core c, T µs from now (R394). -/
def State.coreWdogArm (s : State) (c : Nat) : State :=
  let t := s.get (CORE.WDOG_timeout c)
  let k := s.core c
  s.setCore c { k with wdog := if t = 0 then none else some (s.now + usCt t) }

/-- A write of `CORE c .WDOG` (R394). -/
def State.coreWdogWrite (s : State) (c : Nat) (v : Word) : State :=
  (s.set (CORE.WDOG_timeout c) (bits v 0 24)).coreWdogArm c

/-- A write of `WDOG_KICK` (R394, R395). -/
def State.coreKick (s : State) (c : Nat) (v : Word) : State :=
  if bits v 0 16 = 0x5A5A then s.coreWdogArm c else s.logErr (CORE.base c) 0x41 (CORE.WDOG_KICK c)

/-- The watchdog of core c expires (R394): only this core is reset. -/
def State.coreWdogExpiry (s : State) (c : Nat) : State :=
  match (s.core c).wdog with
  | none => s
  | some t =>
    if !s.on (3 + c) then s else
    let s := ((s.atNow t).coreReset c).pageWarm (CORE.base c) 0
    (s.set (CORE.STAT_wdog c) 1).raise (CORE.base c) 3

/-- A page number that R38 decodes. -/
def pageDecoded (n : Nat) : Bool := (pageOfNumber n).isSome

/-- A write of `IRQ_ROUTE_i` (R395). -/
def State.coreRouteWrite (s : State) (c i : Nat) (v : Word) : State :=
  if pageDecoded (bits v 0 7) then
    (s.set (CORE.IRQ_ROUTE_page c i) (bits v 0 7)).set (CORE.IRQ_ROUTE_en c i) (bits v 7 1)
  else s.logErr (CORE.base c) 0x41 (CORE.IRQ_ROUTE c i)

/-- A write to IMEM of core c takes effect only while core c is halted (R360). -/
def State.imemWrite (s : State) (c a size v : Nat) (p : Bool) : State :=
  if (s.core c).active then s.logErr (CORE.base c) 0x40 a else s.secdedWrite c a size v p

/-- Meaning of WAIT_WAKE. -/
def execWaitWake (c : Fin 8) (s : State) : Host.Outcome State Fault Refusal := .next (s.flowSettle.waitWake c)

/-- Meaning of INTERRUPT_ENTRY. -/
def execInterruptEntry (c : Fin 8) (s : State) : Host.Outcome State Fault Refusal := .next (s.flowSettle.interruptEntry c)

/-- Meaning of NMI_ENTRY. -/
def execNmiEntry (c : Fin 8) (s : State) : Host.Outcome State Fault Refusal := .next (s.nmiEntry c)

/-- Meaning of DOORBELL. -/
def execDoorbell (id : ReqId) (c : Fin 8) (data : Word) (s : State) : Host.Outcome State Fault Refusal :=
  .next (s.writeCmd id (CORE.DOORBELL c) data (·.doorbell id c data))

/-- Meaning of CORE_RUN: a write of `CTRL` with run = 1. -/
def execCoreRun (id : ReqId) (c : Fin 8) (data : Word) (s : State) : Host.Outcome State Fault Refusal :=
  .next (s.writeCmd id (CORE.CTRL c) data (·.coreCtrlWrite c data))

/-- Meaning of CORE_HALT_REQUEST: a write of `CTRL` with run = 0. -/
def execCoreHaltRequest (id : ReqId) (c : Fin 8) (data : Word) (s : State) : Host.Outcome State Fault Refusal :=
  .next (s.writeCmd id (CORE.CTRL c) data (·.coreCtrlWrite c data))

/-- Meaning of CORE_WATCHDOG_KICK. -/
def execCoreWatchdogKick (id : ReqId) (c : Fin 8) (data : Word) (s : State) : Host.Outcome State Fault Refusal :=
  .next (s.writeCmd id (CORE.WDOG_KICK c) data (·.coreKick c data))

/-- Meaning of CORE_WATCHDOG_EXPIRY. -/
def execCoreWatchdogExpiry (c : Fin 8) (s : State) : Host.Outcome State Fault Refusal := .next (s.coreWdogExpiry c)

/-- Meaning of IMEM_WRITE: a 32-bit write to the IMEM window of core c (R359, R360). -/
def execImemWrite (id : ReqId) (c : Fin 8) (word : Fin 32768) (data : Word) (s : State) :
    Host.Outcome State Fault Refusal :=
  let a : Nat := 0x08000000 + c.val * 0x100000 + 4 * word.val
  .next (s.writeCmd id a data (·.imemWrite c a 4 data.toNat false))

end Sys2Proof.Machine
end

