-- ==== Sys2Proof/Machine/Sha.lean ====
section
/-!
DEFINITION. SHA-256, the public hash the spec names (R473, R475, R483; FIPS 180-4, log 27). A digest is held as the number whose
byte n is byte n of the digest, as the SEC page shows it (R485).
-/
namespace Sys2Proof

/-- Round constants. -/
def shaK : List Nat :=
  [0x428A2F98, 0x71374491, 0xB5C0FBCF, 0xE9B5DBA5, 0x3956C25B, 0x59F111F1, 0x923F82A4, 0xAB1C5ED5,
   0xD807AA98, 0x12835B01, 0x243185BE, 0x550C7DC3, 0x72BE5D74, 0x80DEB1FE, 0x9BDC06A7, 0xC19BF174,
   0xE49B69C1, 0xEFBE4786, 0x0FC19DC6, 0x240CA1CC, 0x2DE92C6F, 0x4A7484AA, 0x5CB0A9DC, 0x76F988DA,
   0x983E5152, 0xA831C66D, 0xB00327C8, 0xBF597FC7, 0xC6E00BF3, 0xD5A79147, 0x06CA6351, 0x14292967] ++
  [0x27B70A85, 0x2E1B2138, 0x4D2C6DFC, 0x53380D13, 0x650A7354, 0x766A0ABB, 0x81C2C92E, 0x92722C85,
   0xA2BFE8A1, 0xA81A664B, 0xC24B8B70, 0xC76C51A3, 0xD192E819, 0xD6990624, 0xF40E3585, 0x106AA070,
   0x19A4C116, 0x1E376C08, 0x2748774C, 0x34B0BCB5, 0x391C0CB3, 0x4ED8AA4A, 0x5B9CCA4F, 0x682E6FF3,
   0x748F82EE, 0x78A5636F, 0x84C87814, 0x8CC70208, 0x90BEFFFA, 0xA4506CEB, 0xBEF9A3F7, 0xC67178F2]

/-- Initial hash value: eight words in one number, the first highest. -/
def shaInit : Nat := 0x6A09E667BB67AE853C6EF372A54FF53A510E527F9B05688C1F83D9AB5BE0CD19

/-- The word of a number that begins at bit n. -/
def wordAt (v n : Nat) : Nat := Nat.mod (Nat.shiftRight v n) 4294967296

/-- Two copies of a word side by side: shifted to the right by n below 32, the low word is the word rotated by n. -/
def twice (x : Nat) : Nat := Nat.mul x 4294967297

/-- The exclusive or of three rotations, above which bits of the other copies stand. -/
def rot3 (y a b c : Nat) : Nat := Nat.xor (Nat.xor (Nat.shiftRight y a) (Nat.shiftRight y b)) (Nat.shiftRight y c)

/-- Two rotations and a shift of a word, above which bits of the other copy stand. -/
def rot2 (x a b c : Nat) : Nat := Nat.xor (Nat.xor (Nat.shiftRight (twice x) a) (Nat.shiftRight (twice x) b)) (Nat.shiftRight x c)

/-- One round on the eight working variables, a highest: x is the round constant with the message word. Bits above a word drop out
when a sum is reduced. -/
def shaRound (v x : Nat) : Nat :=
  let y := Nat.shiftLeft v 32
  let p := Nat.xor y (Nat.shiftLeft v 64)
  let ch := Nat.shiftRight (Nat.xor (Nat.shiftLeft v 64) (Nat.land v p)) 96
  let maj := Nat.shiftRight (Nat.xor y (Nat.land (Nat.xor v y) p)) 224
  let t1 := Nat.add (Nat.add (Nat.add v (rot3 (twice (wordAt v 96)) 6 11 25)) ch) x
  let t2 := Nat.add (rot3 (twice (wordAt v 224)) 2 13 22) maj
  Nat.add (Nat.add (Nat.shiftLeft (Nat.mod (Nat.add t1 t2) 4294967296) 224)
      (Nat.shiftLeft (Nat.mod (Nat.shiftRight v 160) 79228162514264337593543950336) 128))
    (Nat.add (Nat.shiftLeft (Nat.mod (Nat.add (Nat.shiftRight v 128) t1) 4294967296) 96)
      (Nat.mod (Nat.shiftRight v 32) 79228162514264337593543950336))

/-- The message schedule as a window of 16 words, the next one lowest, moved on by one word. -/
def shaWindow (w : Nat) : Nat :=
  Nat.add (Nat.shiftRight w 32) (Nat.shiftLeft (Nat.mod (Nat.add (Nat.add w (rot2 (wordAt w 32) 7 18 3))
    (Nat.add (Nat.shiftRight w 288) (rot2 (wordAt w 448) 17 19 10))) 4294967296) 480)

/-- The rounds of one block. -/
def shaRounds : List Nat → Nat → Nat → Nat
  | [], v, _ => v
  | k :: t, v, w => shaRounds t (shaRound v (Nat.add k w)) (shaWindow w)

/-- Words added one by one. -/
def addWords : Nat → Nat → Nat → Nat
  | 0, _, _ => 0
  | n + 1, a, b => (a + b) % 2 ^ 32 + 2 ^ 32 * addWords n (a / 2 ^ 32) (b / 2 ^ 32)

/-- The 16 words of a block in the other order. -/
def wordsBack : Nat → Nat → Nat → Nat
  | 0, acc, _ => acc
  | n + 1, acc, b => wordsBack n (acc * 2 ^ 32 + b % 2 ^ 32) (b / 2 ^ 32)

/-- One block of 512 bits, its first word highest, on a hash value. -/
def shaBlock (h block : Nat) : Nat := addWords 8 h (shaRounds shaK h (wordsBack 16 0 block))

/-- The blocks of a padded message of n blocks. -/
def shaBlocks : Nat → Nat → Nat → Nat
  | 0, h, _ => h
  | n + 1, h, m => shaBlocks n (shaBlock h (m >>> (512 * n) % 2 ^ 512)) m

/-- A hash that stands after `before` bytes, whole blocks, ended by a last part of len bytes, the first highest. -/
def shaEnd (h before len m : Nat) : Nat :=
  let n := (len + 72) / 64
  shaBlocks n h ((m * 256 + 0x80) <<< (8 * (64 * n - len - 1)) + 8 * (before + len))

/-- Bytes as a number, byte 0 highest. -/
def beNum (l : List Byte) : Nat := l.foldl (fun (a : Nat) (b : Byte) => a * 256 + b.toNat) 0

/-- The whole blocks of a message, with fuel; the rest goes to `shaEnd`. -/
def shaBytes : Nat → Nat → Nat → List Byte → Nat
  | 0, h, _, _ => h
  | n + 1, h, before, l =>
    if l.length < 64 then shaEnd h before l.length (beNum l)
    else shaBytes n (shaBlock h (beNum (l.take 64))) (before + 64) (l.drop 64)

/-- The digest of a message as a number, its first byte highest. -/
def shaNum (m : List Byte) : Nat := shaBytes (m.length / 64 + 1) shaInit 0 m

/-- Bytes as a number, byte 0 lowest. -/
def leNat : List Byte → Nat
  | [] => 0
  | b :: t => b.toNat + 256 * leNat t

/-- n bytes of a number, lowest first. -/
def leBytes : Nat → Nat → List Byte
  | 0, _ => []
  | n + 1, v => BitVec.ofNat 8 v :: leBytes n (v / 256)

/-- The digest of a message. -/
def sha256 (m : List Byte) : BitVec 256 := BitVec.ofNat 256 (leNat (leBytes 32 (shaNum m)).reverse)

end Sys2Proof
end

