-- ==== Sys2Proof/Machine/Slh.lean ====
section
/-!
DEFINITION. SLH-DSA (FIPS 205), the signature scheme the spec names: SLH-DSA-SHA2-128s verification of images, commands and sessions
(R326, R473, R476), SLH-DSA-SHA2-128f keys and signatures of the identity (R481, R482). It is the pure scheme with an empty context
string (log 23). Strings of 16 bytes are numbers below 2^128, their first byte highest.
-/
namespace Sys2Proof

/-- A parameter set with n = 16 and w = 16: layers of the hypertree, height of a layer, height and number of the FORS trees. -/
structure SlhSet where
  d : Nat
  hp : Nat
  a : Nat
  k : Nat
  deriving DecidableEq, Repr

/-- SLH-DSA-SHA2-128s. -/
def slh128s : SlhSet := ⟨7, 9, 12, 14⟩
/-- SLH-DSA-SHA2-128f. -/
def slh128f : SlhSet := ⟨22, 3, 6, 33⟩

/-- A compressed address: layer, tree, type and the three last words. Types: 0 WOTS hash, 1 WOTS key, 2 tree, 3 FORS tree, 4 FORS
roots, 5 WOTS secret, 6 FORS secret. -/
def slhAdrs (layer tree type w1 w2 w3 : Nat) : Nat :=
  layer * 2 ^ 168 + tree * 2 ^ 104 + type * 2 ^ 96 + w1 * 2 ^ 64 + w2 * 2 ^ 32 + w3

/-- The hash after the block that the public seed fills. -/
def slhMid (seed : Nat) : Nat := shaBlock shaInit (seed <<< 384)

/-- The tweakable hash of len bytes under an address: F, H, T and PRF. -/
def slhHash (mid adrs len m : Nat) : Nat := shaEnd mid 64 (22 + len) (adrs <<< (8 * len) + m) >>> 128

/-- Strings of 16 bytes joined, the first highest. -/
def slhJoin (l : List Nat) : Nat := l.foldl (fun a x => a * 2 ^ 128 + x) 0

/-- n steps of a chain from step j. -/
def slhChain (mid adrs : Nat) : Nat → Nat → Nat → Nat
  | 0, _, x => x
  | n + 1, j, x => slhChain mid adrs n (j + 1) (slhHash mid (adrs + j) 16 x)

/-- The 35 digits of a string: 32 of its own and 3 of their checksum. -/
def wotsDigits (m : Nat) : List Nat :=
  let l := (List.range 32).map fun i => m / 16 ^ (31 - i) % 16
  let c := l.foldl (fun a x => a + (15 - x)) 0
  l ++ [c / 256 % 16, c / 16 % 16, c % 16]

/-- The WOTS public key that a signature of m gives. -/
def wotsFromSig (mid layer tree leaf m : Nat) (sig : List Nat) : Nat :=
  slhHash mid (slhAdrs layer tree 1 leaf 0 0) 560 (slhJoin (((wotsDigits m).zip (sig.zip (List.range 35))).map fun x =>
    slhChain mid (slhAdrs layer tree 0 leaf x.2.2 0) (15 - x.1) x.1 x.2.1))

/-- From a node up an authentication path; `adrs` gives the address of the tree without height and index. -/
def slhClimb (mid adrs : Nat) : List Nat → Nat → Nat → Nat → Nat
  | [], _, _, x => x
  | p :: t, z, i, x =>
    slhClimb mid adrs t (z + 1) (i / 2) (slhHash mid (adrs + (z + 1) * 2 ^ 32 + i / 2) 32
      (if i % 2 = 0 then x * 2 ^ 128 + p else p * 2 ^ 128 + x))

/-- The root of a tree of a layer that a signature of m gives. -/
def xmssFromSig (mid layer tree leaf m : Nat) (sig : List Nat) : Nat :=
  slhClimb mid (slhAdrs layer tree 2 0 0 0) (sig.drop 35) 0 leaf (wotsFromSig mid layer tree leaf m (sig.take 35))

/-- The root of the hypertree: n layers from layer j on. -/
def htFromSig (p : SlhSet) (mid : Nat) : Nat → Nat → Nat → Nat → Nat → List Nat → Nat
  | 0, _, _, _, m, _ => m
  | n + 1, j, tree, leaf, m, sig =>
    htFromSig p mid n (j + 1) (tree / 2 ^ p.hp) (tree % 2 ^ p.hp) (xmssFromSig mid j tree leaf m (sig.take (35 + p.hp))) (sig.drop (35 + p.hp))

/-- The FORS public key that a signature gives: n digits i of the digest from tree t on. -/
def forsRoots (p : SlhSet) (mid tree leaf : Nat) : List Nat → Nat → List Nat → List Nat
  | [], _, _ => []
  | x :: l, t, sig =>
    let i := t * 2 ^ p.a + x
    slhClimb mid (slhAdrs 0 tree 3 leaf 0 0) ((sig.drop 1).take p.a) 0 i (slhHash mid (slhAdrs 0 tree 3 leaf 0 i) 16 (sig.getD 0 0)) ::
      forsRoots p mid tree leaf l (t + 1) (sig.drop (1 + p.a))

/-- The FORS public key of its roots. -/
def forsKey (p : SlhSet) (mid tree leaf : Nat) (roots : List Nat) : Nat :=
  slhHash mid (slhAdrs 0 tree 4 leaf 0 0) (16 * p.k) (slhJoin roots)

/-- What the digest of a message selects: FORS digits, tree, leaf. -/
structure SlhPick where
  digits : List Nat
  tree : Nat
  leaf : Nat
  deriving DecidableEq, Repr

/-- n bytes of a number, the first highest. -/
def numBytes (n v : Nat) : List Byte := (leBytes n v).reverse

/-- The message as it is signed: pure, with an empty context string. -/
def slhMessage (m : List Byte) : List Byte := [0#8, 0#8] ++ m

/-- The digest of a message and what it selects. -/
def slhPick (p : SlhSet) (r seed root : Nat) (m : List Byte) : SlhPick :=
  let h := numBytes 16 r ++ numBytes 16 seed ++ numBytes 32 (shaNum (numBytes 16 r ++ numBytes 16 seed ++ numBytes 16 root ++ m))
  let out := shaNum (h ++ numBytes 4 0) * 2 ^ 256 + shaNum (h ++ numBytes 4 1)
  let md := (p.k * p.a + 7) / 8
  let nt := (p.d * p.hp - p.hp + 7) / 8
  let nl := (p.hp + 7) / 8
  let field (from_ n : Nat) : Nat := out / 2 ^ (8 * (64 - from_ - n)) % 2 ^ (8 * n)
  ⟨(List.range p.k).map fun i => field 0 md / 2 ^ (8 * md - p.a * (i + 1)) % 2 ^ p.a,
    field md nt % 2 ^ (p.d * p.hp - p.hp), field (md + nt) nl % 2 ^ p.hp⟩

/-- Strings of 16 bytes of a list of bytes, with fuel. -/
def slhParts : Nat → List Byte → List Nat
  | 0, _ => []
  | n + 1, l => beNum (l.take 16) :: slhParts n (l.drop 16)

/-- Strings of a signature: the randomiser, the FORS part, the hypertree part. -/
def slhLength (p : SlhSet) : Nat := 1 + p.k * (1 + p.a) + p.d * (35 + p.hp)

/-- The root that a signature gives for a message. -/
def slhRoot (p : SlhSet) (seed root : Nat) (m : List Byte) (sig : List Nat) : Nat :=
  let q := slhPick p (sig.getD 0 0) seed root m
  let mid := slhMid seed
  let key := forsKey p mid q.tree q.leaf (forsRoots p mid q.tree q.leaf q.digits 0 (sig.drop 1))
  htFromSig p mid p.d 0 q.tree q.leaf key (sig.drop (1 + p.k * (1 + p.a)))

/-- SLH-DSA-SHA2-128s verification of a signature by a public key over a message. -/
def slhVerify (pubkey message signature : List Byte) : Bool :=
  signature.length == 7856 && pubkey.length == 32 &&
    slhRoot slh128s (beNum (pubkey.take 16)) (beNum (pubkey.drop 16)) (slhMessage message) (slhParts 491 signature) == beNum (pubkey.drop 16)

/-! ## Keys and signatures of the identity -/

/-- The start of WOTS chain c of a leaf. -/
def wotsSecret (mid sk layer tree leaf c : Nat) : Nat := slhHash mid (slhAdrs layer tree 5 leaf c 0) 16 sk

/-- The WOTS public key of a leaf. -/
def wotsKey (mid sk layer tree leaf : Nat) : Nat :=
  slhHash mid (slhAdrs layer tree 1 leaf 0 0) 560 (slhJoin ((List.range 35).map fun c =>
    slhChain mid (slhAdrs layer tree 0 leaf c 0) 15 0 (wotsSecret mid sk layer tree leaf c)))

/-- A node of a tree of a layer: height, index. -/
def xmssNode (mid sk layer tree : Nat) : Nat → Nat → Nat
  | 0, i => wotsKey mid sk layer tree i
  | z + 1, i =>
    slhHash mid (slhAdrs layer tree 2 0 (z + 1) i) 32
      (xmssNode mid sk layer tree z (2 * i) * 2 ^ 128 + xmssNode mid sk layer tree z (2 * i + 1))

/-- A leaf's secret of the FORS trees. -/
def forsSecret (mid sk tree leaf i : Nat) : Nat := slhHash mid (slhAdrs 0 tree 6 leaf 0 i) 16 sk

/-- A node of the FORS trees: height, index. -/
def forsNode (mid sk tree leaf : Nat) : Nat → Nat → Nat
  | 0, i => slhHash mid (slhAdrs 0 tree 3 leaf 0 i) 16 (forsSecret mid sk tree leaf i)
  | z + 1, i =>
    slhHash mid (slhAdrs 0 tree 3 leaf (z + 1) i) 32
      (forsNode mid sk tree leaf z (2 * i) * 2 ^ 128 + forsNode mid sk tree leaf z (2 * i + 1))

/-- The sibling of a node. -/
def sibling (i : Nat) : Nat := if i % 2 = 0 then i + 1 else i - 1

/-- The signature of m by a leaf of a tree of a layer. -/
def xmssSign (p : SlhSet) (mid sk layer tree leaf m : Nat) : List Nat :=
  (((wotsDigits m).zip (List.range 35)).map fun x =>
    slhChain mid (slhAdrs layer tree 0 leaf x.2 0) x.1 0 (wotsSecret mid sk layer tree leaf x.2)) ++
  (List.range p.hp).map fun z => xmssNode mid sk layer tree z (sibling (leaf / 2 ^ z))

/-- The hypertree signature of m: n layers from layer j on. -/
def htSign (p : SlhSet) (mid sk : Nat) : Nat → Nat → Nat → Nat → Nat → List Nat
  | 0, _, _, _, _ => []
  | n + 1, j, tree, leaf, m =>
    let sig := xmssSign p mid sk j tree leaf m
    sig ++ htSign p mid sk n (j + 1) (tree / 2 ^ p.hp) (tree % 2 ^ p.hp) (xmssFromSig mid j tree leaf m sig)

/-- The FORS signature of the digits. -/
def forsSign (p : SlhSet) (mid sk tree leaf : Nat) (digits : List Nat) : List Nat :=
  (digits.zip (List.range p.k)).flatMap fun x =>
    let i := x.2 * 2 ^ p.a + x.1
    forsSecret mid sk tree leaf i :: (List.range p.a).map fun z => forsNode mid sk tree leaf z (sibling (i / 2 ^ z))

/-- HMAC-SHA-256 with a key of 16 bytes. -/
def hmacSha (key : Nat) (m : List Byte) : Nat :=
  let pad (x : Byte) : List Byte := (numBytes 16 key ++ List.replicate 48 0).map (· ^^^ x)
  shaNum (pad 0x5C#8 ++ numBytes 32 (shaNum (pad 0x36#8 ++ m)))

/-- The root of the top tree of a key. -/
def slhTop (p : SlhSet) (mid sk : Nat) : Nat := xmssNode mid sk (p.d - 1) 0 p.hp 0

/-- The public key of a 48-byte seed, which is SK.seed, SK.prf and PK.seed (R481). -/
def slhKeygen (seed : List Byte) : List Byte :=
  let pkSeed := beNum ((seed.drop 32).take 16)
  numBytes 16 pkSeed ++ numBytes 16 (slhTop slh128f (slhMid pkSeed) (beNum (seed.take 16)))

/-- The SLH-DSA-SHA2-128f signature of a message under a 48-byte seed, with the 16 random bytes that it takes. -/
def slhSign (seed message rnd : List Byte) : List Byte :=
  let p := slh128f
  let sk := beNum (seed.take 16)
  let pkSeed := beNum ((seed.drop 32).take 16)
  let mid := slhMid pkSeed
  let m := slhMessage message
  let r := hmacSha (beNum ((seed.drop 16).take 16)) (rnd ++ m) / 2 ^ 128
  let q := slhPick p r pkSeed (slhTop p mid sk) m
  let fors := forsSign p mid sk q.tree q.leaf q.digits
  let key := forsKey p mid q.tree q.leaf (forsRoots p mid q.tree q.leaf q.digits 0 fors)
  (r :: (fors ++ htSign p mid sk p.d 0 q.tree q.leaf key)).flatMap (numBytes 16)

end Sys2Proof
end

