-- ==== Sys2Proof/Machine/Sec.lean ====
section
/-!
DEFINITION. The SEC block (R471 to R485): key slots and their fuses, the rollback counter, commands, challenges, quotes, the
random bit generator; and the check of an Ilutin image (R473, R474).
-/
namespace Sys2Proof.Machine

/-! ## Fuses (R471): burning only sets bits -/

/-- Key slot i. -/
def Otp.slot (o : Otp) (i : Nat) : KeySlot := o.slots.getD i ⟨0, 0, false, false⟩

/-- Burns bits of key slot i. -/
def Otp.burnSlot (o : Otp) (i : Nat) (b : KeySlot) : Otp :=
  let k := o.slot i
  let k' : KeySlot := ⟨k.hash ||| b.hash, k.perm ||| b.perm, k.enrolled || b.enrolled, k.revoked || b.revoked⟩
  { o with slots := o.slots.set i k' }

/-- Burns bits of the rollback counter. -/
def Otp.burnRoll (o : Otp) (b : BitVec 64) : Otp := { o with roll := o.roll ||| b }

/-- Burns bits of the identity public key. -/
def Otp.burnId (o : Otp) (b : BitVec 256) : Otp := { o with idPk := o.idPk ||| b }

/-- State of a key slot (R475). -/
def KeySlot.state (k : KeySlot) : Nat :=
  if k.revoked then 2 else if k.enrolled then 1 else if k.hash != 0 || k.perm != 0 then 3 else 0

/-- Permissions: firmware bit 0, management session bit 1, authority bit 2 (R475). -/
def KeySlot.may (k : KeySlot) (bit : Nat) : Bool := k.state == 1 && k.perm.getLsbD bit

/-- The `SLOTS` word (R485). -/
def Otp.slotsWord (o : Otp) : Nat :=
  (List.range 4).foldl (fun a i => a + 2 ^ (8 * i) * ((o.slot i).state + 4 * (o.slot i).perm.toNat)) 0

/-- Consecutive set bits from bit 0, with fuel. -/
def onesFrom : Nat → Nat → Nat
  | 0, _ => 0
  | n + 1, v => if v % 2 = 1 then 1 + onesFrom n (v / 2) else 0

/-- The rollback counter (R479). -/
def Otp.rollCount (o : Otp) : Nat := onesFrom 64 o.roll.toNat

/-- The identity seed has been fused and its public key is present: `LOCKS.seeded` (R481). -/
def Otp.seeded (o : Otp) : Bool := o.idPk != 0

/-- The `LOCKS` word. -/
def State.locksWord (s : State) : Nat :=
  (if s.otp.rstOk then 1 else 0) + (if s.otp.dbgClosed then 2 else 0) + (if s.otp.seeded then 4 else 0) +
    8 * s.get SEC.LOCKS_id_bad

/-- `SYS.ID` (R52). -/
def State.sysId (s : State) : Nat := 0x16400000 + 0x100 * s.otp.grade

/-! ## The random bit generator (R484) -/

/-- n random bytes, and the state with the words drawn. -/
def State.randomBytes (s : State) (n : Nat) : List Byte × State :=
  ((List.range n).flatMap fun i => leBytes 4 (Config.randomWord (s.sec.drawn + i)).toNat,
   { s with sec := { s.sec with drawn := s.sec.drawn + n } })

/-- A read of `RNG_DATA`. -/
def State.rngRead (s : State) : State :=
  if s.flag SEC.RNG_STAT_ok then
    ({ s with sec := { s.sec with drawn := s.sec.drawn + 1 } }).answerW (Config.randomWord s.sec.drawn)
  else s.answer 0xDEAD0BAD

/-- A health test fails (R484). -/
def State.rngFail (s : State) : State :=
  let t := ((s.set SEC.RNG_STAT_ok 0).count SEC.RNG_STAT_fail 1).raise SEC.base 2
  { t with sec := { t.sec with rngFailAt := some t.now } }

/-- The retest of the source 1 ms after a failure: ok returns when it passes (R484; the test at start, log 28). -/
def State.rngRetest (s : State) (pass : Bool) : State :=
  if s.flag SEC.RNG_STAT_ok then s
  else
    let t := match s.sec.rngFailAt with | some f => s.atNow (f + usCt 1000) | none => s
    if pass then { t.set SEC.RNG_STAT_ok 1 with sec := { t.sec with rngFailAt := none } } else t.rngFail

/-! ## Commands (R476 to R482) -/

/-- A command ends at once with a code that is logged (R477). -/
def State.secRefuse (s : State) (op code : Nat) : State :=
  ((s.set SEC.STAT_op op).set SEC.STAT_result code).logErr SEC.base code SEC.CMD

/-- A command ends at once, done. -/
def State.secDone (s : State) (op : Nat) : State :=
  (((s.set SEC.STAT_op op).set SEC.STAT_result 1).set SEC.STAT_busy 0).raise SEC.base 1

/-- A command starts to run. -/
def State.secStart (s : State) (j : SecJob) : State :=
  { ((s.set SEC.STAT_op j.op).set SEC.STAT_result 0).set SEC.STAT_busy 1 with sec := { s.sec with job := some j } }

/-- Byte n of the command block. -/
def State.cmdByte (s : State) (n : Nat) : Nat := (s.engineByte (4 * s.get SEC.CMD_ADDR_addr + n)).toNat

/-- Bytes of the command block. -/
def State.cmdBytes (s : State) (n len : Nat) : List Byte := s.engineBytes (4 * s.get SEC.CMD_ADDR_addr + n) len

/-- The read of the command block of an enrol or a revoke: 36 bytes of one that needs no signature, else 7,928 (R476, R477; log 111). -/
def State.cmdFetch (s : State) (signed : Bool) : State := s.engineCheck (4 * s.get SEC.CMD_ADDR_addr) (if signed then 7928 else 36)

/-- The signature of a signed command verifies against this requester's challenge (R476). -/
def State.cmdAuthorised (s : State) (id : ReqId) : Bool :=
  match s.sec.challenge with
  | some (cid, nonce, at_) =>
    let k := s.otp.slot (s.cmdByte 36)
    let pk := s.cmdBytes 40 32
    cid == id && decide (s.now ≤ at_ + usCt 100000) && decide (s.cmdByte 36 < 4) && k.may 2 && sha256 pk == k.hash &&
      slhVerify pk (nonce ++ s.cmdBytes 0 36) (s.cmdBytes 72 7856)
  | none => false

/-- After a command some enrolled slot still holds firmware permission, and some authority (R477). -/
def keysLeft (l : List KeySlot) : Bool := l.any (·.may 0) && l.any (·.may 2)

/-- The slots after an enrol or a revoke. -/
def slotsAfter (o : Otp) (op t perm : Nat) (hash : BitVec 256) : List KeySlot :=
  if op = 1 then (o.burnSlot t ⟨hash, BitVec.ofNat 3 perm, true, false⟩).slots
  else (o.burnSlot t ⟨0, 0, false, true⟩).slots

/-- An enrol or a revoke (R477): the first failing check refuses it (log 58). -/
def State.secKey (s : State) (id : ReqId) (op : Nat) : State :=
  let empty := s.otp.slots.all fun k => k.state == 0
  if s.flag SEC.CTRL_km_dis then s.secRefuse op 0x45
  else if s.sec.job.isSome then s.secRefuse op 0x40
  else if op = 1 ∧ empty ∧ id ≠ 0x01 then s.secRefuse op 0x44
  else
  let s := s.cmdFetch !(op == 1 && empty)
  let t := s.cmdByte 0
  let perm := s.cmdByte 1
  let hash := BitVec.ofNat 256 (leNat (s.cmdBytes 4 32))
  let used : State := { s with sec := { s.sec with challenge := match s.sec.challenge with
    | some c => if c.1 = id then none else some c
    | none => none } }
  if !(op = 1 && empty) && !s.cmdAuthorised id then used.secRefuse op 0x41
  else if op = 1 ∧ !(s.otp.slots.any fun k => k.state == 0) then used.secRefuse op 0x06
  else if t ≥ 4 then used.secRefuse op 0x42
  else if op = 1 ∧ ((s.otp.slot t).state ≠ 0 ∨ perm = 0 ∨ perm ≥ 8) then used.secRefuse op 0x42
  else if op = 2 ∧ (s.otp.slot t).state ≠ 1 then used.secRefuse op 0x42
  else if !keysLeft (slotsAfter s.otp op t perm hash) then used.secRefuse op 0x43
  else used.secStart ⟨id, op, t, perm, hash, 0, s.dev⟩

/-- A quote (R482). -/
def State.secQuote (s : State) (id : ReqId) : State :=
  let a := 4 * s.get SEC.CMD_ADDR_addr
  if s.sec.job.isSome then s.secRefuse 3 0x40
  else if s.flag SEC.LOCKS_id_bad then s.secRefuse 3 0x42
  else if memAt (a + 64) ≠ some .cmem ∨ memAt (a + 64 + 17291) ≠ some .cmem then s.secRefuse 3 0x42
  else s.secStart ⟨id, 3, 0, 0, 0, a, s.dev⟩

/-- An advance of the rollback counter (R479). -/
def State.secAdvance (s : State) (id : ReqId) : State :=
  if s.flag SEC.CTRL_km_dis then s.secRefuse 4 0x45
  else if s.sec.job.isSome then s.secRefuse 4 0x40
  else if id.toNat < 0x10 ∨ 0x18 ≤ id.toNat then s.secRefuse 4 0x44
  else match s.sec.imgRoll with
  | none => s.secDone 4
  | some r => if r ≤ s.otp.rollCount then s.secDone 4 else s.secStart ⟨id, 4, r, 0, 0, 0, s.dev⟩

/-- A challenge (R476, R484): 32 random bytes in `NONCE`; it replaces an earlier one. -/
def State.secChallenge (s : State) (id : ReqId) : State :=
  if s.sec.job.isSome then s.secRefuse 5 0x40
  else if !s.flag SEC.RNG_STAT_ok then s.secRefuse 5 0x42
  else
    let r := s.randomBytes 8
    let s := (List.range 8).foldl (fun t n => t.wr (SEC.NONCE n) (BitVec.ofNat 32 (leNat ((r.1.drop (4 * n)).take 4)))) r.2
    ({ s with sec := { s.sec with challenge := some (id, r.1, s.now) } }).secDone 5

/-- A write of `SEC.CMD` (R476): 0 and 6 to 15 do nothing. -/
def State.secCmdWrite (s : State) (id : ReqId) (v : Word) : State :=
  match bits v 0 4 with
  | 1 => s.secKey id 1
  | 2 => s.secKey id 2
  | 3 => s.secQuote id
  | 4 => s.secAdvance id
  | 5 => s.secChallenge id
  | _ => s

/-- A write of `CMD_ADDR`: outside common SRAM it is refused (R485). -/
def State.cmdAddrWrite (s : State) (v : Word) : State :=
  if memAt (v.toNat - v.toNat % 4) = some .cmem then s.set SEC.CMD_ADDR_addr (bits v 2 30)
  else s.logErr SEC.base 0x42 SEC.CMD_ADDR

/-- The lock map of a quote (R482). -/
def State.lockMap (s : State) : Nat :=
  (List.range 128).foldl (fun a n =>
    if pageDecoded n && s.flag (HDR.LOCK_locked (0x40000000 + 0x1000 * n)) then a + 2 ^ n else a) 0

/-- Bytes of registers that hold a hash or key, word by word. -/
def State.regBytes (s : State) (a n : Nat) : List Byte := (List.range n).flatMap fun i => leBytes 4 (s.rd (a + 4 * i)).toNat

/-- Bytes 0 to 203 of a quote (R482; log 129). -/
def State.quoteBody (s : State) (j : SecJob) : List Byte :=
  leBytes 4 1 ++ leBytes 4 s.sysId ++ s.engineBytes j.addr 32 ++ leBytes 8 j.time.toNat ++
  s.regBytes (SEC.MEAS_ROM 0) 8 ++ s.regBytes (SEC.MEAS_IMG 0) 8 ++
  [BitVec.ofNat 8 (s.get SEC.IMG_slot), BitVec.ofNat 8 (s.get SEC.IMG_rollback), BitVec.ofNat 8 s.otp.rollCount, 0] ++
  leBytes 4 s.otp.slotsWord ++ leBytes 16 s.lockMap ++ leBytes 4 s.locksWord ++
  leBytes 32 (sha256 Config.optShadow).toNat ++ leBytes 32 s.otp.idPk.toNat

/-- The quote of a command with its signature (R482), which takes the next free values for the randomiser that FIPS 205 leaves to the
signer (log 23). -/
def State.quote (s : State) (j : SecJob) : List Byte × State :=
  let s := s.engineCheck j.addr 32
  let body := s.quoteBody j
  let rnd := (List.range 4).flatMap fun i => leBytes 4 (Config.freeWord (s.drawn + i)).toNat
  (body ++ slhSign s.otp.idSeed body rnd, { s with drawn := s.drawn + 4 })

/-- A running command finishes its burns or its signature (R478, R479, R482). -/
def State.secComplete (s : State) : State :=
  match s.sec.job with
  | none => s
  | some j =>
    let s := { s with sec := { s.sec with job := none } }
    let s := match j.op with
      | 1 => { s with otp := s.otp.burnSlot j.slot ⟨j.hash, BitVec.ofNat 3 j.perm, true, false⟩ }
      | 2 => { s with otp := s.otp.burnSlot j.slot ⟨0, 0, false, true⟩ }
      | 3 =>
        let q := s.quote j
        q.2.engineStore (j.addr + 64) q.1
      | 4 => { s with otp := s.otp.burnRoll (BitVec.ofNat 64 (2 ^ j.slot - 1)) }
      | _ => s
    s.secDone j.op

/-- A reset cuts a running command short (R478, R479, R483): an enrol leaves the slot spoiled, a revoke leaves its bit burnt or
not, an advance leaves some of its bits burnt, a quote leaves a part of itself and no result. How much is open. -/
def State.secCut (s : State) : State :=
  match s.sec.job with
  | none => s
  | some j =>
    let r := s.free
    let burnt := BitVec.ofNat 256 ((List.range 8).foldl (fun m n => m + 2 ^ (32 * n) * (Config.freeWord (s.drawn + 1 + n)).toNat) 0)
    let s : State := { r.2 with sec := { r.2.sec with job := none }, drawn := s.drawn + 9 }
    match j.op with
    | 1 =>
      let h := j.hash &&& burnt
      let p := BitVec.ofNat 3 j.perm &&& r.1.setWidth 3
      -- the slot reads spoiled, so that some bit of it is burnt
      { s with otp := s.otp.burnSlot j.slot ⟨h, if h = 0 ∧ p = 0 then BitVec.ofNat 3 j.perm else p, false, false⟩ }
    | 2 => { s with otp := s.otp.burnSlot j.slot ⟨0, 0, false, r.1.getLsbD 0⟩ }
    | 4 => { s with otp := s.otp.burnRoll (BitVec.ofNat 64 (2 ^ (min j.slot (s.otp.rollCount + r.1.toNat % 64)) - 1)) }
    | 3 => (let q := s.quote j; q.2.engineStore (j.addr + 64) (q.1.take (r.1.toNat % 17293)))
    | _ => s

/-- The challenge of a requester expires (R476). -/
def State.challengeExpiry (s : State) (id : ReqId) : State :=
  match s.sec.challenge with
  | some (c, _, t) => if c = id then (let u := s.atNow (t + usCt 100000); { u with sec := { u.sec with challenge := none } }) else s
  | none => s

/-- The identity public key at a boot with the seed fused (R481): a field with bits missing is completed; a field with bits burnt that
the derivation does not give sets `LOCKS.id_bad`. A seed of zeros is not fused (log 110). -/
def State.deriveIdentity (s : State) : State :=
  let pk := BitVec.ofNat 256 (leNat (slhKeygen s.otp.idSeed))
  if s.otp.idSeed.all (· == 0) then s
  else if s.otp.idPk &&& ~~~pk = 0 then { s with otp := s.otp.burnId pk } else s.set SEC.LOCKS_id_bad 1

/-- `MEAS_ROM`: the digest of the boot ROM (R483). -/
def State.measureRom (s : State) : State :=
  let d := (sha256 ((List.range 0x20000).map Config.bootRom)).toNat
  (List.range 8).foldl (fun t n => t.wr (SEC.MEAS_ROM n) (BitVec.ofNat 32 (d / 2 ^ (32 * n)))) s

/-! ## Ilutin images (R473, R474) -/

/-- A little-endian field of an image. -/
def State.imgField (s : State) (base off n : Nat) : Nat := s.load (base + off) n

/-- Segment i of an image: target, length, offset (R473). -/
def State.imgSeg (s : State) (base i : Nat) : Nat × Nat × Nat :=
  (s.imgField base (96 + 16 * i) 4, s.imgField base (100 + 16 * i) 4, s.imgField base (104 + 16 * i) 4)

/-- Two ranges overlap; an empty one overlaps nothing. -/
def overlaps (a n b m : Nat) : Bool := decide (0 < n) && decide (0 < m) && decide (a < b + m) && decide (b < a + n)

/-- Check 1 of R474; the length field gives the total of the bytes that the requester names (log 45). -/
def State.imgFormOk (s : State) (base len : Nat) : Bool :=
  let f := s.imgField base
  let n := f 6 2
  let length := f 8 4
  let segs := (List.range n).map (s.imgSeg base)
  f 0 4 == 0x4E544C49 && f 4 2 == 1 && decide (1 ≤ n) && decide (n ≤ 64) && decide (len ≤ 2 ^ 23) &&
  length == len && length % 4 == 0 && decide (96 + 16 * n + 7856 ≤ length) &&
  decide (f 12 1 ≤ 3) && decide (f 13 1 ≤ 64) && f 15 1 == 0 && (List.range 28).all (fun i => f (36 + i) 1 == 0) &&
  (List.range n).all (fun i => f (108 + 16 * i) 4 == 0) &&
  segs.all (fun g => g.1 % 4 == 0 && g.2.1 % 4 == 0 && decide (4 ≤ g.2.1) && decide (g.2.1 ≤ 2 ^ 23) &&
    decide (96 + 16 * n ≤ g.2.2) && decide (g.2.2 + g.2.1 ≤ length - 7856)) &&
  (List.range n).all (fun i => (List.range i).all fun j =>
    !overlaps (s.imgSeg base i).1 (s.imgSeg base i).2.1 (s.imgSeg base j).1 (s.imgSeg base j).2.1)

/-- A segment target lies within IMEM, DMEM, common SRAM or the AON retention SRAM below 0x1803_0000 (R468). -/
def segTargetOk (a n : Nat) : Bool :=
  match memAt a, memAt (a + n - 1) with
  | some (.imem c), some (.imem d) => c = d
  | some (.dmem c), some (.dmem d) => c = d
  | some .cmem, some .cmem => true
  | some .aon, some .aon => decide (a + n ≤ 0x18030000)
  | _, _ => false

/-- The first Landing word of the staged image that fails its check. -/
def State.imgDetected (s : State) (base len : Nat) : Option Nat :=
  (List.find? (fun (e : Nat × _) => decide (base ≤ e.1) && decide (e.1 < base + len) && memAt e.1 == some .landing) s.upsets).map (·.1)

/-- The checks of R474 in order: the result code of R468. -/
def State.imgResult (s : State) (base len : Nat) : Nat :=
  let f := s.imgField base
  let segs := (List.range (f 6 2)).map (s.imgSeg base)
  let k := s.otp.slot (f 12 1)
  let m := s.bytes base (f 8 4 - 7856)
  let pk := s.bytes (base + 64) 32
  let dumpBase := 1024 * s.get RST.DUMP_PTR_base
  let dumpLen := 1024 * s.get RST.DUMP_LEN_kib
  if (s.imgDetected base len).isSome then 8
  else if !s.imgFormOk base len then 2
  else if !k.may 0 then 4
  else if f 13 1 < s.otp.rollCount then 5
  else if sha256 pk ≠ k.hash ∨ !slhVerify pk m (s.bytes (base + f 8 4 - 7856) 7856) then 3
  else if s.flag RST.DUMP_MARK_mark ∧ segs.any (fun g => overlaps g.1 g.2.1 dumpBase dumpLen) then 6
  else if !segs.all (fun g => segTargetOk g.1 g.2.1) then 7
  else 1

/-- Copies 4 or 8 bytes of an image (R468): a poisoned word of the source keeps its mark (R419), a fenced target errs (R487). -/
def State.copyUnit (s : State) (src dst size : Nat) : State :=
  let s := s.engineCheck src size
  let p := (List.range size).any fun i => s.poisoned (src + i)
  if s.fenced dst then s.logErr DBG.base 0x41 dst
  else match (memAt dst).bind secdedIndex with
    | some i => s.secdedWrite i dst size (s.load src size) p
    | none => s

/-- Copies n words of an image to a target, two at a time where they fill a word of 64 bits. -/
def State.copyWords (s : State) (src dst : Nat) : Nat → State
  | 0 => s
  | 1 => s.copyUnit src dst 4
  | n + 2 =>
    if dst % 8 = 0 then (s.copyUnit src dst 8).copyWords (src + 8) (dst + 8) n
    else (s.copyUnit src dst 4).copyWords (src + 4) (dst + 4) (n + 1)

/-- Meaning of KEY_ENROL: a write of `CMD` with op 1. -/
def execKeyEnrol (id : ReqId) (data : Word) (s : State) : Host.Outcome State Fault Refusal :=
  .next (s.writeCmd id SEC.CMD data (·.secCmdWrite id data))

/-- Meaning of KEY_REVOKE: a write of `CMD` with op 2. -/
def execKeyRevoke (id : ReqId) (data : Word) (s : State) : Host.Outcome State Fault Refusal :=
  .next (s.writeCmd id SEC.CMD data (·.secCmdWrite id data))

/-- Meaning of QUOTE: a write of `CMD` with op 3. -/
def execQuote (id : ReqId) (data : Word) (s : State) : Host.Outcome State Fault Refusal :=
  .next (s.writeCmd id SEC.CMD data (·.secCmdWrite id data))

/-- Meaning of ADVANCE_ROLLBACK: a write of `CMD` with op 4. -/
def execAdvanceRollback (id : ReqId) (data : Word) (s : State) : Host.Outcome State Fault Refusal :=
  .next (s.writeCmd id SEC.CMD data (·.secCmdWrite id data))

/-- Meaning of SEC_CHALLENGE: a write of `CMD` with op 5. -/
def execSecChallenge (id : ReqId) (data : Word) (s : State) : Host.Outcome State Fault Refusal :=
  .next (s.writeCmd id SEC.CMD data (·.secCmdWrite id data))

/-- Meaning of SEC_COMMAND_COMPLETE. -/
def execSecCommandComplete (s : State) : Host.Outcome State Fault Refusal := .next s.secComplete

/-- Meaning of SEC_CHALLENGE_EXPIRY. -/
def execSecChallengeExpiry (id : ReqId) (s : State) : Host.Outcome State Fault Refusal := .next (s.challengeExpiry id)

/-- Meaning of RNG_READ. -/
def execRngRead (id : ReqId) (s : State) : Host.Outcome State Fault Refusal :=
  .next (s.gated (rdAcc id SEC.RNG_DATA) State.rngRead)

/-- Meaning of RNG_HEALTH_FAIL. -/
def execRngHealthFail (s : State) : Host.Outcome State Fault Refusal := .next s.rngFail

/-- Meaning of RNG_RETEST. -/
def execRngRetest (pass : Bool) (s : State) : Host.Outcome State Fault Refusal := .next (s.rngRetest pass)

end Sys2Proof.Machine
end

