-- ==== Sys2Proof/Machine/Crc.lean ====
section
/-!
DEFINITION. The checks of R302: CRC-32C as RFC 3720 defines it, and the CRC-16 of a Punor header.
-/
namespace Sys2Proof

/-- One bit step of the reflected CRC-32C. -/
def crc32cBit (c : BitVec 32) : BitVec 32 := if c.getLsbD 0 then (c >>> 1) ^^^ 0x82F63B78#32 else c >>> 1

/-- One byte of the CRC-32C, before the final inversion. -/
def crc32cByte (c : BitVec 32) (b : Byte) : BitVec 32 :=
  crc32cBit (crc32cBit (crc32cBit (crc32cBit (crc32cBit (crc32cBit (crc32cBit (crc32cBit (c ^^^ b.setWidth 32))))))))

/-- A word, least-significant byte first. -/
def crc32cWord (c : BitVec 32) (w : Word) : BitVec 32 :=
  crc32cByte (crc32cByte (crc32cByte (crc32cByte c (w.extractLsb' 0 8)) (w.extractLsb' 8 8)) (w.extractLsb' 16 8))
    (w.extractLsb' 24 8)

/-- The CRC-32C of bytes (R302). -/
def crc32c (l : List Byte) : BitVec 32 := (l.foldl crc32cByte 0xFFFFFFFF#32) ^^^ 0xFFFFFFFF#32

/-- One bit step of the CRC-16 with polynomial 0x1021, most-significant bit first. -/
def crc16Bit (c : BitVec 16) : BitVec 16 := if c.getLsbD 15 then (c <<< 1) ^^^ 0x1021#16 else c <<< 1

/-- One byte of the CRC-16. -/
def crc16Byte (c : BitVec 16) (b : Byte) : BitVec 16 :=
  crc16Bit (crc16Bit (crc16Bit (crc16Bit (crc16Bit (crc16Bit (crc16Bit (crc16Bit (c ^^^ (b.setWidth 16 <<< 8)))))))))

/-- The header check over bytes 0 to 13 of a packet (R302). -/
def crc16 (l : List Byte) : BitVec 16 := l.foldl crc16Byte 0xFFFF#16

end Sys2Proof
end

