-- ==== Sys2Proof/Machine/Line.lean ====
section
/-!
DEFINITION. The line code of the lanes (R275, R276, R279 to R281, R297): characters, the 8b/10b code of IEEE 802.3 Clause 36
(log 100), the columns of packets and of the alignment cycle, and the pseudo-random sequences of ITU-T O.150.
-/
namespace Sys2Proof.Machine

/-! ## Characters -/

/-- A character of a lane: a data byte, or a control character by its byte (R276). -/
inductive LineChar where
  | d (b : Nat)
  | k (b : Nat)
  deriving DecidableEq, Repr

/-- Comma (R276). -/
def k28_5 : LineChar := .k 0xBC
/-- Idle. -/
def k28_0 : LineChar := .k 0x1C
/-- Start of packet. -/
def k27_7 : LineChar := .k 0xFB
/-- End of packet. -/
def k29_7 : LineChar := .k 0xFD
/-- Abort. -/
def k30_7 : LineChar := .k 0xFE
/-- Quiet notice. -/
def k28_3 : LineChar := .k 0x7C

/-- The control characters that the lane layer uses (R276). -/
def lineControls : List LineChar := [k28_5, k28_0, k27_7, k29_7, k30_7, k28_3]

/-! ## The 8b/10b code (R275) -/

/-- The 6-bit code of a data character's low five bits at negative disparity, bit a first. -/
def sixTable : List Nat :=
  [0b100111, 0b011101, 0b101101, 0b110001, 0b110101, 0b101001, 0b011001, 0b111000] ++
  [0b111001, 0b100101, 0b010101, 0b110100, 0b001101, 0b101100, 0b011100, 0b010111] ++
  [0b011011, 0b100011, 0b010011, 0b110010, 0b001011, 0b101010, 0b011010, 0b111010] ++
  [0b110011, 0b100110, 0b010110, 0b110110, 0b001110, 0b101110, 0b011110, 0b101011]

/-- The 4-bit code of a data character's high three bits at negative disparity, bit f first. -/
def fourTable : List Nat := [0b1011, 0b1001, 0b0101, 0b1100, 0b1101, 0b1010, 0b0110, 0b1110]

/-- The 4-bit code of a control character's high three bits at positive disparity; at negative disparity its complement. -/
def fourControl : List Nat := [0b0100, 0b1001, 0b0101, 0b0011, 0b0010, 0b1010, 0b0110, 0b1000]

/-- Ones among the low w bits. -/
def onesOf (v w : Nat) : Nat := ((List.range w).filter fun i => v.testBit i).length

/-- The low five bits of a character as a 6-bit code, from a running disparity (true: positive). -/
def encSix (rd : Bool) (c : LineChar) : Nat :=
  match c with
  | .d b =>
    let v := sixTable.getD (b % 32) 0
    if rd ∧ (onesOf v 6 ≠ 3 ∨ b % 32 = 7) then 63 - v else v
  | .k b =>
    let v := if b % 32 = 28 then 0b001111 else sixTable.getD (b % 32) 0
    if rd then 63 - v else v

/-- The high three bits of a character as a 4-bit code, from the running disparity after its 6-bit code. -/
def encFour (rd : Bool) (c : LineChar) : Nat :=
  match c with
  | .d b =>
    let y := b / 32 % 8
    let x := b % 32
    if y = 7 ∧ ((!rd ∧ (x = 17 ∨ x = 18 ∨ x = 20)) ∨ (rd ∧ (x = 11 ∨ x = 13 ∨ x = 14))) then (if rd then 0b1000 else 0b0111)
    else
      let v := fourTable.getD y 0
      if rd ∧ (onesOf v 4 ≠ 2 ∨ y = 3) then 15 - v else v
  | .k b =>
    let v := fourControl.getD (b / 32 % 8) 0
    if rd then v else 15 - v

/-- The running disparity after a sub-block of w bits. -/
def rdAfter (rd : Bool) (v w : Nat) : Bool := if 2 * onesOf v w = w then rd else decide (w < 2 * onesOf v w)

/-- The code group of a character from a running disparity, the bit sent first in bit 9, and the disparity after it. -/
def encode10 (rd : Bool) (c : LineChar) : Nat × Bool :=
  let a := encSix rd c
  let m := rdAfter rd a 6
  let b := encFour m c
  (16 * a + b, rdAfter m b 4)

/-- The character of a code group received at a running disparity: none outside the code or with the wrong disparity. -/
def decode10 (rd : Bool) (g : Nat) : Option LineChar :=
  ((List.range 256).map LineChar.d ++ (List.range 256).filterMap fun b =>
    if b % 32 = 28 ∨ (b / 32 = 7 ∧ (b % 32 = 23 ∨ b % 32 = 27 ∨ b % 32 = 29 ∨ b % 32 = 30)) then some (LineChar.k b) else none).find?
      fun c => decide ((encode10 rd c).1 = g)

/-- A received code group is a code violation (R275, R276): not in the code, or a control character the lane layer does not use. -/
def isViolation (rd : Bool) (g : Nat) : Bool :=
  match decode10 rd g with
  | none => true
  | some (.k b) => !lineControls.contains (.k b)
  | some (.d _) => false

/-! ## Columns (R279, R281) -/

/-- A column of a port of width w: one character at position 0, idle elsewhere. -/
def headColumn (w : Nat) (c : LineChar) : List LineChar := c :: List.replicate (w - 1) k28_0

/-- Bytes striped over w lanes, the last column filled up with idle. -/
def byteColumns (w : Nat) (b : List Byte) : List (List LineChar) :=
  (List.range ((b.length + w - 1) / w)).map fun n => (List.range w).map fun v =>
    match b[n * w + v]? with | some x => .d x.toNat | none => k28_0

/-- The columns of a packet: start, bytes, end. -/
def packetColumns (w : Nat) (b : List Byte) : List (List LineChar) :=
  headColumn w k27_7 :: (byteColumns w b ++ [headColumn w k29_7])

/-- The columns of a packet that ends with an abort after n of its columns. -/
def abortColumns (w : Nat) (b : List Byte) (n : Nat) : List (List LineChar) := (packetColumns w b).take n ++ [headColumn w k30_7]

/-- The number of a port's column in the cycle of 4,096 that the n-th free column takes: columns 0 and 1 are the alignment column, and
columns 2 and 2,050 are idle (log 101). -/
def slotColumn (n : Nat) : Nat := 4096 * (n / 4092) + (if n % 4092 < 2047 then n % 4092 + 3 else n % 4092 + 4)

/-- The first free column at or after a column. -/
def slotFrom (k : Nat) : Nat :=
  4092 * (k / 4096) + (if k % 4096 ≤ 3 then 0 else if k % 4096 ≤ 2050 then k % 4096 - 3 else k % 4096 - 4)

/-- The character on lane position v of port q in a column that no packet may take: alignment or idle; none in a free column. -/
def fixedChar (q v col : Nat) : Option LineChar :=
  if col % 4096 = 0 then some k28_5
  else if col % 4096 = 1 then some (.d (0x80 + 16 * q + v))
  else if col % 4096 = 2 ∨ col % 4096 = 2050 then some k28_0
  else none

/-! ## Pseudo-random sequences (R297) -/

/-- Length and second tap of a polynomial code: PRBS7, PRBS15, PRBS23, PRBS31. -/
def prbsTaps (poly : Nat) : Nat × Nat := if poly = 0 then (7, 6) else if poly = 1 then (15, 14) else if poly = 2 then (23, 18) else (31, 28)

/-- One shift of the generator's register: the bit put out, which is also shifted in, and the register after. -/
def prbsShift (poly r : Nat) : Bool × Nat :=
  let t := prbsTaps poly
  let b := r.testBit (t.1 - 1) != r.testBit (t.2 - 1)
  (b, (2 * r + (if b then 1 else 0)) % 2 ^ t.1)

/-- The register after n shifts. -/
def prbsReg (poly : Nat) : Nat → Nat → Nat
  | 0, r => r
  | n + 1, r => prbsReg poly n (prbsShift poly r).2

/-- The register at the start of lane l's sequence: the lane's number, and all ones for lane 0, whose number is the state that gives no
sequence (log 102). -/
def prbsSeed (poly l : Nat) : Nat := if l = 0 then 2 ^ (prbsTaps poly).1 - 1 else l

/-- Bit n of lane l's sequence. -/
def prbsBit (poly l n : Nat) : Bool := (prbsShift poly (prbsReg poly n (prbsSeed poly l))).1

/-- Eight bits of the sequence from bit n on as a fill byte; the first is sent first (log 102). -/
def prbsByte (poly l n : Nat) (inj : List Nat) : Nat :=
  (List.range 8).foldl (fun a i => if prbsBit poly l (n + i) != inj.contains (n + i) then a + 2 ^ i else a) 0

end Sys2Proof.Machine
end

