-- ==== Sys2Proof/Machine/Slices.lean ====
section
/-!
DEFINITION. Receive and transmit slices (R119 to R129, R174): configuration, the start check, arming, starting and stopping.
-/
namespace Sys2Proof.Machine

/-- The page of a direction's slices. -/
def chainPage (tx : Bool) : Nat := if tx then TXC.base else RXC.base

/-- Stores slice i of a direction. -/
def State.setSlice (s : State) (tx : Bool) (i : Nat) (c : Slice) : State :=
  if tx then { s with txSlices := s.txSlices.set i c } else { s with rxSlices := s.rxSlices.set i c }

/-- What the started slices give to the kernel of a stand (R183): each slice's offset from the stand's transmit centre, and the gain in
force. -/
def State.kernelOf (s : State) (st : Nat) : List KernelPart :=
  ((List.range 4).filter fun i => (s.slice true i).isStarted).map fun i =>
    ⟨s.slicePreset true i, s.sliceRate true i, (s.freq (STD.TX_NCO_LO st i) + 2 ^ 48 - s.freq (STD.TX_CENTRE_LO st)) % 2 ^ 48,
      s.effGet (TXC.SLICE_GAIN_gain i)⟩

/-- The kernel is formed anew at each start and stop of a transmit slice, for the samples from an instant on (R183). -/
def State.formKernel (s : State) (ct : Nat) : State :=
  let k := (List.range 8).map s.kernelOf
  let old := if ct = s.tx.kernelCt then s.tx.kernelOld else s.tx.kernel
  { s with tx := { s.tx with kernel := k, kernelCt := ct, kernelOld := old } }

/-- Slice i starts at an instant (R124): phase zero, filter state zero, event bit 1. The transmit filters take no input from before a
slice's start. -/
def State.sliceBegin (s : State) (tx : Bool) (i ct : Nat) : State :=
  let t := s.setSlice tx i { s.slice tx i with phase := .started ct, stopNext := false }
  let t := if tx then t.formKernel ct
    else
      { t with rx := { t.rx with paths := t.rx.paths.map fun (p : RxPath) =>
          { p with flt := p.flt.set i [], eqh := p.eqh.set i [], fdh := p.fdh.set i [] },
                                   tails := t.rx.tails.set i none } }
  t.raise (chainPage tx) 1

/-- The step of the NCO of slice i on a stand (R98). -/
def State.ncoStep (s : State) (tx : Bool) (st i : Nat) : Nat :=
  4 * ((s.freq (sliceWordAddr tx st i) + 2 ^ 48 - s.freq (centreAddr tx st)) % 2 ^ 48) % 2 ^ 48

/-- The run of a started receive slice. -/
def State.rxLive (s : State) (i : Nat) : RxRun :=
  ⟨(s.slice false i).startCt, s.slicePreset false i, s.sliceRate false i, (List.range 8).map fun st => s.ncoStep false st i⟩

/-- A started receive slice is about to stop at an entry start: its last samples still come (R121). -/
def State.rxTail (s : State) (i : Nat) : State :=
  { s with rx := { s.rx with tails := s.rx.tails.set i (some (s.ct, s.rxLive i)) } }

/-- Slice i stops at once, without an event. -/
def State.sliceDrop (s : State) (tx : Bool) (i : Nat) : State :=
  let t := s.setSlice tx i Slice.reset
  if tx && (s.slice tx i).isStarted then t.formKernel t.ct else t

/-- Slice i returns from armed or started to stopped (R125): event bit 2. -/
def State.sliceHalt (s : State) (tx : Bool) (i : Nat) : State := (s.sliceDrop tx i).raise (chainPage tx) 2

/-- Every armed or started slice of a direction stops at once; a check is cancelled (R129, R270). -/
def State.slicesStop (s : State) (tx : Bool) : State :=
  (List.range 4).foldl (fun t i => if (t.slice tx i).live then t.sliceHalt tx i else t.sliceDrop tx i) s

/-- As `slicesStop` at a reset of the page, which raises no event (R125). -/
def State.slicesReset (s : State) (tx : Bool) : State := (List.range 4).foldl (fun t i => t.sliceDrop tx i) s

/-- A write of `SLICE_CFG_i` (R122, R130, R151, R174). -/
def State.sliceCfgWrite (s : State) (tx : Bool) (i : Nat) (v : Word) : State :=
  let a := if tx then TXC.SLICE_CFG i else RXC.SLICE_CFG i
  if (s.slice tx i).live then s.logErr (chainPage tx) 0x40 a
  else if bits v 0 3 > 4 ∨ bits v 4 2 = 3 then s.logErr (chainPage tx) (if tx then 0x47 else 0x43) a
  else
    let t := if tx then ((s.set (TXC.SLICE_CFG_rate i) (bits v 0 3)).set (TXC.SLICE_CFG_preset i) (bits v 4 2)).set
        (TXC.SLICE_CFG_at_time i) (bits v 8 1)
      else ((s.set (RXC.SLICE_CFG_rate i) (bits v 0 3)).set (RXC.SLICE_CFG_preset i) (bits v 4 2)).set
        (RXC.SLICE_CFG_at_time i) (bits v 8 1)
    if bits v 0 3 = s.sliceRate tx i then t else s.budgeted a t

/-- The armed and started bits of `SLICE_CFG_i`. -/
def State.sliceCfgWord (s : State) (tx : Bool) (i : Nat) : Nat :=
  let c := s.slice tx i
  let r := s.rd (if tx then TXC.SLICE_CFG i else RXC.SLICE_CFG i)
  r.toNat % 65536 + (if c.live && !c.isStarted then 65536 else 0) + (if c.isStarted then 131072 else 0)

/-- `SLICE_T` of a direction. -/
def State.sliceT (s : State) (tx : Bool) : Nat := s.rd64 (if tx then TXC.SLICE_T_LO else RXC.SLICE_T_LO)

/-- A slice of a direction that starts at `SLICE_T` is armed or started, which holds `SLICE_T` (R124). -/
def State.holdsT (s : State) (tx : Bool) : Bool :=
  (List.range 4).any fun i => (s.slice tx i).live && s.flag (if tx then TXC.SLICE_CFG_at_time i else RXC.SLICE_CFG_at_time i)

/-- The whole of `SLICE_T` is written (R124): no effect while a slice that takes its start from it is armed or started. -/
def State.sliceTSet (s : State) (tx : Bool) (v : Nat) : State :=
  let a := if tx then TXC.SLICE_T_LO else RXC.SLICE_T_LO
  if s.holdsT tx then s.logErr (chainPage tx) 0x40 a else s.wr64 a (v - v % 256)

/-- A start bit for slice i (R123): a stopped slice starts its check. -/
def State.sliceStartBit (s : State) (tx : Bool) (i : Nat) : State :=
  if (s.slice tx i).active then s else s.setSlice tx i { Slice.reset with phase := .check (s.bt + 2458) }

/-- A stop bit for slice i (R123, R125). -/
def State.sliceStopBit (s : State) (tx : Bool) (i : Nat) : State :=
  let c := s.slice tx i
  match c.phase with
  | .stopped => s
  | .check _ => s.setSlice tx i Slice.reset
  | .armed _ => s.sliceHalt tx i
  | .started _ => if s.running then s.setSlice tx i { c with stopNext := true } else s.sliceHalt tx i

/-- A write of `SLICE_CTRL` (R123, R125). -/
def State.sliceCtrlWrite (s : State) (tx : Bool) (v : Word) : State :=
  let t := (List.range 4).foldl (fun t i => if bit v i then t.sliceStartBit tx i else t) s
  (List.range 4).foldl (fun t i => if bit v (4 + i) then t.sliceStopBit tx i else t) t

/-- The start check of slice i completes (R123, R124): armed with its start instant, or refused. Of several failed checks the first of
the table is logged (log 123); the check of the ROM of presets is open (log 64). -/
def State.sliceCheckDone (s : State) (tx : Bool) (i : Nat) : State :=
  match (s.slice tx i).phase with
  | .check bt =>
    let n := s.cnv.romChecks
    let s := { s.atBt (bt : Nat) with cnv := { s.cnv with romChecks := n + 1 } }
    let page := chainPage tx
    let a := if tx then TXC.SLICE_CTRL else RXC.SLICE_CTRL
    let atTime := s.flag (if tx then TXC.SLICE_CFG_at_time i else RXC.SLICE_CFG_at_time i)
    (match s.bandFail tx i with
    | some (st, c) => ((s.setSlice tx i Slice.reset).logBand tx i st c).logErr page 0x41 a
    | none =>
      if Config.presetRomBad n then (s.setSlice tx i Slice.reset).logErr page 0x44 a
      else if atTime ∧ s.sliceT tx < s.ct then (s.setSlice tx i Slice.reset).logErr page 0x42 a
      else
        let at_ : Option Nat := if atTime then some (s.sliceT tx)
          else if s.running ∨ s.timer.accepted.isSome then none
          else some ((s.ct + 255) / 256 * 256)
        s.setSlice tx i { Slice.reset with phase := .armed at_ })
  | _ => s

/-- The start instant of an armed slice (R124): its own, or the next frame start, which a fetched first entry names. -/
def State.sliceInstant (s : State) (tx : Bool) (i : Nat) : Option Nat :=
  match (s.slice tx i).phase with
  | .armed (some t) => some t
  | .armed none => (match s.timer.fetched with
    | some e => if e.pos = 0 then some (64 * e.frameBt) else none
    | none => none)
  | _ => none

/-- An armed slice starts at its start instant (R124). -/
def State.sliceStarts (s : State) (tx : Bool) (i : Nat) : State :=
  match s.sliceInstant tx i with
  | some t => (s.atCt t).sliceBegin tx i t
  | none => s

/-- At an entry start (R124, R125): stops that waited take place; slices whose instant has come, or that waited for this frame
start, are started. -/
def State.slicesEntry (s : State) (e : Entry) : State :=
  [false, true].foldl (fun t tx => (List.range 4).foldl (fun t i =>
    let c := t.slice tx i
    match c.phase with
    | .started _ => if c.stopNext then (if tx then t else t.rxTail i).sliceHalt tx i else t
    | .armed (some n) => if n ≤ 64 * e.startBt then t.sliceBegin tx i n else t
    | .armed none => if e.pos = 0 then t.sliceBegin tx i (64 * e.frameBt) else t
    | _ => t) t) s

/-- The timer has stopped: stops that waited for an entry take place at once (R125). -/
def State.slicesStopped (s : State) : State :=
  [false, true].foldl (fun t tx => (List.range 4).foldl (fun t i =>
    if (t.slice tx i).stopNext then t.sliceHalt tx i else t) t) s

/-- Meaning of SLICE_START: a write of `SLICE_CTRL`. -/
def execSliceStart (id : ReqId) (tx : Bool) (data : Word) (s : State) : Host.Outcome State Fault Refusal :=
  .next (s.writeCmd id (if tx then TXC.SLICE_CTRL else RXC.SLICE_CTRL) data (·.sliceCtrlWrite tx data))

/-- Meaning of SLICE_CHECK_DONE. -/
def execSliceCheckDone (tx : Bool) (i : Fin 4) (s : State) : Host.Outcome State Fault Refusal := .next (s.sliceCheckDone tx i)

/-- Meaning of SLICE_START_INSTANT. -/
def execSliceStartInstant (tx : Bool) (i : Fin 4) (s : State) : Host.Outcome State Fault Refusal := .next (s.sliceStarts tx i)

/-- Meaning of SLICE_STOP: a write of `SLICE_CTRL`. -/
def execSliceStop (id : ReqId) (tx : Bool) (data : Word) (s : State) : Host.Outcome State Fault Refusal :=
  .next (s.writeCmd id (if tx then TXC.SLICE_CTRL else RXC.SLICE_CTRL) data (·.sliceCtrlWrite tx data))

end Sys2Proof.Machine
end

