-- ==== Sys2Proof/Machine/Rx.lean ====
section
/-!
DEFINITION. The receive chain (R14, R100, R105 to R109, R119 to R121, R131, R132, R137 to R144): ADC samples, level monitors,
gain steps, uplink symbols and their status, and the samples of beam ports.
-/
namespace Sys2Proof.Machine

/-! ## Gain steps (R140 to R142) -/

/-- A rising edge of the gain-step line at an instant (R141, R142). -/
def State.gstepEdge (s : State) (ct : Nat) : State :=
  match s.rx.gstep with
  | some _ => (s.count RXC.GSTEP_COUNT_ovr 1).raise RXC.base 5
  | none =>
    let arm := s.rd64 RXC.GSTEP_ARM_LO
    let ps := (List.range 64).filter fun p => arm.testBit p
    if ps.isEmpty then s
    else
      let l := ps.map fun p => (p, s.rd (RXC.GSTEP_STAGE p), s.get (RXC.GSTEP_SHIFT_shift p))
      let t := { s with rx := { s.rx with gstep := some (ct + 64 * s.get RXC.GSTEP_CTRL_delay, l) } }
      (t.wr64 RXC.GSTEP_ARM_LO 0).count RXC.GSTEP_COUNT_applied 1

/-- The apply instant (R141): the latched factors become active; an instant inside an uplink symbol marks it (R142). -/
def State.gstepApply (s : State) : State :=
  match s.rx.gstep with
  | none => s
  | some (ct, l) =>
    let s := s.atCt ct
    let paths := l.foldl (fun (m : List RxPath) x =>
      let h := m.getD x.1 RxPath.reset
      m.set x.1 { h with gold := wasPut h.gold ct (s.rd (RXC.GSTEP_ACT x.1), s.get (RXC.GSTEP_SHIFT_act_shift x.1)) }) s.rx.paths
    let s := l.foldl (fun t (x : Nat × Word × Nat) => (t.wr (RXC.GSTEP_ACT x.1) x.2.1).set (RXC.GSTEP_SHIFT_act_shift x.1) x.2.2) s
    let inside : Bool := match s.timer.cur with | some e => decide (ct < 64 * s.entryEnd e) | none => true
    { s with rx := { s.rx with
      gstep := none
      paths := paths
      syms := s.rx.syms.map fun (y : RxSym) =>
        if y.endBt.isNone ∧ inside ∧ 64 * y.startBt < ct ∧ (s.slice false y.slice).isStarted then
          { y with gstep := some (min ct (y.gstep.getD ct)) }
        else y } }

/-- The gain-step factor and shift of path p for the sample of an ADC instant (R141): before an apply instant those before it. -/
def State.gainAt (s : State) (p key : Nat) : Word × Nat :=
  wasAt (s.rx.paths.getD p RxPath.reset).gold (s.rd (RXC.GSTEP_ACT p), s.get (RXC.GSTEP_SHIFT_act_shift p)) key

/-- A write of `GSTEP_CTRL` (R49, R141): the enable needs the claim of the selected line. With the enable cleared a latched apply that still waits
is dropped (log 131). -/
def State.gstepCtrlWrite (s : State) (id : ReqId) (v : Word) : State :=
  if s.flag RXC.GSTEP_CTRL_en ∧ !s.holds id (s.get RXC.GSTEP_CTRL_line) then s.logErr RXC.base 0x03 RXC.GSTEP_CTRL
  else
    let t := (s.set RXC.GSTEP_CTRL_line (bits v 4 4)).set RXC.GSTEP_CTRL_delay (bits v 16 16)
    let t := t.enableIf (s.holds id (bits v 4 4)) RXC.GSTEP_CTRL_en (bits v 0 1)
    if t.flag RXC.GSTEP_CTRL_en then t else { t with rx := { t.rx with gstep := none } }

/-- The gain-step stage (R140). -/
def gainStep (m : Cx) (h : Nat) (x : Cx) : Cx × Bool :=
  let y := m.mul ⟨x.i * 2 ^ h, x.q * 2 ^ h⟩
  (y.round 14, y.clips 14)

/-! ## Symbols (R143, R144) -/

/-- The lowest cause code that applies. -/
def addCause (a b : Nat) : Nat := if a = 0 then b else if b = 0 then a else min a b

/-- The status bits of an uplink symbol (R143) as they stand for the samples up to an instant (R314); with none, for all. -/
def RxSym.statusTo (y : RxSym) (ct : Option Nat) : Nat :=
  let by_ (x : Option Nat) : Bool := match x, ct with | some a, some b => decide (a ≤ b) | some _, none => true | none, _ => false
  (if y.cause ≠ 0 ∧ by_ y.zeroFrom then 1 + 2 * y.cause else 0) + (if by_ y.ovr then 16 else 0) + (if by_ y.satd then 32 else 0) +
    (if by_ y.gstep then 64 else 0) + (if y.excl then 128 else 0) + (if y.fbRow then 256 else 0)

/-- The complete status of a symbol. -/
def RxSym.status (y : RxSym) : Nat := y.statusTo none

/-- Changes the running uplink symbols that satisfy a condition. -/
def State.rxSymMap (s : State) (c : RxSym → Bool) (f : RxSym → RxSym) : State :=
  { s with rx := { s.rx with syms := s.rx.syms.map fun (y : RxSym) => if y.endBt.isNone && c y then f y else y } }

/-- The symbol's entry holds an instant in CT. -/
def RxSym.holds (y : RxSym) (ct : Nat) : Bool :=
  decide (64 * y.startBt ≤ ct) && (match y.endBt with | some b => decide (ct < 64 * b) | none => true)

/-- Changes uplink symbols that satisfy a condition, those over included: their samples and packets are still on their way. A symbol
that is over and was the last of its group shows its status anew, and counts when it becomes invalid (R143, R144). -/
def State.rxMark (s : State) (c : RxSym → Bool) (f : RxSym → RxSym) : State :=
  let old := s.rx.syms
  let t := { s with rx := { s.rx with syms := old.map fun (y : RxSym) => if c y then f y else y } }
  (old.filter fun y => c y && y.endBt.isSome && decide (f y ≠ y)).foldl (fun t (y : RxSym) =>
    let z := f y
    let last := !(old.any fun x => x.g = y.g && x.endBt.isSome && decide (y.startBt < x.startBt))
    let t := if last then t.set (RXC.SYM_STAT_status y.g) z.status else t
    if y.cause = 0 ∧ z.cause ≠ 0 then (t.count (RXC.SYM_INV_COUNT_count y.g) 1).raise RXC.base 3 else t) t

/-- A cause of R144 with zeros from an instant. -/
def RxSym.fail (y : RxSym) (cause ct : Nat) : RxSym :=
  { y with cause := addCause y.cause cause, zeroFrom := some (min ct (y.zeroFrom.getD ct)) }

/-- The running uplink symbols end at a BT (R143, R144): their status and counts. -/
def State.rxSymEnd (s : State) (bt : Nat) : State :=
  let t := (s.rx.syms.filter (·.endBt.isNone)).foldl (fun t (y : RxSym) =>
    let t := t.set (RXC.SYM_STAT_status y.g) y.status
    if y.cause = 0 then t else (t.count (RXC.SYM_INV_COUNT_count y.g) 1).raise RXC.base 3) s
  { t with rx := { t.rx with syms := t.rx.syms.map fun (y : RxSym) => if y.endBt.isNone then { y with endBt := some bt } else y } }

/-- The uplink symbols that an entry starts (R121, R127, R143, R144). -/
def State.rxSymStart (s : State) (e : Entry) : List RxSym :=
  if !s.isRx e then []
  else (List.range 4).filterMap fun g =>
    let i := s.sliceOf g
    let ant := s.antenna false
    if !e.slice.getLsbD i ∨ (ant ∧ g ≠ 0) then none
    else
      let started := (s.slice false i).isStarted
      let cause := if !started then 2 else if s.clockDown then 4 else 0
      let sel : Sel := (s.bf.cur.getD (2 * g) none).getD ⟨none, none, false, false, []⟩
      let excl := (List.range 8).any fun st => e.gate.getLsbD st || s.get (STD.CNV_CTRL_adc st) != 255
      some { g := g, startBt := e.startBt, endBt := none, slice := i, rate := s.sliceRate false i, ports := s.ports false g,
             shift := s.effGet (BFG.SHIFT_rx i), sel := sel, ant := ant, cause := cause,
             zeroFrom := if cause = 0 then none else some (64 * e.startBt),
             ovr := none, satd := none, gstep := none, excl := excl, fbRow := sel.sub || sel.fbOpen }

/-! ## Level monitors (R137 to R139) -/

/-- A monitor takes a sample. -/
def Lvl.add (l : Lvl) (x : Cx) : Lvl :=
  let m := x.mag2.toNat
  ⟨l.sum + m, l.n + 1, max l.peak m⟩

/-- The mean as unsigned Q1.31 (R137). -/
def Lvl.mean (l : Lvl) : Nat := if l.n = 0 then 0 else min 0xFFFFFFFF (2 * l.sum / l.n)
/-- The peak as unsigned Q1.15, truncated (R137). -/
def Lvl.peakWord (l : Lvl) : Nat := min 0xFFFF (l.peak / 2 ^ 15)

/-- A monitor of some path has taken samples of the entry that starts at a BT. -/
def State.measured (s : State) (b : Nat) : Bool := s.rx.paths.any fun p => (p.wb.find? b).isSome || (p.sl.find? b).isSome

/-- The monitors of all paths update with the first entry over that they have measured (R138, R139); with hold the readings are
discarded. -/
def State.lvlUpdate (s : State) : State :=
  match s.rx.lvlWait.find? s.measured with
  | none => s
  | some b =>
    let z : Lvl := ⟨0, 0, 0⟩
    let wb := s.rx.paths.map fun p => p.wb.get b z
    let sl := s.rx.paths.map fun p => p.sl.get b z
    let s := { s with rx := { s.rx with
      lvlWait := s.rx.lvlWait.filter fun x => decide (b < x)
      paths := s.rx.paths.map fun (p : RxPath) =>
        { p with wb := p.wb.filter fun e => decide (b < e.1), sl := p.sl.filter fun e => decide (b < e.1) } } }
    if s.flag RXC.LVL_CTRL_hold then s
    else
      let anyWb := wb.any fun l => l.n != 0
      let anySl := sl.any fun l => l.n != 0
      let s := (List.range 64).foldl (fun t p =>
        let w := wb.getD p z
        let l := sl.getD p z
        let t := if w.n = 0 then t else (t.set (RXC.LVL_WB_MEAN_mean p) w.mean).set (RXC.LVL_WB_PEAK_peak p) w.peakWord
        if l.n = 0 then t else (t.set (RXC.LVL_SL_MEAN_mean p) l.mean).set (RXC.LVL_SL_PEAK_peak p) l.peakWord) s
      let s := if anyWb then s.set RXC.LVL_STAT_wb_new 1 else s
      let s := if anySl then s.set RXC.LVL_STAT_sl_new 1 else s
      let s := s.raise RXC.base 6
      let above := (List.range 64).filter fun p => (wb.getD p z).n != 0 && (wb.getD p z).peakWord > s.get RXC.LVL_HI_limit
      let s := if anyWb then s.wr64 RXC.LVL_HI_MAP_LO (above.foldl (fun m p => m + 2 ^ p) 0) else s
      if above.isEmpty then s else s.raise RXC.base 4

/-! ## Samples -/

/-- Path p of the receive chain. -/
def State.rxPath (s : State) (p : Nat) : RxPath := s.rx.paths.getD p RxPath.reset
/-- Stores path p. -/
def State.setRxPath (s : State) (p : Nat) (x : RxPath) : State := { s with rx := { s.rx with paths := s.rx.paths.set p x } }

/-- The top 20 bits of the phase of the band-centre mixer (R98). -/
def mixPhase (w ct : Nat) : Nat := w * ct % 2 ^ 48 / 2 ^ 28

/-- The phase of slice i's NCO on a stand at an instant (R98), top 20 bits. -/
def State.ncoPhase (s : State) (tx : Bool) (st i ct : Nat) : Nat :=
  (ct - (s.slice tx i).startCt) / 4 * s.ncoStep tx st i % 2 ^ 48 / 2 ^ 28

/-- Key of a gain-stage output: instant, slice, path. -/
def bufKey (ct i p : Nat) : Nat := (ct * 4 + i) * 64 + p

/-- L_bf in ns (R134). -/
def rxNs (preset rate : Nat) : Nat :=
  (if preset = 0 then [2374, 1244, 676, 392, 250] else if preset = 1 then [1484, 799, 452, 280, 192]
    else [824, 466, 286, 196, 148]).getD rate 0

/-- The entry that holds an instant in CT. -/
def State.winAt (s : State) (ct : Nat) : Option RxWin :=
  s.rx.wins.find? fun w => decide (64 * w.startBt ≤ ct) && (match w.endBt with | some b => decide (ct < 64 * b) | none => true)

/-- The ADC instant that a sample of a preset and rate formed now stands for (R107, R109): the newest ADC instant less the lag of the filters, the
seven samples of the equaliser's delay among them, which is no more than the latency of R134 less the beamformer's 64 ns. -/
def State.keyCt (s : State) (preset n : Nat) : Nat :=
  let ts := 256 / 2 ^ n
  let lag := min (Config.receiveLag preset n (s.flag CLK.PLL_CTRL_half) + 7) ((rxNs preset n - 64) * 786432 / 100000 / ts)
  (s.ct / ts - lag) * ts

/-- The first decimator's output from the codes so far (R14, R91, R98, R99, R100): each code times the conjugate oscillator at its
instant's phase, filtered, rounded and saturated to Q1.15. The centre word is an absolute radio frequency, so the sampled product turns
the second zone the right way round without a case of its own. -/
def decimate (half : Bool) (l : List (Int × Nat)) : Cx :=
  (fir (Config.firstDecimator half) (l.map fun x => (Config.carrier x.2).conj.scale x.1) (2 ^ 30)).sat

/-- The sum of group g at an ADC instant as a whole counts its saturated ports (R164; log 73). -/
def State.countSums (s : State) (i key : Nat) : State :=
  (s.rx.syms.filter fun y => y.slice = i && y.holds key && !y.ant && y.cause != 2).foldl (fun t (y : RxSym) =>
    let x (p : Nat) : Cx := Cx.ofWord (s.rx.buf.get (bufKey key i p) 0)
    let k := ((List.range y.ports).filter fun v => (beamRx (y.sel.rows.getD v []) x y.shift).2).length
    if k = 0 ∨ !s.flag (HDR.BLK_CTRL_enable BF.base) then t
    else (t.count (BFG.SAT_COUNT_RX_count y.g) k).raise (BFG.base y.g) 1) s

/-- The sums of slice i are complete for every instant before the one that is formed now; the last is counted. -/
def State.sumsUpTo (s : State) (i key : Nat) : State :=
  let last := s.rx.sumAt.getD i 0
  if key = last then s
  else
    let t := s.countSums i last
    { t with rx := { t.rx with sumAt := t.rx.sumAt.set i key } }

/-- One first-decimator output of path p goes through slice i (R120, R131): mixing, and at the slice's instants the preset filter,
the equaliser, the fractional delay and the gain step. Settings are those of the sample's ADC instant (R29). A path whose ADC was disabled or
whose stand the entry gates gives zero (R161). -/
def State.sliceSample (s : State) (p i : Nat) (run : RxRun) (x : Cx) : State :=
  let st := p / 8
  let u := p % 8
  let h := s.rxPath p
  let n := run.rate
  let phase := (s.ct - run.startCt) / 4 * run.step.getD st 0 % 2 ^ 48 / 2 ^ 28
  let m := ((x.mul (Config.carrier phase).conj).rheDiv (2 ^ 30)).sat
  let flt := (m :: h.flt.getD i []).take 8192
  if s.ct / 4 % (64 / 2 ^ n) ≠ 0 then s.setRxPath p { h with flt := h.flt.set i flt }
  else
    let key := s.keyCt run.preset n
    let f0 := fir (Config.presetFilter run.preset n false) flt 1
    let f := f0.sat
    let eqh := (f :: h.eqh.getD i []).take 16
    let acc := (List.range 16).foldl (fun a k => a.add ((Cx.ofWord (s.eqTapAt st u i k key)).mul (eqh.getD k Cx.zero))) Cx.zero
    let e := acc.round 14
    let fdh := (e :: h.fdh.getD i []).take 64
    let tau := wasAt h.dlyWas (s.effGet (STD.PATH_DLY_tau st u)) key
    let d := (fir (Config.fractionalDelay n (signed tau 14)) fdh 1).sat
    let gain := s.gainAt p key
    let y := gainStep (Cx.ofWord gain.1) gain.2 d
    let sats := (if f = f0 then 0 else 1) + (if acc.clips 14 then 1 else 0) + (if y.2 then 1 else 0)
    let w := (s.winAt key).filter fun w => w.slices.getLsbD i
    let sl := match w with
      | some w => if s.get RXC.LVL_CTRL_slice = i then (h.sl.del w.startBt).ins w.startBt ((h.sl.get w.startBt ⟨0, 0, 0⟩).add y.1) else h.sl
      | none => h.sl
    let t := (s.sumsUpTo i key).setRxPath p { h with flt := h.flt.set i flt, eqh := h.eqh.set i eqh, fdh := h.fdh.set i fdh, sl := sl }
    let t := if acc.clips 14 then t.count (STD.EQ_SAT_COUNT_count st) 1 else t
    let t := if sats = 0 then t
      else (t.count (RXC.SAT_COUNT_count i) sats).rxMark (fun z => z.slice = i && z.holds key) fun (z : RxSym) =>
        { z with satd := some (min key (z.satd.getD key)) }
    match w with
    | some w =>
      let on := wasAt h.adcWas ((t.get (STD.CNV_CTRL_adc st)).testBit u) key && !w.gate.getLsbD st
      { t with rx := { t.rx with buf := t.rx.buf.put (bufKey key i p) (if on then y.1.toWord else 0) 0 } }
    | none => t

/-- The run of slice i whose samples still come: of a started slice, or of one stopped not longer ago than the latency. -/
def State.rxRun (s : State) (i : Nat) : Option RxRun :=
  if (s.slice false i).isStarted then some (s.rxLive i)
  else match s.rx.tails.getD i none with
  | some (stop, r) => if s.ct < stop + 32768 then some r else none
  | none => none

/-- The ADC of path p contributes to the running uplink symbols: the running entry does not gate its stand (R143). -/
def State.contributes (s : State) (p : Nat) : Bool :=
  match s.timer.cur with
  | some e => s.isRx e && !e.gate.getLsbD (p / 8)
  | none => false

/-- The phase of the first decimators (R217): d mod 4 in a downlink entry with obs, else 0; d taken down to an even number in half-rate
mode, where samples stand on even ticks only (log 95). -/
def State.decPhase (s : State) : Nat :=
  let d := s.get LND.CAP_DLY_obs
  if s.obsEntry then (if s.flag CLK.PLL_CTRL_half then d / 2 * 2 else d) % 4 else 0

/-- An overrange code has been taken in the last 4 CT, the codes of one first-decimator output (log 96). -/
def State.recent (s : State) (hot : Option Nat) : Bool := match hot with | some t => decide (s.ct < t + 4) | none => false

/-- The ADC of path p takes a sample (R14, R100, R101, R132): a stopped or gated ADC gives zero. -/
def State.adcSample (s : State) (p : Nat) (code : BitVec 12) : State :=
  let st := p / 8
  let u := p % 8
  let s := s.capTick
  if s.adcSilent ∨ !s.cnvTick then s
  else
    let runs := s.adcRuns p
    let c : Int := if runs then code.toInt else 0
    let s := if runs && (code = 0x7FF#12 || code = 0x800#12) then
        let t := s.count (STD.OVR_COUNT_count st u) 1
        let h := t.rxPath p
        let t := (t.setRxPath p { h with ovr := h.ovr + 1, hot := some t.ct }).rxSymMap (fun z => t.contributes p && z.holds t.ct) fun (z : RxSym) =>
          { z with ovr := some (z.ovr.getD t.ct) }
        if h.ovr + 1 = t.get (STD.OVR_CFG_limit st) then t.raise (STD.base st) 1 else t
      else s
    let h : RxPath := s.rxPath p
    let w : Nat := s.freq (STD.RX_CENTRE_LO st)
    let dec : List (Int × Nat) := ((16 * c, mixPhase w s.ct) :: h.dec).take 256
    let s : State := s.setRxPath p { h with dec := dec }
    let x := decimate (s.flag CLK.PLL_CTRL_half) dec
    let s := s.capAdc p x (s.recent h.hot)
    if s.ct % 4 ≠ s.decPhase then s
    else
      let s : State := match s.timer.cur with
        | some e => if runs ∧ !s.gatedNow st 0 then
            (let g := s.rxPath p
             s.setRxPath p { g with wb := (g.wb.del e.startBt).ins e.startBt ((g.wb.get e.startBt ⟨0, 0, 0⟩).add x) })
          else s
        | none => s
      (List.range 4).foldl (fun t i => match t.rxRun i with | some r => t.sliceSample p i r x | none => t) s

/-- Observation converter st takes a sample (R105). -/
def State.obsSample (s : State) (st : Nat) (code : BitVec 12) : State :=
  let s := s.capTick
  if s.adcSilent ∨ !s.cnvTick then s
  else
    let on := s.obsRuns st
    let c : Int := if on then code.toInt else 0
    let s := if on && (code = 0x7FF#12 || code = 0x800#12) then
        let t := s.count (STD.OVR_COUNT_OBS_count st) 1
        let n := t.rx.obsOvr.getD st 0 + 1
        let t := { t with rx := { t.rx with obsOvr := t.rx.obsOvr.set st n, obsHot := t.rx.obsHot.set st (some t.ct) } }
        if n = t.get (STD.OVR_CFG_limit st) then t.raise (STD.base st) 1 else t
      else s
    let w := s.freq (if s.flag (STD.OBS_CTRL_follow st) then STD.TX_CENTRE_LO st else STD.OBS_CENTRE_LO st)
    let dec := ((16 * c, mixPhase w s.ct) :: s.rx.obsDec.getD st []).take 256
    let s : State := { s with rx := { s.rx with obsDec := s.rx.obsDec.set st dec } }
    s.capObs st (decimate (s.flag CLK.PLL_CTRL_half) dec) (s.recent (s.rx.obsHot.getD st none))

/-- The entries that the receive chain still needs at a BT: the running one, and those whose packets have not all been due (log 63). -/
def keepFrom (bt : Nat) (e : Option Nat) : Bool := match e with | some b => decide (bt < b + 8192) | none => true

/-- The running entry is over for the receive chain at a BT: its symbols end, and its monitor readings wait for their update. -/
def State.winEnd (s : State) (bt : Nat) : State :=
  let t := s.rxSymEnd bt
  { t with rx := { t.rx with
    lvlWait := (t.rx.lvlWait.filter fun b => t.measured b || decide (bt < b + 8192)) ++
      (t.rx.wins.filter (·.endBt.isNone)).map (·.startBt)
    wins := (t.rx.wins.filter fun w => keepFrom bt w.endBt).map fun (w : RxWin) =>
      if w.endBt.isNone then { w with endBt := some bt } else w
    paths := t.rx.paths.map fun (p : RxPath) => { p with ovr := 0 } } }

/-- At an entry start (R127, R137, R143): the running symbols end, the monitors hand over, new symbols begin, and samples whose
packets have all been due are dropped. -/
def State.rxEntry (s : State) (e : Entry) : State :=
  let t := s.winEnd e.startBt
  let new := t.rxSymStart e
  let deliver := (List.range 4).foldl (fun (m : BitVec 4) i => setBit m i (t.isRx e && e.slice.getLsbD i && (t.slice false i).isStarted)) 0
  let win : RxWin := ⟨e.startBt, none, deliver, e.gate⟩
  { t with rx := { t.rx with
    obsOvr := List.replicate 8 0
    tails := t.rx.tails.map fun x => x.filter fun y => decide (64 * e.startBt < y.1 + 32768)
    wins := t.rx.wins ++ [win]
    syms := t.rx.syms.filter (fun y => keepFrom e.startBt y.endBt) ++ new
    buf := t.rx.buf.filter fun x => decide (bufKey (64 * (e.startBt - 8192)) 0 0 ≤ x.1) } }

/-- The timer has stopped: the running symbols end. -/
def State.rxStopped (s : State) : State := s.winEnd s.bt

/-- A beam-port sample of a symbol at an instant (R144, R161, R170): the exact sum, zero from the first affected instant. -/
def State.beamSample (s : State) (y : RxSym) (v ct : Nat) : Cx :=
  let zero := y.cause = 2 || (match y.zeroFrom with | some z => decide (z ≤ ct) | none => false) ||
    !s.flag (HDR.BLK_CTRL_enable BF.base)
  let x (p : Nat) : Cx := Cx.ofWord (s.rx.buf.get (bufKey ct y.slice p) 0)
  if zero then Cx.zero
  else if y.ant then x v
  else (beamRx (y.sel.rows.getD v []) x y.shift).1

/-! ## Commands -/

/-- Meaning of ADC_SAMPLE. -/
def execAdcSample (conv : Converter) (code : BitVec 12) (s : State) : Host.Outcome State Fault Refusal :=
  .next (match conv with
    | .path p => s.adcSample p code
    | .obs st => s.obsSample st code)

/-- Meaning of LEVEL_MONITOR_UPDATE. -/
def execLevelMonitorUpdate (s : State) : Host.Outcome State Fault Refusal := .next s.lvlUpdate

/-- Meaning of GSTEP_APPLY. -/
def execGstepApply (s : State) : Host.Outcome State Fault Refusal := .next s.gstepApply

end Sys2Proof.Machine
end

