-- ==== Sys2Proof/Machine/Tx.lean ====
section
/-!
DEFINITION. The transmit chain (R15, R174 to R195) and the rate gates (R17 to R27): downlink symbols and late flows, combining,
edge windows, crest-factor reduction, the envelope limiter, the DAC gates, deficits.
-/
namespace Sys2Proof.Machine

/-- Path p of the transmit chain. -/
def State.txPath (s : State) (p : Nat) : TxPath := s.tx.paths.getD p TxPath.reset
/-- Stores path p. -/
def State.setTxPath (s : State) (p : Nat) (x : TxPath) : State := { s with tx := { s.tx with paths := s.tx.paths.set p x } }
/-- Changes every path. -/
def State.mapTxPaths (s : State) (f : TxPath → TxPath) : State := { s with tx := { s.tx with paths := s.tx.paths.map f } }

/-! ## Downlink symbols (R192 to R194) -/

/-- Group g has a downlink symbol in an entry (R147, R170, R175). -/
def State.txCarries (s : State) (e : Entry) (g : Nat) : Bool :=
  s.isTx e && e.slice.getLsbD (s.sliceOf g) && !(s.antenna true && g != 0)

/-- A flow feeds group g (R192, R304). -/
def State.feeds (s : State) (f : FlowCfg) (g : Nat) : Bool :=
  f.ty = 0 && !f.egress && f.used &&
    ((f.g = g && !(s.joined g && 64 ≤ f.v0)) || (2 ≤ g && f.g + 2 = g && s.joined f.g && 64 < f.v0 + f.np))

/-- Packet k of flow i's symbol is staged. -/
def State.stagedPkt (s : State) (i sym : Nat) : Option Staged :=
  s.staged.find? fun x => x.idx = i && !x.off && x.symtime = sym % 2 ^ 32

/-- Flow i holds every packet of the symbol (R192). -/
def State.flowComplete (s : State) (i : Nat) (f : FlowCfg) (start samples n : Nat) : Bool :=
  (List.range (pktCount samples f.blocks)).all fun k => (s.stagedPkt i (pktTime start k f.blocks n)).isSome

/-- Some packet of the symbol carries the symbol-invalid flag (R192, R314). -/
def State.flowFlag (s : State) (i : Nat) (f : FlowCfg) (start samples n : Nat) : Bool :=
  (List.range (pktCount samples f.blocks)).any fun k =>
    match s.stagedPkt i (pktTime start k f.blocks n) with | some x => x.flags % 2 = 1 | none => false

/-- The release start of group g's symbol in an entry: the flows are checked, and late ones contribute zero (R192, R319); a staged
word that fails its check at sample n of flow i makes the flow zero from there (R193, R421). -/
def State.txSymRelease (s : State) (e : Entry) (g : Nat) (upset : Option (Nat × Nat)) : State :=
  let s := s.flowsLook
  let i := s.sliceOf g
  let n := s.sliceRate true i
  let samples := symSamples (s.entryEnd e - e.startBt) n
  let fs := s.enabledFlows.filter fun k => s.feeds (s.flow k) g
  let ok := fs.filter fun k => s.flowComplete k (s.flow k) e.startBt samples n
  let late := fs.filter fun k => !ok.contains k
  let s := (late.filter fun k => (s.flow k).g = g || 64 ≤ (s.flow k).v0).foldl (fun t k => t.flowCount k 7 16) s
  let flag := fs.any fun k => s.flowFlag k (s.flow k) e.startBt samples n
  let bad : List (Nat × Nat) := match upset with
    | some (k, m) => if ok.contains k && decide (m < samples) then [(k, m)] else []
    | none => []
  let s := if bad.isEmpty then s else (s.count MEM.DET_STAGE_COUNT_count 1).raise MEM.base 6
  let y : TxSym := { g := g, startBt := e.startBt, slice := i, rate := n, sel := ⟨none, none, false, false, []⟩, ant := s.antenna true,
                     cause := addCause (if late.isEmpty then 0 else 5) (if bad.isEmpty then 0 else 3), flows := ok, bad := bad,
                     unstarted := false, checked := false, muted := false, satd := false, limited := false, excl := false, fbRow := false, flag := flag }
  { s with tx := { s.tx with syms := s.tx.syms ++ [y] } }

/-- The symbol of group g in an entry exists already. -/
def State.hasTxSym (s : State) (e : Entry) (g : Nat) : Bool := s.tx.syms.any fun y => y.g = g && y.startBt = e.startBt

/-- TX_RELEASE_START of group g: for the fetched entry, at its start less L_g (R178, R192). -/
def State.txReleaseStart (s : State) (g : Nat) (upset : Option (Nat × Nat)) : State :=
  match s.timer.fetched with
  | none => s
  | some e =>
    if s.txCarries e g && !s.hasTxSym e g then (s.atCt (64 * e.startBt - s.txLatency g)).txSymRelease e g upset else s

/-- The status bits of R194. -/
def TxSym.status (y : TxSym) : Nat :=
  (if y.cause = 0 then 0 else 1) + 2 * y.cause + (if y.muted then 16 else 0) + (if y.satd then 32 else 0) + (if y.limited then 64 else 0) +
    (if y.excl then 128 else 0) + (if y.fbRow then 256 else 0) + (if y.flag then 512 else 0)

/-- Changes the running symbols. -/
def State.txSymMap (s : State) (c : TxSym → Bool) (f : TxSym → TxSym) : State :=
  { s with tx := { s.tx with syms := s.tx.syms.map fun (y : TxSym) => if y.checked && c y then f y else y } }

/-- Changes symbols, those of the fetched entry included. -/
def State.txSymMark (s : State) (c : TxSym → Bool) (f : TxSym → TxSym) : State :=
  { s with tx := { s.tx with syms := s.tx.syms.map fun (y : TxSym) => if c y then f y else y } }

/-- The running symbols end (R194): status, counts, `DEF_MAP`; a deficient gate discards what is left of the symbol, and what of it
still arrives (R24). -/
def State.txSymEnd (s : State) (bt : Nat) : State :=
  let s := s.capPre
  let ys := s.tx.syms.filter (·.checked)
  let t := ys.foldl (fun t (y : TxSym) =>
    let t := t.set (TXC.SYM_STAT_status y.g) y.status
    if y.cause = 0 then t else (t.count (TXC.SYM_DEG_COUNT_count y.g) 1).raise TXC.base 3) s
  let t := if t.inRun || !ys.isEmpty then
      t.wr64 TXC.DEF_MAP_LO ((List.range 64).foldl (fun m p => if (t.txPath p).deficit then m + 2 ^ p else m) 0)
    else t
  let t := t.mapTxPaths fun (x : TxPath) =>
    if x.deficit ∨ x.lost then
      { x with deficit := false, lost := false, dropTo := 64 * bt, gate := x.gate.filter fun z => decide (64 * bt ≤ z.ct) }
    else x
  { t with
    tx := { t.tx with syms := t.tx.syms.filter fun y => !y.checked }
    cnv := { t.cnv with calLate := false, calLost := false } }

/-- A run starts (R179): edge window, reduction and delay lines anew; fades go on (R207). -/
def State.runStart (s : State) (ct : Nat) : State :=
  let t := s.mapTxPaths fun (x : TxPath) =>
    { x with runCt := ct, inN := 0, outN := 0, endN := none, active := true, cfr := [], raw := [], gate := [], hist := [], histCt := ct, dropTo := 0, undo := none }
  { t with tx := { t.tx with runRamp := rampLen (t.get TXC.EDGE_ramp) } }.fadesResume ct

/-- A run ends at an instant: its later samples pass no gate (R179), and fades pause (R207). -/
def State.runEnd (s : State) (ct : Nat) : State :=
  (s.mapTxPaths fun (x : TxPath) =>
    if x.active ∧ x.endN.isNone then
      { x with endN := some ((ct - x.runCt) / 4), gate := x.gate.filter fun z => decide (z.ct < ct) }
    else x).fadesPause

/-- At an entry start, after mutes and selections have settled (R192 to R194): symbols not checked at a release start are checked
now; every symbol of the entry takes its selection and the causes that hold at its start. -/
def State.txSymsStart (s : State) (e : Entry) : State :=
  let t := (List.range 4).foldl (fun t g => if t.txCarries e g && !t.hasTxSym e g then t.txSymRelease e g none else t) s
  let en := t.enabledFlows
  let stays (k : Nat) : Bool := en.contains k && !t.staged.any fun x => x.idx = k && x.off
  let syms := (t.tx.syms.filter fun y => y.startBt = e.startBt).map fun (y : TxSym) =>
    let sel := (t.bf.cur.getD (2 * y.g + 1) none).getD ⟨none, none, false, false, []⟩
    let c := addCause y.cause (addCause (if (t.slice true y.slice).isStarted then 0 else 2) (if t.clockDown then 4 else 0))
    let excl := (List.range 8).any fun st => e.gate.getLsbD st || t.get (STD.CNV_CTRL_dac st) != 255
    { y with checked := true, unstarted := !(t.slice true y.slice).isStarted, sel := sel, cause := c, flows := y.flows.filter stays, muted := t.tx.muted != 0, excl := excl,
             fbRow := sel.sub || sel.fbOpen }
  { t with
    tx := { t.tx with syms := syms }
    staged := t.staged.filter fun x => en.contains x.idx && !x.off &&
      (x.combine || (x.symtime + 2 ^ 32 - e.startBt % 2 ^ 32) % 2 ^ 32 < 2 ^ 31) }

/-! ## Combining (R162, R176, R180) -/

/-- Sample n of port v of group g in a symbol: zero where no contributing flow gives it (R162, R193). -/
def State.portSmp (s : State) (y : TxSym) (g v n : Nat) : Cx :=
  match s.staged.find? fun x => !x.combine && y.flows.contains x.idx &&
      ((List.range x.smp.length).any fun j => beamPort x.g (x.v0 + j) = (g, v) || (x.g = g && x.v0 + j = v)) &&
      x.symtime = pktTime y.startBt (n / (12 * x.blocks)) x.blocks y.rate % 2 ^ 32 with
  | none => Cx.zero
  | some x =>
    if y.bad.any fun b => b.1 = x.idx && decide (b.2 ≤ n) then Cx.zero
    else
      let j := if x.g = g then v - x.v0 else v + 64 - x.v0
      (x.smp.getD j []).getD (n % (12 * x.blocks)) Cx.zero

/-- The weight selection of a symbol: from its entry's start its own, before it the one that is loaded for the entry. -/
def State.txSel (s : State) (y : TxSym) : Sel :=
  if y.checked then y.sel else (s.bf.cur.getD (2 * y.g + 1) none).getD ⟨none, none, false, false, []⟩

/-- The beamformer's transmit output for slice i and path p at an instant of an entry, and whether it saturated (R162, R170); zero with
the beamformer disabled, for a slice that was not started at the entry start, and where the entry does not carry the slice (R175). -/
def State.txBeam (s : State) (e : Entry) (i p ct : Nat) : Cx × Bool :=
  let n := (ct - 64 * e.startBt) / (256 / 2 ^ s.sliceRate true i)
  let dead (y : TxSym) : Bool := if y.checked then y.unstarted else !(s.slice true i).isStarted
  let ys := s.tx.syms.filter fun y => y.startBt = e.startBt && y.slice = i && !dead y
  if !s.flag (HDR.BLK_CTRL_enable BF.base) || !e.slice.getLsbD i then (Cx.zero, false)
  else match ys.find? (·.ant) with
  | some y => (if i = 0 then s.portSmp y 0 p n else Cx.zero, false)
  | none =>
    let a := ys.foldl (fun a y => a.add (beamTxSum (s.txSel y).rows p fun v => s.portSmp y y.g v n)) Cx.zero
    let k := 15 + s.effGet (BFG.SHIFT_tx i)
    (a.round k, a.clips k)

/-- What is known of the entry that holds an instant now or to come: nothing yet, or that none transmits, or the transmitting entry. -/
inductive TxAt where
  | unknown
  | none
  | entry (e : Entry)

/-- The entry that holds an instant at or after the running entry's start (R65): the running or the fetched one. -/
def State.txEntryAt (s : State) (ct : Nat) : TxAt :=
  let of (e : Entry) : TxAt := if s.isTx e then .entry e else .none
  match s.timer.cur, s.timer.fetched with
  | none, _ => .none
  | some e, some f =>
    if ct < 64 * s.entryEnd e then of e
    else if !s.isTx f then .none
    else if ct < 64 * s.entryEnd f then .entry f else .unknown
  | some e, none =>
    if ct < 64 * s.entryEnd e then of e
    else if s.timer.stopsIn e ∧ e.pos + 1 = e.list.count then .none else .unknown

/-- Every symbol of an entry has passed its release start (R178, R192). -/
def State.txReleased (s : State) (e : Entry) : Bool := (List.range 4).all fun g => !s.txCarries e g || s.hasTxSym e g

/-- The state as the fetched entry will find it at its start, from what stands now: settings in force (R520), slices (R124, R125), the
kernel, the weight selections. Samples of that entry pass the transmit chain before its start (R63; log 99). -/
def State.ahead (s : State) (e : Entry) : State :=
  let next (c : Slice) : Slice := match c.phase with
    | .started _ => if c.stopNext then Slice.reset else c
    | .armed (some n) => if n ≤ 64 * e.startBt then { c with phase := .started n } else c
    | .armed none => if e.pos = 0 then { c with phase := .started (64 * e.frameBt) } else c
    | _ => c
  let t := { s with
    eff := deferredRegs.foldl (fun m a => m.put a (s.rd a) (coldWord s.otp a)) s.eff
    bf := { s.bf with cur := s.bf.next }
    txSlices := s.txSlices.map next }
  if t.txSlices = s.txSlices then t else t.formKernel (64 * e.startBt)

/-- A computation for an entry to come runs on the state ahead; what it counts stays, what it read is as before. -/
def State.inAhead (s : State) (e : Entry) (f : State → State) : State :=
  let t := f (s.ahead e)
  { t with
    eff := s.eff
    bf := s.bf
    txSlices := s.txSlices
    tx := { t.tx with kernel := s.tx.kernel, kernelCt := s.tx.kernelCt, kernelOld := s.tx.kernelOld } }

/-- Input samples by which the newest input of slice i's filter leads its output: the filter's delay lies within L_g (R177, R178). -/
def State.txLead (s : State) (i : Nat) : Nat :=
  let preset := s.slicePreset true i
  let n := s.sliceRate true i
  min (Config.transmitLead preset n) (nsCt (txNs preset n - 198) / (256 / 2 ^ n))

/-- The filter input of slice i and path p at an instant is taken in. -/
def State.txInput (s : State) (e : Entry) (p i ct : Nat) : State :=
  let b := s.txBeam e i p ct
  let x := s.txPath p
  let h : Store Cx := (x.flt.getD i []).filter fun z => decide (ct < z.1 + 32768)
  let t := s.setTxPath p { x with flt := x.flt.set i (h.put ct b.1 Cx.zero) }
  if b.2 then
    ((t.count (BFG.SAT_COUNT_TX_count i) 1).raise (BFG.base i) 1).txSymMark (fun y => y.startBt = e.startBt && y.slice = i) fun (y : TxSym) =>
      { y with satd := true }
  else t

/-- The instants of inputs of slice i that are new for the output sample at an instant: all of the lead at the run's first sample. -/
def State.txNew (s : State) (p i ct : Nat) : List Nat :=
  let ts := 256 / 2 ^ s.sliceRate true i
  let x := s.txPath p
  let lead := s.txLead i
  let base := ct / ts
  if ct = max x.runCt ((s.slice true i).startCt) then (List.range (lead + 1)).map fun k => (base + k) * ts
  else if ct % ts = 0 then [(base + lead) * ts] else []

/-- Slice i of path p at a sample instant (R120, R175, R176): the filtered and mixed output, each rounded to Q1.15. -/
def State.sliceOut (s : State) (p i ct : Nat) : Cx :=
  let x := s.txPath p
  let preset := s.slicePreset true i
  let n := s.sliceRate true i
  let ts := 256 / 2 ^ n
  let top := ct / ts + s.txLead i
  let from_ := (s.slice true i).startCt
  let taps := Config.presetFilter preset n true
  let h := (List.range (taps.length / (ts / 4) + 1)).map fun k =>
    if top < k ∨ (top - k) * ts < from_ then Cx.zero else (x.flt.getD i []).get ((top - k) * ts) Cx.zero
  let f := (interp taps (ts / 4) (ct % ts / 4) h).sat
  ((f.mul (Config.carrier (s.ncoPhase true (p / 8) i ct))).rheDiv (2 ^ 30)).sat

/-- The entries of every input that the output sample at an instant of entry e needs are known, and their symbols released. -/
def State.txReady (s : State) (e : Entry) (p ct : Nat) : Bool :=
  s.txReleased e && (List.range 4).all fun i =>
    !(s.slice true i).isStarted || (s.txNew p i ct).all fun k =>
      match s.txEntryAt k with | .unknown => false | .none => true | .entry f => s.txReleased f

/-- The combined sample of path p at an instant of entry e (R176). -/
def State.combine (s : State) (e : Entry) (p ct : Nat) : State × Cx :=
  let started := (List.range 4).filter fun i => (s.slice true i).isStarted
  let t := started.foldl (fun t i => (t.txNew p i ct).foldl (fun t k =>
    match t.txEntryAt k with
    | .entry f => if f.startBt = e.startBt then t.txInput f p i k else t.inAhead f fun u => u.txInput f p i k
    | _ => t) t) s
  let a := started.foldl (fun (a : Cx) i => a.add ((t.sliceOut p i ct).scale (t.effGet (TXC.SLICE_GAIN_gain i)))) Cx.zero
  let t := if a.clips 14 then
      (t.count TXC.COMB_SAT_COUNT_count 1).txSymMark (fun y => y.startBt = e.startBt) fun (y : TxSym) => { y with satd := true }
    else t
  (t, a.round 14)

/-- The edge window at sample n of a run of a known or open length (R180). -/
def edge (r n : Nat) (len : Option Nat) (c : Cx) : Cx :=
  let m (k : Nat) (c : Cx) : Cx := let w := Config.edgeWindow r k; ⟨rhe (w * c.i) (2 ^ 15), rhe (w * c.q) (2 ^ 15)⟩
  let c := if n < r then m n c else c
  match len with
  | some l => if l - r ≤ n ∧ n < l then m (l - 1 - n) c else c
  | none => c

/-! ## Crest-factor reduction (R181 to R185) -/

/-- The largest x below 2^b with (2 x − 1)^200 ≤ m. -/
def root200 : Nat → Nat → Nat → Nat
  | 0, _, r => r
  | b + 1, m, r => if (2 * (r + 2 ^ b) - 1) ^ 200 ≤ m then root200 b m (r + 2 ^ b) else root200 b m r

/-- ref × 10^(T/20) rounded, with T in units of 0.1 dB (R181). -/
def cfrA (ref t : Nat) : Nat := min 0x7FFF (root200 17 ((2 * ref) ^ 200 * 10 ^ t) 0)

/-- The threshold A in force: `CFR_STAT.a`. -/
def State.cfrThreshold (s : State) : Nat := cfrA (s.effGet TXC.CFR_REF_ref) (60 + s.effGet TXC.CFR_CTRL_papr)

/-- v × a / √m, rounded half to even. -/
def scaleTo (v : Int) (a m : Nat) : Int :=
  let r := isqrt m
  if r = 0 then 0
  else if r * r = m then rhe (v * a) r
  else
    let k : Int := ((isqrt (4 * (v * v).toNat * (a * a) / m) + 1) / 2 : Nat)
    if v < 0 then -k else k

/-- The error of a kept candidate (R182, step 3). -/
def cfrError (u : Cx) (a : Nat) : Cx :=
  let m := u.mag2.toNat
  let r := isqrt m
  let part (v : Int) : Int := if r * r = m then rhe (v * ((r : Int) - a)) r else v - scaleTo v a m
  ⟨part u.i, part u.q⟩

/-- Candidates of a block in a window (R182, step 1) for stage k of a path, by index in the window. -/
def cfrCandidates (w : List CfrSmp) (from_ k : Nat) : List Nat :=
  let z : CfrSmp := ⟨Cx.zero, Cx.zero, 0, 0, true⟩
  let m (j : Nat) : Int := (w.getD j z).u.mag2
  (List.range 32).filterMap fun d =>
    let j := from_ + d
    let x := w.getD j z
    if !x.byp && x.stages.testBit k && m j > (x.a * x.a : Nat) && (if j = 0 then true else m j ≥ m (j - 1)) && m j > m (j + 1) then some j
    else none

/-- The two candidates of largest magnitude, the earlier one on a tie (R182, step 2). -/
def cfrKeep (w : List CfrSmp) (l : List Nat) : List Nat :=
  let m (k : Nat) : Int := match w[k]? with | some x => x.u.mag2 | none => 0
  l.filter fun k => decide ((l.filter fun j => m j > m k || (m j = m k && j < k)).length < 2)

/-- Tap d of the kernel (R183): each slice's pulse shifted to its offset from the transmit centre and weighted by its gain, in units of
2^-30; and the tap at 0, which normalises it. -/
def kernelTap (l : List KernelPart) (d : Int) : Cx × Int :=
  l.foldl (fun (a : Cx × Int) k =>
    let ph : Nat := (4 * d * (k.offset : Int) % 2 ^ 48).toNat / 2 ^ 28
    let c := (Config.carrier ph).scale (k.gain * Config.cfrPulse k.preset k.rate d)
    (a.1.add c, a.2 + k.gain * Config.cfrPulse k.preset k.rate 0)) (Cx.zero, 0)

/-- Subtracts one pulse from a window (R182, step 4); each product is rounded half to even (log 24). -/
def cfrPulseSub (kernel : List KernelPart) (w : List CfrSmp) (k : Nat) (e : Cx) : List CfrSmp :=
  (List.range w.length).zipWith (fun (j : Nat) (x : CfrSmp) =>
    let d : Int := (j : Int) - k
    if d < -31 ∨ 31 < d then x
    else
      let t := kernelTap kernel d
      let c := if d = 0 then e else if t.2 ≤ 0 then Cx.zero else (e.mul t.1).rheDiv (t.2.toNat * 2 ^ 30)
      { x with y := (x.y.sub c).sat }) w

/-- Stage k takes a sample: the stage after, what leaves it, skipped candidates. `kernel` gives the kernel at a sample of the run. -/
def CfrStage.push (c : CfrStage) (k : Nat) (kernel : Nat → List KernelPart) (u : CfrSmp) : CfrStage × List CfrSmp × Nat :=
  let w := c.win ++ [{ u with u := u.y }]
  let n := c.n + 1
  let base := n - w.length
  if n < 64 ∨ n % 32 ≠ 0 then (⟨n, w⟩, [], 0)
  else
    let first := n - 64
    let cand := cfrCandidates w (first - base) k
    let keep := cfrKeep w cand
    let w := keep.foldl (fun w j =>
      match w[j]? with
      | some x => cfrPulseSub (kernel (base + j)) w j (cfrError x.u x.a)
      | none => w) w
    let d := first + 1 - base
    (⟨n, w.drop d⟩, w.take d, cand.length - keep.length)

/-- Samples pass the stages from number k on, lowest first: the stages after, what leaves the last, skipped candidates. -/
def cfrChain (kernel : Nat → List KernelPart) : Nat → List CfrStage → List CfrSmp → List CfrStage × List CfrSmp × Nat
  | _, [], us => ([], us, 0)
  | k, c :: t, us =>
    let r := us.foldl (fun (acc : CfrStage × List CfrSmp × Nat) u =>
      let o := acc.1.push k kernel u
      (o.1, acc.2.1 ++ o.2.1, acc.2.2 + o.2.2)) (c, [], 0)
    let q := cfrChain kernel (k + 1) t r.2.1
    (r.1 :: q.1, q.2.1, r.2.2 + q.2.2)

/-- The kernel of a stand in force at an instant. -/
def State.kernelAt (s : State) (st ct : Nat) : List KernelPart :=
  (if ct < s.tx.kernelCt then s.tx.kernelOld else s.tx.kernel).getD st []

/-! ## Toward the DAC gate (R15, R186) -/

/-- A sample after reduction goes on to the gate (R184, R185): the residual is counted; the run's samples only reach the gate, and none
of a symbol that its gate discards (R24). -/
def State.toGate (s : State) (p : Nat) (u : CfrSmp) (cfrOn : Bool) : State :=
  let x := s.txPath p
  let ct := x.runCt + 4 * x.outN
  let raw := x.raw.headD u
  let v := if raw.byp then raw.y else u.y
  let over_ := match x.endN with | some n => decide (n ≤ x.outN) | none => false
  if over_ then s.setTxPath p { x with raw := x.raw.drop 1 }
  else
    let s := if cfrOn && !raw.byp && v.mag2 > (raw.a * raw.a : Nat) then (s.count TXC.CFR_RESID_COUNT_count 1).raise TXC.base 6 else s
    let h := s.dpdPath p
    let dl := (v :: (if x.outN = 0 then [] else h.dl)).take 8
    let s := s.setDpd p { h with dl := dl }
    s.setTxPath p { x with
      outN := x.outN + 1
      raw := x.raw.drop 1
      gate := if ct < x.dropTo then x.gate else x.gate ++ [⟨ct, dl⟩] }

/-- A combined sample enters crest-factor reduction (R178, R182). -/
def State.cfrIn (s : State) (p : Nat) (c : Cx) : State :=
  let x := s.txPath p
  let byp : Bool := bitsOf (s.effGet ⟨if p < 32 then TXC.CFR_BYP_LO else TXC.CFR_BYP_HI, 0, 32⟩) (p % 32) 1 = 1
  let on := s.flag TXC.CFR_CTRL_en
  let u : CfrSmp := ⟨c, c, s.cfrThreshold, s.effGet TXC.CFR_CTRL_stages, byp || !on⟩
  let t := s.setTxPath p { x with inN := x.inN + 1, raw := x.raw ++ [u] }
  if !on then t.toGate p u false
  else
    let st := if x.cfr.isEmpty then List.replicate 4 ⟨0, []⟩ else x.cfr
    let r := cfrChain (fun n => s.kernelAt (p / 8) (x.runCt + 4 * n)) 0 st [u]
    let t := (t.setTxPath p { t.txPath p with cfr := r.1 }).count TXC.CFR_SKIP_COUNT_count r.2.2
    r.2.1.foldl (fun t v => t.toGate p v true) t

/-- Where the run ends that a transmitting entry belongs to, as far as it is known (R65, R180). -/
def State.knownRunEnd (s : State) (e : Entry) : Option Nat :=
  match s.txEntryAt (64 * s.entryEnd e) with
  | .none => some (s.entryEnd e)
  | _ => none

/-- The next sample of path p, at an instant of entry e, passes combining and the edge window. -/
def State.txPass (s : State) (e : Entry) (p ct : Nat) : State :=
  let r := s.combine e p ct
  let x := r.1.txPath p
  let len : Option Nat := (s.knownRunEnd e).map fun b => (64 * b - x.runCt) / 4
  r.1.cfrIn p (edge s.tx.runRamp x.inN len r.2)

/-- The entry of an instant, where the transmit chain can form its sample now: in the running entry; and in the fetched one of the same
run but for the last 128 samples, of which the closing window is known at its start only (R65, R180). -/
def State.txEntryNow (s : State) (p ct : Nat) : Option (Entry × Bool) :=
  match s.timer.cur, s.txEntryAt ct with
  | some e, .entry f =>
    if f.startBt = e.startBt then (if s.txReady e p ct then some (e, false) else none)
    else if s.isTx e ∧ ct + 512 < 64 * s.entryEnd f ∧ (s.ahead f).txReady f p ct then some (f, true)
    else none
  | _, _ => none

/-- TX_SAMPLE: the next sample of path p's run passes from the beamformer toward the DAC gate (R15). A sample whose entry is over
enters as zero; after the run's last sample the stages flush. A sample that cannot be formed yet waits. -/
def State.txSample (s : State) (p : Nat) : State :=
  let x := s.txPath p
  let ct := x.runCt + 4 * x.inN
  if !x.active then s
  else if (match x.endN with | some n => decide (n ≤ x.outN) | none => false) then s.setTxPath p { x with active := false }
  else if (match x.endN with | some n => decide (n ≤ x.inN) | none => false) then s.cfrIn p Cx.zero
  else match s.timer.cur with
  | none => s
  | some e =>
    if ct < 64 * e.startBt then s.cfrIn p Cx.zero
    else match s.txEntryNow p ct with
    | some (f, true) => (s.setTxPath p { x with undo := x.undo <|> some ⟨x.inN, x.outN, x.cfr, x.raw, (s.dpdPath p).dl⟩ }).inAhead f
        fun t => t.txPass f p ct
    | some (f, false) => s.txPass f p ct
    | none => (match s.txEntryAt ct with
      | .none => (s.setTxPath p { x with endN := some x.inN }).cfrIn p Cx.zero
      | _ => s)

/-- At the start of an entry, what path p has formed for it ahead is formed again with the settings that act from this start on (R29,
R520): the inputs of the slice filters, and every sample from the entry's first. Samples before it stand. -/
def State.txRedoPath (s : State) (e : Entry) (p : Nat) : State :=
  let b := 64 * e.startBt
  let x := s.txPath p
  let t := (List.range 4).foldl (fun t i =>
    (((x.flt.getD i []).map (·.1)).filter fun k => decide (b ≤ k)).foldl (fun t k => t.txInput e p i k) t) s
  match x.undo with
  | none => t
  | some u =>
    let t := t.setTxPath p { t.txPath p with inN := u.inN, outN := u.outN, cfr := u.cfr, raw := u.raw, gate := [], undo := none }
    let t := t.setDpd p { t.dpdPath p with dl := u.dl }
    let t := (List.range (x.inN - u.inN)).foldl (fun t k => t.txPass e p (x.runCt + 4 * (u.inN + k))) t
    t.setTxPath p { t.txPath p with
      gate := (x.gate.filter fun z => decide (z.ct < b)) ++ (t.txPath p).gate.filter fun z => decide (b ≤ z.ct) }

/-- Every path's samples formed ahead for the entry that starts (R29); counts and events are those of the first forming (log 99). -/
def State.txRedo (s : State) (e : Entry) : State :=
  if s.isTx e then { (List.range 64).foldl (fun t p => if (s.txPath p).active then t.txRedoPath e p else t) s with regs := s.regs } else s

/-! ## Rate gates (R18, R22 to R27, R421) -/

/-- A slack minimum takes a value (R27): event bit 9 as it falls below the limit. -/
def State.slackMin (s : State) (f : Fld) (v : Nat) : State :=
  let old := s.get f
  let new := min old (min 0xFFFF v)
  let lim := s.get PWR.RG_SLACK_WARN_limit
  let t := s.set f new
  if new < lim ∧ lim ≤ old then t.raise PWR.base 9 else t

/-- An integrity detection in a DAC gate (R414, R421): counted once per symbol and gate. -/
def State.gateUpset (s : State) (p : Nat) : State :=
  let x := s.txPath p
  if x.lost then s
  else ((((s.setTxPath p { x with lost := true }).count MEM.DET_RG_COUNT_count 1).raise MEM.base 6)).txSymMap (fun _ => true)
    fun y => { y with cause := addCause y.cause 3 }

/-- The DAC gate of path p holds at an instant (R25): no scheduled downlink symbol runs there, or the entry gates the stand. -/
def State.dacHeld (s : State) (p ct : Nat) : Bool :=
  match s.timer.cur with
  | some e => !s.isTx e || decide (ct < 64 * e.startBt) || decide (64 * s.entryEnd e ≤ ct) || s.entryGates e (p / 8) 1
  | none => true

/-- The envelope limiter of path p (R186): the limited sample; a sample it acts on is counted and reported. -/
def State.limit (s : State) (p : Nat) (y : Cx) : State × Cx :=
  let lim := s.effGet (TXC.ENV_LIM_lim p)
  let m := y.mag2.toNat
  if m ≤ lim * lim then (s, y)
  else
    ((((s.count (TXC.ENV_COUNT_count p) 1).raise TXC.base 4).txSymMap (fun _ => true) fun (z : TxSym) => { z with limited := true }).prtTrip 24,
      ⟨scaleTo y.i lim m, scaleTo y.q lim m⟩)

/-- The converter codes of path p for the sample of an instant (R14, R15, R91, R98, R103): four, or two in half-rate mode; the mute acts
after the interpolator (R189). -/
def State.dacCodes (s : State) (p ct : Nat) (hist : List Cx) (f : Nat × Nat) : List Nat :=
  let half := s.flag CLK.PLL_CTRL_half
  let n := if half then 2 else 4
  let w := s.freq (STD.TX_CENTRE_LO (p / 8))
  (List.range n).map fun k =>
    let r := interpSum (Config.finalInterpolator half (s.cnv.dacMix.getLsbD p)) n k hist
    let v := (r.1.mul (Config.carrier (mixPhase w (ct + 4 / n * k)))).i
    if r.2 = 0 then 0x2000 else (0x2000 + sat (rhe (v * f.1) (r.2 * f.2 * 2 ^ 32)) 14).toNat

/-- The inputs of the final interpolator with one more: instants at which the gate released no sample gave zero (R23). -/
def TxPath.histPush (x : TxPath) (ct : Nat) (y : Cx) : List Cx :=
  (y :: (List.replicate (min 63 ((ct - x.histCt) / 4 - 1)) Cx.zero ++ x.hist)).take 64

/-- A transmitting entry runs at an instant: its samples pass predistortion and the limiter, whatever its gate bits (R15, R186). -/
def State.txNow (s : State) (ct : Nat) : Bool :=
  match s.timer.cur with
  | some e => s.isTx e && decide (64 * e.startBt ≤ ct) && decide (ct < 64 * s.entryEnd e)
  | none => false

/-- The DAC gate of path p releases its next sample at its instant (R18, R179, R188 to R190, R193, R200): predistortion, the limiter,
and the sample as the converter and the thermal state take it. A gate that holds lets the sample pass unseen (R25). -/
def State.dacRelease (s : State) (p slack : Nat) (upset : Bool) : State :=
  match (s.txPath p).gate with
  | [] => s
  | g :: rest =>
    let s := (s.atCt g.ct).capTick
    let x := s.txPath p
    if s.dacHeld p g.ct then
      let s := s.setTxPath p { x with gate := rest, hist := x.histPush g.ct Cx.zero, histCt := g.ct, dac := none }
      if s.txNow g.ct then
        let d := s.dpdSample p g.ct g.dl
        (d.1.limit p d.2).1.capRef p g.ct Cx.zero (g.dl.headD Cx.zero)
      else s
    else
      let s := s.setTxPath p { x with gate := rest }
      let s := if upset then s.gateUpset p else s
      let d := s.dpdSample p g.ct g.dl
      let l := d.1.limit p d.2
      let s := l.1
      let x := s.txPath p
      let dead := x.deficit || x.lost || s.clockDown
      let f := x.level (s.tx.muted.getLsbD p) g.ct
      let y := if dead then Cx.zero else l.2
      let z : Cx := if s.dacBalance p then Cx.zero else ⟨rhe (y.i * f.1) f.2, rhe (y.q * f.1) f.2⟩
      let hist := x.histPush g.ct y
      let s := if dead then s else s.slackMin PWR.RG_SLACK_DAC_min slack
      let s := s.setTxPath p { x with hist := hist, histCt := g.ct, dac := some (g.ct, s.dacCodes p g.ct hist f) }
      (s.thetaSample p g.ct z).capRef p g.ct z (g.dl.headD Cx.zero)

/-- The code at the DAC of path p now (R104, R179, R188, R193): 0x2000 outside released samples, at the balance switch, from a deficit to
the symbol's end, and while muted. -/
def State.dacOut (s : State) (p : Nat) : Nat :=
  let x := s.txPath p
  if s.dacHeld p s.ct ∨ x.deficit ∨ x.lost ∨ s.dacBalance p ∨ (x.level (s.tx.muted.getLsbD p) s.ct).1 = 0 then 0x2000
  else match x.dac with
  | some (b, l) => if s.ct < b + 4 then l.getD ((s.ct - b) * l.length / 4) 0x2000 else 0x2000
  | none => 0x2000

/-- The gate of the calibration transmitter releases its next sample (R111, R113): zero where the word fails its check, and from a deficit or
a detection in the gate to the symbol's end (R23, R414), counted once per symbol (R421). A play runs in entries of every kind, gap entries
too (R112, R115), and its gate checks and reports there as R26 gives index 64 (log 130); in Idle it releases nothing (R440). -/
def State.calRelease (s : State) (slack : Nat) (upset : Bool) : State :=
  match s.cnv.play with
  | none => s
  | some c =>
    let s := s.atCt (s.calCt c c.k)
    if s.calHeld then { s with cnv := { s.cnv with play := some { c with k := c.k + 1, hist := (Cx.zero :: c.hist).take 64 } } }
    else
      let s := if upset && !s.cnv.calLost then
          { (s.count MEM.DET_RG_COUNT_count 1).raise MEM.base 6 with cnv := { s.cnv with calLost := true } }
        else s
      let dead := s.cnv.calLate || s.cnv.calLost || s.clockDown
      let s := if dead then s else s.slackMin PWR.RG_SLACK_DAC_min slack
      let n := c.k % c.len
      let r := s.calWord c n
      let x := if dead || r.2.bad.contains n then Cx.zero else Cx.ofWord (s.word (c.addr n))
      { r.1 with cnv := { r.1.cnv with play := some { r.2 with k := c.k + 1, hist := (x :: c.hist).take 64 } } }

/-- The start of the running entry; with none, the present BT. -/
def State.symStart (s : State) : Nat := match s.timer.cur with | some e => e.startBt | none => s.bt

/-- A write of `RG_CTRL` (R27). -/
def State.rgClear (s : State) (v : Word) : State :=
  if bit v 0 then
    (((s.set PWR.RG_DEF_COUNT_count 0).set PWR.RG_DEF_LAST_valid 0).set PWR.RG_SLACK_DAC_min 0xFFFF).set PWR.RG_SLACK_PORT_min 0xFFFF
  else s

/-! ## Configuration writes (R178, R181, R187) -/

/-- A write of `CFR_CTRL`. -/
def State.cfrCtrlWrite (s : State) (v : Word) : State :=
  if bits v 0 1 ≠ s.get TXC.CFR_CTRL_en ∧ s.anyLive true then s.logErr TXC.base 0x40 TXC.CFR_CTRL
  else if bits v 8 8 > 40 then s.logErr TXC.base 0x47 TXC.CFR_CTRL
  else (s.wr TXC.CFR_CTRL (v &&& 0xFFF1#32)).refreshIfStopped

/-- A write of `ENV_LIM_p` (R187). -/
def State.envLimWrite (s : State) (p : Nat) (v : Word) : State :=
  if bits v 0 16 > s.otp.envCeil then s.logErr TXC.base 0x05 (TXC.ENV_LIM p)
  else (s.set (TXC.ENV_LIM_lim p) (bits v 0 16)).refreshIfStopped

/-! ## Commands -/

/-- Meaning of TX_RELEASE_START. -/
def execTxReleaseStart (g : Fin 4) (upset : Option (Fin 640 × Nat)) (s : State) : Host.Outcome State Fault Refusal :=
  .next (s.txReleaseStart g (upset.map fun (u : Fin 640 × Nat) => (u.1.val, u.2)))

/-- Meaning of TX_SAMPLE. -/
def execTxSample (p : Fin 64) (s : State) : Host.Outcome State Fault Refusal := .next (s.txSample p)

/-- Meaning of RG_CLEAR. -/
def execRgClear (id : ReqId) (data : Word) (s : State) : Host.Outcome State Fault Refusal :=
  .next (s.writeCmd id PWR.RG_CTRL data (·.rgClear data))

end Sys2Proof.Machine
end

