-- ==== Sys2Proof/Machine/Port.lean ====
section
/-!
DEFINITION. Lanes and port formation: the columns of a port and what its lanes send, port states and training, Quiet and Deep, lane
faults, PRBS engines, eye readings (R274 to R300).
-/
namespace Sys2Proof.Machine

/-! ## Lanes of ports (R277) -/

/-- Base lane of port q. -/
def baseLane (q : Nat) : Nat := if q = 0 then 0 else if q = 1 then 8 else if q = 2 then 4 else 12

/-- Largest width code of port q. -/
def widthMax (q : Nat) : Nat := if q = 0 then 4 else if q = 1 then 3 else 2

/-- Lanes of port q as its `CFG` gives them, in position order; none where the width is not permitted. -/
def State.portLanes (s : State) (q : Nat) : List Nat :=
  if widthMax q < s.get (PORT.CFG_width q) then [] else (List.range (s.portWidth q)).map fun v => baseLane q + v

/-- Port q is enabled. -/
def State.portEn (s : State) (q : Nat) : Bool := s.flag (HDR.BLK_CTRL_enable (PORT.base q))

/-- The enabled port that occupies lane l. -/
def State.laneOwner (s : State) (l : Nat) : Option Nat := (List.range 4).find? fun q => s.portEn q && (s.portLanes q).contains l

/-- State code of port q (R289). -/
def State.portState (s : State) (q : Nat) : Nat := s.get (PORT.STAT_state q)

/-- Beside the registers. -/
def State.pst (s : State) (q : Nat) : PortSt := s.portSt.getD q PortSt.reset
/-- Stores it. -/
def State.setPst (s : State) (q : Nat) (x : PortSt) : State := { s with portSt := s.portSt.set q x }
/-- Lane l beside its registers. -/
def State.lst (s : State) (l : Nat) : LaneSt := s.laneSt.getD l LaneSt.reset
/-- Stores it. -/
def State.setLst (s : State) (l : Nat) (x : LaneSt) : State := { s with laneSt := s.laneSt.set l x }

/-- Port q carries packets: Active, and its exit from Quiet is over. -/
def State.portUp (s : State) (q : Nat) : Bool := s.portState q = 2 && decide ((s.pst q).up ≤ (s.ct : Int)) && s.on (22 + q)

/-! ## PRBS generators (R297) -/

/-- A lane of engine q. -/
def State.prbsLane (s : State) (q l : Nat) : PrbsLane := (s.prbsSt.getD q []).getD l PrbsLane.reset
/-- Stores it. -/
def State.setPrbs (s : State) (q l : Nat) (x : PrbsLane) : State :=
  { s with prbsSt := s.prbsSt.set q ((s.prbsSt.getD q []).set l x) }

/-- Engine q generates on lane l in a mode. -/
def State.prbsGens (s : State) (fill : Bool) (q l : Nat) : Bool :=
  s.flag (PORT.PRBS_CTRL_en q) && s.flag (PORT.PRBS_CTRL_gen q) && (s.flag (PORT.PRBS_CTRL_mode q) == fill) &&
    (s.get (PORT.PRBS_LANES_mask q)).testBit l

/-- The baud rate of a lane under raw test, in units of 100 kBd: that of the quad in use, else that of port q. -/
def State.rawRate (s : State) (q l : Nat) : Nat :=
  match (List.range 4).find? fun p => s.portEn p && (s.portLanes p).any fun k => k / 4 = l / 4 with
  | some p => s.portRate p
  | none => s.portRate q

/-- Bits that pass on a lane under raw test from an instant of the model's clock until now. -/
def State.rawBits (s : State) (q l since : Nat) : Nat := (s.now - since) * s.rawRate q l * 100 / 7864320

/-! ## The columns of a port (R279, R281) -/

/-- The first column that starts at or after an instant in CT, of the cycle that port q's alignment columns began (R281, R290, R293;
log 101): a column lasts ten bits. -/
def State.colFrom (s : State) (q ct : Nat) : Nat := (((ct : Int) * s.portRate q - (s.pst q).org + 786431) / 786432).toNat

/-- The column that is sent at an instant. -/
def State.colAt (s : State) (q ct : Nat) : Nat := (((ct : Int) * s.portRate q - (s.pst q).org) / 786432).toNat

/-- The start of a column in CT, rounded up. -/
def State.colCt (s : State) (q col : Nat) : Nat :=
  (((s.pst q).org + (col * 786432 : Nat) + (s.portRate q : Int) - 1) / s.portRate q).toNat

/-- Columns of a packet of port q (R279). -/
def State.flyCols (s : State) (q : Nat) (f : Flying) : Nat := (f.bytes.length + s.portWidth q - 1) / s.portWidth q + 2

/-- The character of a packet's n-th column on a lane position. -/
def flyChar (w : Nat) (f : Flying) (n v : Nat) : LineChar :=
  let last := (f.bytes.length + w - 1) / w + 1
  if n = 0 then (if v = 0 then k27_7 else k28_0)
  else if n = last then (if v = 0 then (if f.cut then k30_7 else k29_7) else k28_0)
  else match f.bytes[(n - 1) * w + v]? with
    | some b => .d b.toNat
    | none => k28_0

/-- The packet of port q that holds a free column. -/
def State.flyAt (s : State) (q slot : Nat) : Option Flying :=
  (s.pst q).flight.find? fun f => decide (f.slot ≤ slot) && decide (slot < f.slot + s.flyCols q f)

/-- Free columns with fill or idle, from the column that port q has been followed up to until another: outside packets and before a quiet
notice. -/
def State.gaps (s : State) (q col : Nat) : Nat :=
  let p := s.pst q
  let lo := slotFrom p.col
  let hi := match p.notice with | some n => min n (slotFrom col) | none => slotFrom col
  hi - lo - (p.flight.map fun f => min hi (f.slot + s.flyCols q f) - max lo f.slot).foldl (· + ·) 0

/-- The character that port q sends on lane position v in a column not before the one it has been followed up to (R276, R279, R281,
R292, R297): after a quiet notice none. -/
def State.colChar (s : State) (q v col : Nat) : Option LineChar :=
  let p := s.pst q
  let l := baseLane q + v
  let slot := slotFrom col
  let gone := match p.notice with | some n => decide (slotColumn (n + 3) < col) | none => false
  if gone then none
  else match fixedChar q v col with
  | some c => some c
  | none => (match s.flyAt q slot with
    | some f => some (flyChar (s.portWidth q) f (slot - f.slot) v)
    | none =>
      if (match p.notice with | some n => decide (n ≤ slot) | none => false) then some k28_3
      else match (List.range 4).find? fun e => s.prbsGens true e l with
        | some e =>
          let x := s.prbsLane e l
          some (.d (prbsByte (s.get (PORT.PRBS_CTRL_poly e)) l (x.gen + 8 * s.gaps q col) x.inj))
        | none => some k28_0)

/-- A character turns the running disparity of its lane over, whatever it is. -/
def flips (c : LineChar) : Bool := (encode10 false c).2

/-- Columns before one with a number in the cycle of 4,096. -/
def colsBefore (col m : Nat) : Nat := (col + 4095 - m) / 4096

/-- How often a list of characters turns a disparity over, as odd or even. -/
def flipsOf (l : List LineChar) : Bool := l.foldl (fun a c => a != flips c) false

/-- The disparity of lane position v of port q at a column, from the one it has been followed up to: the alignment columns between, the
packets, a quiet notice and fill turn it; idle does not. -/
def State.rdAt (s : State) (q v col : Nat) : Bool :=
  let p := s.pst q
  let l := baseLane q + v
  let inside (slot : Nat) : Bool := decide (p.col ≤ slotColumn slot) && decide (slotColumn slot < col)
  let n (m : Nat) : Bool := (colsBefore col m - colsBefore p.col m) % 2 = 1
  let align := (n 0 && flips k28_5) != (n 1 && flips (.d (0x80 + 16 * q + v)))
  let sent := p.flight.foldl (fun a f =>
    a != flipsOf ((List.range (s.flyCols q f)).filterMap fun k => if inside (f.slot + k) then some (flyChar (s.portWidth q) f k v) else none)) false
  let notice := match p.notice with
    | some k => flipsOf ((List.range 4).filterMap fun j => if inside (k + j) then some k28_3 else none)
    | none => false
  let fill := match (List.range 4).find? fun e => s.prbsGens true e l with
    | some e =>
      let x := s.prbsLane e l
      flipsOf ((List.range (s.gaps q col)).map fun j => .d (prbsByte (s.get (PORT.PRBS_CTRL_poly e)) l (x.gen + 8 * j) x.inj))
    | none => false
  ((((s.lst l).rd != align) != sent) != notice) != fill

/-- Port q's transmitters are followed up to the present column: disparities and fill generators stand there, and packets that are over
are forgotten. -/
def State.lineTo (s : State) (q : Nat) : State :=
  if s.portState q ≠ 2 ∨ (s.ct : Int) < (s.pst q).up then s
  else
    let p := s.pst q
    let c := s.colAt q s.ct
    let t := (List.range (s.portWidth q)).foldl (fun (t : State) v =>
      let l := baseLane q + v
      let t := t.setLst l { t.lst l with rd := s.rdAt q v c }
      match (List.range 4).find? fun e => s.prbsGens true e l with
      | some e => t.setPrbs e l { s.prbsLane e l with gen := (s.prbsLane e l).gen + 8 * s.gaps q c }
      | none => t) s
    t.setPst q { p with col := max c p.col, flight := p.flight.filter fun f => decide (slotFrom c < f.slot + s.flyCols q f) }

/-- What the transmitter of a lane puts out (R276, R277, R289): nothing, a code group with the bit sent first in bit 9, or a raw bit. -/
inductive LaneOut where
  | idle
  | group (g : Nat)
  | bit (b : Bool)
  deriving DecidableEq, Repr

/-- A code group as it leaves the pins: `CFG.tx_inv` inverts it. -/
def State.outGroup (s : State) (l : Nat) (rd : Bool) (c : LineChar) : LaneOut :=
  let g := (encode10 rd c).1
  .group (if s.flag (LANE.CFG_tx_inv l) then 1023 - g else g)

/-- Code group n of a training sequence, TS1 or TS2, from a disparity (R276): both of its pairs turn the disparity over once. -/
def State.tsGroup (s : State) (l : Nat) (rd0 : Bool) (n : Nat) (ts2 : Bool) : LaneOut :=
  let rd := rd0 != decide (n / 2 % 2 = 1)
  if n % 2 = 0 then s.outGroup l rd k28_5 else s.outGroup l (!rd) (.d (if ts2 then 0xB5 else 0x4A))

/-- The disparity of lane position v of port q at a column where alignment columns and idle alone have been sent from column 0 on, at which
it is negative (R275; log 101). -/
def alignRd (q v col : Nat) : Bool :=
  (colsBefore col 0 % 2 = 1 && flips k28_5) != (colsBefore col 1 % 2 = 1 && flips (.d (0x80 + 16 * q + v)))

/-- Code groups that pass on port q's lanes from an instant of the model's clock until now. -/
def State.groupsSince (s : State) (q since : Nat) : Nat := (s.now - since) * s.portRate q / 786432

/-- What lane position v of a training port sends (R290): nothing until its PLL has locked, TS1, TS2, then alignment columns with idle between
them. -/
def State.trainSends (s : State) (q l v : Nat) : LaneOut :=
  let p := s.pst q
  if s.now < p.ts1 then .idle
  else if s.now < p.ts2 then s.tsGroup l false (s.groupsSince q p.ts1) false
  else if s.now < p.align then
    s.tsGroup l (decide ((p.ts2 - p.ts1) * s.portRate q / 786432 / 2 % 2 = 1)) (s.groupsSince q p.ts2) true
  else
    let n := s.groupsSince q p.align
    s.outGroup l (alignRd q v n)
      (if n % 4096 = 0 then k28_5 else if n % 4096 = 1 then .d (0x80 + 16 * q + v) else k28_0)

/-- A port that is no longer Active still sends at a column: the rest of a packet and a quiet notice (R292), or the abort of a packet
(R296). -/
def State.tailAt (s : State) (q col : Nat) : Bool :=
  let p := s.pst q
  (match p.notice with | some n => decide (col ≤ slotColumn (n + 3)) | none => false) ||
    (match p.cut with | some n => decide (col ≤ slotColumn (n - 1)) | none => false)

/-- The port whose last columns still leave on lane l. -/
def State.tailPort (s : State) (l : Nat) : Option Nat :=
  (List.range 4).find? fun q => s.portState q != 2 && (s.portLanes q).contains l && s.tailAt q (s.colAt q s.ct)

/-- The character of a column of port q on lane l now, as it leaves the pins. -/
def State.colSends (s : State) (q l : Nat) : LaneOut :=
  let v := l - baseLane q
  let col := s.colAt q s.ct
  match s.colChar q v col with
  | some c => s.outGroup l (s.rdAt q v col) c
  | none => .idle

/-- What lane l sends at the present instant (R289, R290, R292, R296). A port that leaves Quiet sends TS2 for 128 code groups and the
alignment column before it is Active (R293; log 103). -/
def State.laneSends (s : State) (l : Nat) : LaneOut :=
  match s.tailPort l, s.laneOwner l with
  | some q, _ => s.colSends q l
  | none, some q =>
    let p := s.pst q
    let v := l - baseLane q
    let st := s.portState q
    if st = 1 then s.trainSends q l v
    else if st ≠ 2 then .idle
    else if (s.ct : Int) < p.up then
      (let ago := (s.ct : Int) * s.portRate q - p.org + 128 * 786432
       if ago < 0 then .idle
       else if ago < 128 * 786432 then s.tsGroup l false (ago / 786432).toNat true
       else s.colSends q l)
    else s.colSends q l
  | none, none => (match (List.range 4).find? fun e => s.prbsGens false e l with
    | some e =>
      let x := s.prbsLane e l
      let n := x.gen + s.rawBits e l x.genAt
      .bit ((prbsBit (s.get (PORT.PRBS_CTRL_poly e)) l n != x.inj.contains n) != s.flag (LANE.CFG_tx_inv l))
    | none => .idle)

/-! ## State changes -/

/-- Status of a lane in a port state (R280, R289): an Active lane has signal, lock and alignment; one that trains anew locks again; a Quiet
lane keeps its alignment; a receiver that is off has nothing. An eye reading is current only while the lane receives. -/
def State.laneTo (s : State) (l st : Nat) : State :=
  if st = 2 then ((s.set (LANE.STAT_sig l) 1).set (LANE.STAT_cdr_lock l) 1).set (LANE.STAT_comma l) 1
  else
    let t := (s.set (LANE.STAT_cdr_lock l) 0).set (LANE.EYE_valid l) 0
    let t := if st = 1 then t else t.set (LANE.STAT_sig l) 0
    if st = 1 ∨ st = 3 then t else (t.set (LANE.STAT_comma l) 0).setLst l { t.lst l with commas := 0 }

/-- A packet that will not leave whole: it is no longer counted as sent, and an entry's that has not begun is discarded (R294). -/
def State.flyDrop (s : State) (q : Nat) (f : Flying) (begun : Bool) : State :=
  let n := s.rd64 (PORT.TX_PKT_LO q)
  let t := if f.cut ∨ n = 2 ^ 64 - 1 then s else s.wr64 (PORT.TX_PKT_LO q) (n - 1)
  if begun then t
  else
    let t := t.count (PORT.QUIET_DROP_COUNT_count q) 1
    match f.idx with | some i => t.flowCount i 6 0 | none => t

/-- Port q stops sending packets now. A packet that has not begun is discarded. The one in transmission ends: with an abort in the next column
(R296), or whole before a quiet notice, which then follows (R292; log 125). -/
def State.portCut (s : State) (q : Nat) (quiet : Bool) : State :=
  if !s.portUp q then s
  else
    let s := s.lineTo q
    let p := s.pst q
    let now := slotFrom (s.colAt q s.ct)
    let begun := p.flight.filter fun f => decide (f.slot ≤ now)
    let t := (p.flight.filter fun f => decide (now < f.slot)).foldl (fun t f => t.flyDrop q f false) s
    if quiet then
      t.setPst q { p with flight := begun, notice := some (begun.foldl (fun m f => max m (f.slot + s.flyCols q f)) (now + 1)) }
    else
      let part (f : Flying) : Bool := decide (now + 1 < f.slot + s.flyCols q f)
      let short (f : Flying) : Flying := { f with bytes := f.bytes.take ((now - f.slot) * s.portWidth q), cut := true }
      let t := (begun.filter part).foldl (fun (t : State) f =>
        let u := t.flyDrop q f true
        { u with link := { u.link with sent := u.link.sent.set q (short f).bytes } }) t
      t.setPst q { p with
        flight := begun.map fun f => if part f then short f else f
        notice := none
        cut := if begun.isEmpty then none else some (if begun.any part then now + 2 else now + 1) }

/-- Port q leaves Active: a management session on it ends (R326). -/
def State.portSessions (s : State) (q : Nat) : State :=
  let on (i : Nat) : Bool := ringPort s.reversedNow (s.flow i).port = q
  match s.link.session with
  | some i => if on i then s.sessionEnd i else s
  | none => s

/-- The steps of a training that starts now (R290): the PLL locks within 60 µs where it was off; when TS2 and the alignment columns begin is for
the equaliser and the far end to say (log 103). -/
def State.trainPlan (s : State) (q : Nat) (off : Bool) : State :=
  let a := s.free
  let b := a.2.free
  let c := b.2.free
  let ts1 := s.now + (if off then a.1.toNat % (usCt 60 + 1) else 0)
  let ts2 := ts1 + b.1.toNat
  c.2.setPst q { s.pst q with train := s.now, ts1 := ts1, ts2 := ts2, align := ts2 + c.1.toNat }

/-- Port q takes a state. -/
def State.portTo (s : State) (q st : Nat) : State :=
  let t := if s.portState q = 2 ∧ st ≠ 2 then (s.portCut q (st = 3 || st = 4)).portSessions q else s
  let t := (t.set (PORT.STAT_state q) st).set (PORT.STAT_timed_armed q) 0
  let t := if st = 1 then t.trainPlan q (s.portState q = 0 || s.portState q = 4) else t
  (t.portLanes q).foldl (fun t l => t.laneTo l st) t

/-- Port q is Active from an instant on, in the cycle whose column 0 starts at `org`: columns, disparities and violation cycles begin anew
(R275, R281, R293). -/
def State.portBegin (s : State) (q : Nat) (up org : Int) : State :=
  let t := s.setPst q { s.pst q with up := up, org := org, slot := 0, other := 0, col := 0, flight := [], notice := none, cut := none }
  let c := max 2 (t.colAt q (max up s.ct).toNat)
  let t := t.setPst q { t.pst q with col := c }
  (t.portLanes q).foldl (fun t l => t.setLst l { t.lst l with cycle := 0, viol := 0, rd := alignRd q (l - baseLane q) c }) t

/-- The start of column 0 of a port that becomes Active now: where its training has sent alignment columns, the cycle goes on; else column 2
starts now (log 101). -/
def State.trainOrg (s : State) (q : Nat) : Int :=
  let p := s.pst q
  let r := s.portRate q
  if p.align ≤ s.now ∧ 2 ≤ s.groupsSince q p.align then (s.ct : Int) * r - ((s.now - p.align) * r : Nat) else (s.ct : Int) * r - 2 * 786432

/-- Training starts (R290). -/
def State.train (s : State) (q : Nat) : State := s.portTo q 1

/-- The port goes Down: event bit 2. -/
def State.portDown (s : State) (q : Nat) : State := (s.portTo q 0).raise (PORT.base q) 2

/-- A training fails (R290): counted; it restarts or the port goes Down. -/
def State.trainFail (s : State) (q : Nat) : State :=
  let t := s.count (PORT.RETRAIN_COUNT_fail q) 1
  if t.flag (PORT.CFG_auto_retrain q) then t.train q else t.portDown q

/-- Bits checked on a synchronised lane up to now: at the line rate in raw mode (R297). -/
def State.prbsBits (s : State) (q l : Nat) : Nat :=
  let x := s.prbsLane q l
  if s.flag (PORT.PRBS_CTRL_en q) && !s.flag (PORT.PRBS_CTRL_mode q) && (s.get (PORT.PRBS_STAT_sync q)).testBit l then
    min (2 ^ 64 - 1) (x.bits + s.rawBits q l x.at_)
  else x.bits

/-- Every engine in raw mode comes to now, before a rate or a setting that it runs with changes. -/
def State.rawSettle (s : State) : State :=
  (List.range 4).foldl (fun (t : State) q => (List.range 16).foldl (fun (t : State) l =>
    let raw := s.flag (PORT.PRBS_CTRL_en q) && !s.flag (PORT.PRBS_CTRL_mode q) && (s.get (PORT.PRBS_LANES_mask q)).testBit l
    if raw then
      let x := s.prbsLane q l
      t.setPrbs q l { x with
        bits := s.prbsBits q l
        at_ := s.now
        gen := if s.prbsGens false q l then x.gen + s.rawBits q l x.genAt else x.gen
        genAt := s.now }
    else t) t) s

/-- A lane that no port occupies is in raw use by a PRBS engine (R278). -/
def State.rawLane (s : State) (l : Nat) : Bool :=
  (List.range 4).any fun q => s.flag (PORT.PRBS_CTRL_en q) && !s.flag (PORT.PRBS_CTRL_mode q) && (s.get (PORT.PRBS_LANES_mask q)).testBit l

/-- Why an enable of port q has no effect (R278; log 71). -/
def State.portRefusal (s : State) (q : Nat) : Option Nat :=
  if (s.portLanes q).any fun l => (s.laneOwner l).isSome then some 0x41
  else if (s.portLanes q).any s.rawLane then some 0x43
  else if widthMax q < s.get (PORT.CFG_width q) ∨ 12 < s.get (PORT.CFG_rate q) then some 0x42
  else none

/-- The enable bit of port q is written (R278). -/
def State.portEnable (s : State) (q : Nat) (on : Bool) : State :=
  let f := HDR.BLK_CTRL_enable (PORT.base q)
  if on = s.portEn q then s
  else if on then
    (match s.portRefusal q with
    | some c => s.logErr (PORT.base q) c (HDR.BLK_CTRL (PORT.base q))
    | none => (s.rawSettle.set f 1).train q)
  else
    let s := s.rawSettle
    let down := s.portState q != 0
    let t := s.portTo q 0
    (if down then t.raise (PORT.base q) 2 else t).set f 0

/-- The lane-position characters received, one per lane of the port (R281). -/
def State.laneChars (s : State) (q : Nat) (order : List Nat) (farQ : Nat) : State :=
  (s.portLanes q).foldl (fun t l => t.set (LANE.STAT_lanechar l) (0x80 + 16 * farQ + order.getD (l - baseLane q) 0 % 16)) s

/-- The lane order fails (R283): the lanes that show a wrong position get cause 4 (log 104). -/
def State.orderFail (s : State) (q : Nat) (order : List Nat) : State :=
  ((s.portLanes q).foldl (fun t l => if order.getD (l - baseLane q) 0 = l - baseLane q then t else t.set (LANE.STAT_cause l) 4) s).trainFail q

/-- The skew of each lane behind the earliest, and the adapted taps of each decision-feedback equaliser: what the channel gives
(R282, R286; log 20). -/
def State.laneAdapt (s : State) (q : Nat) : State :=
  let ls := s.portLanes q
  let d := ls.foldl (fun (r : State × List Nat) _ => let x := r.1.free; (x.2, r.2 ++ [x.1.toNat % 49])) (s, [])
  let least := d.2.foldl min 48
  let t := ls.zip d.2 |>.foldl (fun (t : State) x => t.set (LANE.STAT_skew x.1) (x.2 - least)) d.1
  ls.foldl (fun t l =>
    if t.flag (LANE.CFG_eq l) ∧ !t.flag (LANE.CFG_dfe_freeze l) then
      (List.range 12).foldl (fun t n => let x := t.free; x.2.set (LANE.DFE_TAP_tap l n) (x.1.toNat % 256)) t
    else t) t

/-- A training reaches step 7 (R290) with the lane positions received, lane by lane, unless their order is not accepted (R283). -/
def State.trained (s : State) (q : Nat) (order : List Nat) (farQ : Nat) : State :=
  if s.portState q ≠ 1 ∨ !s.on (22 + q) ∨ s.pwr.railsOut.contains .vln ∨ s.pwr.railsOut.contains .vlh then s
  else
    let w := s.portWidth q
    let got := (List.range w).map fun v => order.getD v 0
    let inOrder := got == List.range w
    let rev := !inOrder && got == (List.range w).map fun v => w - 1 - v
    let s := (s.laneChars q order farQ).set (PORT.STAT_far_q q) farQ
    if !inOrder && !(rev && s.flag (PORT.CFG_allow_rev q)) then s.orderFail q order
    else
      let t := ((s.portTo q 2).setFlag (PORT.STAT_reversed q) rev).portBegin q s.ct (s.trainOrg q)
      ((t.laneAdapt q).count (PORT.RETRAIN_COUNT_done q) 1).raise (PORT.base q) 1

/-- A training has not reached step 7 within 2 ms. -/
def State.trainTimeout (s : State) (q : Nat) : State :=
  if s.portState q = 1 then (s.atNow ((s.pst q).train + usCt 2000)).trainFail q else s

/-- The port enters Quiet (R292). -/
def State.portQuiet (s : State) (q : Nat) : State :=
  if s.portState q = 2 then (s.portTo q 3).raise (PORT.base q) 4 else s

/-- A rail of the lanes is outside its window (R504). -/
def State.lanesOut (s : State) : Bool := s.pwr.railsOut.contains .vln || s.pwr.railsOut.contains .vlh

/-- Every lane of an Active or Quiet port is in fault with cause 1 (R295, R296, R504). -/
def State.portDead (s : State) (q : Nat) : State :=
  if s.portState q ≠ 2 ∧ s.portState q ≠ 3 then s
  else
    let t := (s.portLanes q).foldl (fun (t : State) l =>
      let u := (((t.count (LANE.FAULT_COUNT_count l) 1).set (LANE.STAT_cause l) 1).raise (LANE.base l) 3).raise (LANE.base l) 1
      let u := u.set (LANE.STAT_sig l) 0
      u.set (PORT.STAT_fault_map q) (u.get (PORT.STAT_fault_map q) ||| 2 ^ l)) s
    let t := (t.raise (PORT.base q) 3).raise (PORT.base q) 2
    if t.flag (PORT.CFG_auto_retrain q) then t.train q else t.portTo q 0

/-- The port leaves Quiet (R293): Active after 0.75 µs and 130 code-group periods. -/
def State.portWake (s : State) (q : Nat) : State :=
  if s.portState q = 3 then
    let r := s.portRate q
    let org := s.ct * r + (589824 * r + 99) / 100 + 128 * 786432
    let t := (s.portTo q 2).portBegin q ((org + 2 * 786432 + r - 1) / r : Nat) org
    if s.lanesOut then t.portDead q else t
  else s

/-- The port enters Deep (R294). -/
def State.portDeep (s : State) (q : Nat) : State := if s.portEn q then s.portTo q 4 else s

/-- A write of `PORT q .CTRL`. -/
def State.portCtrl (s : State) (q : Nat) (v : Word) : State :=
  let s := if bit v 3 && s.portEn q then s.train q else s
  let s := if bit v 0 then s.portQuiet q else s
  let s := if bit v 1 then s.portDeep q else s
  let s := if bit v 2 then (if s.portState q = 4 then s.train q else s.portWake q) else s
  if bit v 4 && s.portState q = 3 then s.set (PORT.STAT_timed_armed q) 1 else s

/-- Device time reaches `EXIT_T` with a timed exit armed (R293). -/
def State.timedExit (s : State) (q : Nat) : State :=
  if s.portState q = 3 ∧ s.flag (PORT.STAT_timed_armed q) then (s.atCt (s.rd64 (PORT.EXIT_T_LO q))).portWake q else s

/-- A training sequence arrives (R290): an Active or Quiet port trains. -/
def State.trainSeq (s : State) (q : Nat) : State := if s.portState q = 2 ∨ s.portState q = 3 then s.train q else s

/-! ## Lane faults (R295, R296) -/

/-- A lane of an Active port is in fault. -/
def State.laneFault (s : State) (l cause : Nat) : State :=
  match s.laneOwner l with
  | some q =>
    if s.portState q ≠ 2 ∨ cause = 0 ∨ 6 < cause ∨ (cause = 6 ∧ s.get (LANE.VIOL_LIM_lim l) = 0) then s
    else
      let t := ((s.count (LANE.FAULT_COUNT_count l) 1).set (LANE.STAT_cause l) cause).raise (LANE.base l) 3
      let t := if cause = 1 then (t.raise (LANE.base l) 1).set (LANE.STAT_sig l) 0 else t
      let t := if cause = 3 then t.set (LANE.STAT_comma l) 0 else t
      let t := t.set (PORT.STAT_fault_map q) (t.get (PORT.STAT_fault_map q) ||| 2 ^ l)
      let t := (t.raise (PORT.base q) 3).raise (PORT.base q) 2
      if t.flag (PORT.CFG_auto_retrain q) then t.train q else t.portTo q 0
  | none => s

/-- n code violations on a lane of a Training or Active port (R275): counted, and on an Active one a fault when those of one alignment
cycle reach the limit (R295). -/
def State.violations (s : State) (l n : Nat) : State :=
  match s.laneOwner l with
  | some q =>
    if (s.portState q ≠ 1 ∧ s.portState q ≠ 2) ∨ n = 0 then s
    else
      let t := s.count (LANE.VIOL_COUNT_count l) n
      let t := t.setLst l { t.lst l with commas := 0 }
      if t.portState q = 1 then t
      else
        let cyc := t.colAt q t.ct / 4096
        let x := t.lst l
        let k := (if x.cycle = cyc then x.viol else 0) + n
        let t := t.setLst l { x with cycle := cyc, viol := k }
        let lim := t.get (LANE.VIOL_LIM_lim l)
        if lim ≠ 0 ∧ lim ≤ k then t.laneFault l 6 else t
  | none => s

/-- A comma arrives at a 10-bit boundary (R280): three at one boundary align the lane to it; one at another boundary begins a new count, and
takes the alignment from a lane that has it, which is a fault of an Active one (R295). -/
def State.commaAt (s : State) (l bnd : Nat) : State :=
  let x := s.lst l
  if x.bnd = bnd then
    (let n := min 3 (x.commas + 1)
     let t := s.setLst l { x with commas := n }
     if n = 3 then t.set (LANE.STAT_comma l) 1 else t)
  else
    let t := s.setLst l { x with commas := 1, bnd := bnd }
    if (s.laneOwner l).any fun q => s.portState q = 2 then t.laneFault l 3 else t.set (LANE.STAT_comma l) 0

/-- A code group arrives between packets at the receiver's running disparity and at a 10-bit boundary of the lane's bit stream (R275, R276,
R280): a violation counts, and commas align the lane (log 124). A group at another boundary than the aligned one is seen as a comma
only. -/
def State.groupIn (s : State) (l : Nat) (rd : Bool) (g bnd : Nat) : State :=
  let g := if s.flag (LANE.CFG_rx_inv l) then 1023 - g else g
  let away := s.flag (LANE.STAT_comma l) && (s.lst l).bnd != bnd
  if isViolation rd g then (if away then s else s.violations l 1)
  else if decode10 rd g = some k28_5 ∧ ((s.laneOwner l).any fun q => s.portState q = 1 || s.portState q = 2) then s.commaAt l bnd
  else s

/-- A write of `LANE l .CFG` (R286). -/
def State.laneCfgWrite (s : State) (l : Nat) (v : Word) : State :=
  if (s.laneOwner l).isSome then s.logErr (LANE.base l) 0x40 (LANE.CFG l)
  else if 18 < bits v 4 5 then s.logErr (LANE.base l) 0x41 (LANE.CFG l)
  else s.wr (LANE.CFG l) (v &&& 0x1FF#32)

/-- A write of `LANE l .TX_EQ` (R287). -/
def State.txEqWrite (s : State) (l : Nat) (v : Word) : State :=
  if 16 < bits v 0 5 then s.logErr (LANE.base l) 0x41 (LANE.TX_EQ l) else s.wr (LANE.TX_EQ l) (v &&& 0xF071F#32)

/-- A write of `PORT q .CFG` (R278, R306). -/
def State.portCfgWrite (s : State) (q : Nat) (v : Word) : State :=
  if s.portEn q ∨ s.enabledFlows.any fun i => (s.flow i).port = q then s.logErr (PORT.base q) 0x40 (PORT.CFG q)
  else s.rawSettle.wr (PORT.CFG q) (v &&& 0x7F7#32)

/-- A lane receives: in a Training or Active port, or under raw check (R288, R289, R297). -/
def State.receives (s : State) (l : Nat) : Bool :=
  match s.laneOwner l with
  | some q => s.portState q = 1 || s.portState q = 2
  | none => (List.range 4).any fun e => s.flag (PORT.PRBS_CTRL_en e) && s.flag (PORT.PRBS_CTRL_chk e) &&
      !s.flag (PORT.PRBS_CTRL_mode e) && (s.get (PORT.PRBS_LANES_mask e)).testBit l

/-- The eye height of a receiving lane updates (R288). -/
def State.eyeUpdate (s : State) (l height : Nat) : State :=
  if s.receives l then (s.set (LANE.EYE_height l) height).set (LANE.EYE_valid l) 1 else s

/-! ## PRBS engines (R297, R298) -/

/-- Engine q may act on a mask of lanes in a mode. -/
def State.prbsLanesOk (s : State) (q : Nat) (fill : Bool) (mask : Nat) : Bool :=
  (List.range 16).all fun l => !mask.testBit l ||
    (if fill then s.portState q = 2 && s.portEn q && (s.portLanes q).contains l else (s.laneOwner l).isNone)


/-- The checker has come to now; in fill mode how many fill bits arrived since is for the far end to say (log 20), and none arrives while
the port is not Active. -/
def State.prbsNow (s : State) (q l : Nat) : State :=
  let x := s.prbsLane q l
  if s.flag (PORT.PRBS_CTRL_mode q) then
    (if (s.get (PORT.PRBS_STAT_sync q)).testBit l ∧ s.portUp q then
      let r := s.free
      r.2.setPrbs q l { x with bits := min (2 ^ 64 - 1) (x.bits + r.1.toNat), at_ := s.now }
    else s)
  else s.setPrbs q l { x with bits := s.prbsBits q l, at_ := s.now }

/-- The checkers of engine q come to now and lose synchronisation. -/
def State.prbsUnsync (s : State) (q : Nat) : State :=
  ((List.range 16).foldl (fun t l => if (t.get (PORT.PRBS_STAT_sync q)).testBit l then t.prbsNow q l else t) s).set (PORT.PRBS_STAT_sync q) 0

/-- Engine q stops: its checkers lose synchronisation, and an eye reading under raw check is no longer current. -/
def State.prbsStop (s : State) (q : Nat) : State :=
  let t := ((s.rawSettle.lineTo q).prbsUnsync q).set (PORT.PRBS_CTRL_en q) 0
  (List.range 16).foldl (fun t l => if s.receives l && !t.receives l then t.set (LANE.EYE_valid l) 0 else t) t

/-- Inverts one bit on every generating lane (R298): the next one of its sequence. -/
def State.prbsInject (s : State) (q : Nat) : State :=
  (List.range 16).foldl (fun t l =>
    if t.prbsGens false q l || t.prbsGens true q l then
      let x := t.prbsLane q l
      t.setPrbs q l { x with inj := x.gen :: x.inj }
    else t) s

/-- A write of `PRBS_CTRL` (R49, R297, R298). -/
def State.prbsCtrlWrite (s : State) (id : ReqId) (q : Nat) (v : Word) : State :=
  let a := PORT.PRBS_CTRL q
  let was := s.flag (PORT.PRBS_CTRL_en q)
  if was && !s.holds id (44 + q) then s.logErr (PORT.base q) 0x03 a
  else if bit v 0 && !s.prbsLanesOk q (bit v 3) (s.get (PORT.PRBS_LANES_mask q)) then s.logErr (PORT.base q) 0x43 a
  else
    let s := if was && !bit v 0 then s.prbsStop q else s.rawSettle.lineTo q
    let s := if bit v 5 then s else s.prbsUnsync q
    let t := s.wr a (BitVec.ofNat 32 (setBits (s.rd a).toNat 1 5 (bits v 1 5)))
    let t := t.enableIf (t.holds id (44 + q)) (PORT.PRBS_CTRL_en q) (bits v 0 1)
    let t := if !was && t.flag (PORT.PRBS_CTRL_en q) then
        { t.set (PORT.PRBS_STAT_sync q) 0 with prbsSt := t.prbsSt.set q (List.replicate 16 { PrbsLane.reset with genAt := t.now }) }
      else t
    let t := (List.range 16).foldl (fun (t : State) l => if s.receives l && !t.receives l then t.set (LANE.EYE_valid l) 0 else t) t
    if bit v 6 then t.prbsInject q else t

/-- A write of `PRBS_LANES` (R297). -/
def State.prbsLanesWrite (s : State) (id : ReqId) (q : Nat) (v : Word) : State :=
  if s.flag (PORT.PRBS_CTRL_en q) && !s.holds id (44 + q) then s.logErr (PORT.base q) 0x03 (PORT.PRBS_LANES q)
  else if s.prbsLanesOk q (s.flag (PORT.PRBS_CTRL_mode q)) (bits v 0 16) then
    let t := (s.rawSettle.lineTo q).set (PORT.PRBS_LANES_mask q) (bits v 0 16)
    let t := (List.range 16).foldl (fun (t : State) l => if (s.get (PORT.PRBS_LANES_mask q)).testBit l then t
      else t.setPrbs q l { t.prbsLane q l with genAt := t.now }) t
    let t := t.set (PORT.PRBS_STAT_sync q) (t.get (PORT.PRBS_STAT_sync q) &&& bits v 0 16)
    (List.range 16).foldl (fun (t : State) l => if s.receives l && !t.receives l then t.set (LANE.EYE_valid l) 0 else t) t
  else s.logErr (PORT.base q) 0x43 (PORT.PRBS_LANES q)

/-- The engine that checks lane l; fill is checked only while its port is Active (R297). -/
def State.prbsChecker (s : State) (l : Nat) : Option Nat :=
  (List.range 4).find? fun q => s.flag (PORT.PRBS_CTRL_en q) && s.flag (PORT.PRBS_CTRL_chk q) &&
    (s.get (PORT.PRBS_LANES_mask q)).testBit l && (!s.flag (PORT.PRBS_CTRL_mode q) || s.portUp q)

/-- The checker of a lane synchronises (R298). -/
def State.prbsSync (s : State) (l : Nat) : State :=
  match s.prbsChecker l with
  | some q =>
    let m := s.get (PORT.PRBS_STAT_sync q)
    if m.testBit l then s
    else (s.set (PORT.PRBS_STAT_sync q) (m ||| 2 ^ l)).setPrbs q l { s.prbsLane q l with bits := 0, at_ := s.now, marks := [] }
  | none => s

/-- A bit error on a synchronised lane (R298): event bit 6; with 32 in 1,024 bits the lane loses synchronisation. -/
def State.prbsError (s : State) (l : Nat) : State :=
  match s.prbsChecker l with
  | some q =>
    let m := s.get (PORT.PRBS_STAT_sync q)
    if m.testBit l then
      let t := s.prbsNow q l
      let x := t.prbsLane q l
      let marks := (x.bits :: x.marks).take 32
      let t := (t.setPrbs q l { x with err := min 0xFFFFFFFF (x.err + 1), marks := marks }).raise (PORT.base q) 6
      if marks.length = 32 ∧ x.bits < marks.getD 31 0 + 1024 then t.set (PORT.PRBS_STAT_sync q) (m - 2 ^ l) else t
    else s
  | none => s

/-! ## Commands -/

/-- A write of `PORT q .BLK_CTRL`: enable and the wake permit (R42, R278). -/
def State.portBlkCtrl (s : State) (q : Nat) (v : Word) : State :=
  (s.set (HDR.BLK_CTRL_wake_ok (PORT.base q)) (bits v 2 1)).portEnable q (bit v 0)

/-- Meaning of TRAINING_COMPLETE. -/
def execTrainingComplete (q : Fin 4) (order : List (Fin 16)) (farQ : Fin 4) (s : State) : Host.Outcome State Fault Refusal :=
  .next (s.trained q (order.map (·.val)) farQ)

/-- Meaning of TRAINING_TIMEOUT. -/
def execTrainingTimeout (q : Fin 4) (s : State) : Host.Outcome State Fault Refusal := .next (s.trainTimeout q)

/-- Meaning of TRAINING_SEQUENCE_RECEIVED. -/
def execTrainingSequenceReceived (q : Fin 4) (s : State) : Host.Outcome State Fault Refusal := .next (s.trainSeq q)

/-- Meaning of PORT_RETRAIN: a write of `CTRL`. -/
def execPortRetrain (id : ReqId) (q : Fin 4) (data : Word) (s : State) : Host.Outcome State Fault Refusal :=
  .next (s.writeCmd id (PORT.CTRL q) data (·.portCtrl q data))

/-- Meaning of PORT_QUIET: a write of `CTRL`. -/
def execPortQuiet (id : ReqId) (q : Fin 4) (data : Word) (s : State) : Host.Outcome State Fault Refusal :=
  .next (s.writeCmd id (PORT.CTRL q) data (·.portCtrl q data))

/-- Meaning of QUIET_NOTICE_RECEIVED. -/
def execQuietNoticeReceived (q : Fin 4) (s : State) : Host.Outcome State Fault Refusal := .next (s.portQuiet q)

/-- Meaning of PORT_ACTIVE: a write of `CTRL`. -/
def execPortActive (id : ReqId) (q : Fin 4) (data : Word) (s : State) : Host.Outcome State Fault Refusal :=
  .next (s.writeCmd id (PORT.CTRL q) data (·.portCtrl q data))

/-- Meaning of PORT_TIMED: a write of `CTRL`. -/
def execPortTimed (id : ReqId) (q : Fin 4) (data : Word) (s : State) : Host.Outcome State Fault Refusal :=
  .next (s.writeCmd id (PORT.CTRL q) data (·.portCtrl q data))

/-- Meaning of PORT_TIMED_EXIT. -/
def execPortTimedExit (q : Fin 4) (s : State) : Host.Outcome State Fault Refusal := .next (s.timedExit q)

/-- Meaning of PORT_DEEP: a write of `CTRL`. -/
def execPortDeep (id : ReqId) (q : Fin 4) (data : Word) (s : State) : Host.Outcome State Fault Refusal :=
  .next (s.writeCmd id (PORT.CTRL q) data (·.portCtrl q data))

/-- Meaning of LANE_FAULT. -/
def execLaneFault (l : Fin 16) (cause : BitVec 3) (s : State) : Host.Outcome State Fault Refusal := .next (s.laneFault l cause.toNat)

/-- Meaning of CODE_VIOLATION_IN_IDLE. -/
def execCodeViolationInIdle (l : Fin 16) (rd : Bool) (g : CodeGroup) (s : State) : Host.Outcome State Fault Refusal :=
  .next (s.groupIn l rd g.bits.toNat g.bnd.val)

/-- Meaning of EYE_UPDATE. -/
def execEyeUpdate (l : Fin 16) (height : BitVec 10) (s : State) : Host.Outcome State Fault Refusal := .next (s.eyeUpdate l height.toNat)

/-- Meaning of PRBS_ENABLE: a write of `PRBS_CTRL`. -/
def execPrbsEnable (id : ReqId) (q : Fin 4) (data : Word) (s : State) : Host.Outcome State Fault Refusal :=
  .next (s.writeCmd id (PORT.PRBS_CTRL q) data (·.prbsCtrlWrite id q data))

/-- Meaning of PRBS_INJECT: a write of `PRBS_CTRL`. -/
def execPrbsInject (id : ReqId) (q : Fin 4) (data : Word) (s : State) : Host.Outcome State Fault Refusal :=
  .next (s.writeCmd id (PORT.PRBS_CTRL q) data (·.prbsCtrlWrite id q data))

/-- Meaning of PRBS_SYNC_ACQUIRED. -/
def execPrbsSyncAcquired (l : Fin 16) (s : State) : Host.Outcome State Fault Refusal := .next (s.prbsSync l)

/-- Meaning of PRBS_BIT_ERROR. -/
def execPrbsBitError (l : Fin 16) (s : State) : Host.Outcome State Fault Refusal := .next (s.prbsError l)

end Sys2Proof.Machine
end

