-- ==== Sys2Proof/Machine/Link.lean ====
section
/-!
DEFINITION. The Punor link: packet headers and formats (R301 to R303, R310 to R312), staging (R318, R319), egress (R135, R313, R314,
R316, R320 to R322) and combining in a cascade (R339 to R342).
-/
namespace Sys2Proof.Machine

/-! ## Bits and bytes -/

/-- A number as n bytes, most significant first. -/
def beBytes (n v : Nat) : List Byte := (List.range n).map fun i => BitVec.ofNat 8 (v / 256 ^ (n - 1 - i))
/-- Bytes as a number, most significant first. -/
def beNat (l : List Byte) : Nat := l.foldl (fun a b => 256 * a + b.toNat) 0

/-- The fields of a packet header (R301). -/
structure Header where
  fid : Nat
  ty : Nat
  seq : Nat
  symtime : Nat
  hop : Nat
  fmt : Nat
  flags : Nat
  len : Nat
  deriving DecidableEq, Repr

/-- The header of a packet's first 16 bytes. -/
def headerOf (b : List Byte) : Header where
  fid := beNat (b.take 2) / 16
  ty := beNat (b.take 2) % 16
  seq := beNat ((b.drop 2).take 2)
  symtime := beNat ((b.drop 4).take 4)
  hop := beNat ((b.drop 8).take 1)
  fmt := beNat ((b.drop 9).take 1) / 16
  flags := beNat ((b.drop 9).take 2) % 4096
  len := beNat ((b.drop 12).take 2)

/-- Bytes 0 to 13 of a header. -/
def Header.bytes14 (h : Header) : List Byte :=
  beBytes 2 (16 * h.fid + h.ty) ++ beBytes 2 h.seq ++ beBytes 4 h.symtime ++ beBytes 1 h.hop ++
    beBytes 2 (4096 * h.fmt + h.flags) ++ [0] ++ beBytes 2 h.len

/-- A packet: header with its check, payload, trailing CRC (R301, R302). -/
def packet (h : Header) (payload : List Byte) : List Byte :=
  let a := h.bytes14
  let b := a ++ beBytes 2 (crc16 a).toNat ++ payload
  b ++ beBytes 4 (crc32c b).toNat

/-! ## Sample blocks (R310 to R312) -/

/-- Significand width and largest exponent of a block format. -/
def fmtM (fmt : Nat) : Nat := if fmt = 1 then 16 else if fmt = 4 then 9 else 12
/-- Largest exponent. -/
def fmtEmax (fmt : Nat) : Nat := if fmt = 3 then 4 else if fmt = 4 then 7 else 0
/-- Bits of the exponent field. -/
def fmtE (fmt : Nat) : Nat := if fmt = 3 then 5 else if fmt = 4 then 4 else 0

/-- The smallest exponent up to emax at which every part fits (R311). -/
def expFor (m emax : Nat) (xs : List Int) : Nat :=
  ((List.range emax).find? fun e => xs.all fun x => decide (-(2 ^ (m - 1 + e) : Int) ≤ x ∧ x ≤ 2 ^ (m - 1 + e) - 1)).getD emax

/-- Encodes the 24 parts of a block (R311). -/
def encBlock (fmt : Nat) (xs : List Int) : List Byte :=
  let m := fmtM fmt
  let e := if fmt = 3 ∨ fmt = 4 then expFor m (fmtEmax fmt) xs else if fmt = 2 then 4 else 0
  let v := xs.foldl (fun a x => a * 2 ^ m + unsigned (sat (rhe x (2 ^ e)) m) m) (if fmt = 3 ∨ fmt = 4 then e else 0)
  let tail := if fmt = 3 then 3 else if fmt = 4 then 4 else 0
  beBytes (if fmt = 1 then 48 else if fmt = 2 then 36 else if fmt = 3 then 37 else 28) (v * 2 ^ tail)

/-- Decodes a block: its 24 parts, all zero with the second component true where the exponent exceeds emax (R312, R339). -/
def decBlock (fmt : Nat) (b : List Byte) : List Int × Bool :=
  let m := fmtM fmt
  let tail := if fmt = 3 then 3 else if fmt = 4 then 4 else 0
  let v := beNat b / 2 ^ tail
  let e := if fmt = 3 ∨ fmt = 4 then v / 2 ^ (24 * m) % 2 ^ fmtE fmt else if fmt = 2 then 4 else 0
  if (fmt = 3 ∨ fmt = 4) ∧ fmtEmax fmt < e then (List.replicate 24 0, true)
  else ((List.range 24).map fun i => signed (v / 2 ^ ((23 - i) * m) % 2 ^ m) m * 2 ^ e, false)

/-- Twelve samples as parts and back. -/
def partsOf (l : List Cx) : List Int := l.flatMap fun c => [c.i, c.q]
/-- Parts as samples. -/
def samplesOf : List Int → List Cx
  | i :: q :: t => ⟨i, q⟩ :: samplesOf t
  | _ => []

/-- The payload of a sample packet (R312): samples per port, in blocks. -/
def encPayload (fmt blocks : Nat) (smp : List (List Cx)) : List Byte :=
  (List.range blocks).flatMap fun k => smp.flatMap fun p => encBlock fmt (partsOf ((p.drop (12 * k)).take 12))

/-- The samples per port of a payload, and how many blocks had an exponent beyond emax. -/
def decPayload (fmt blocks np bytes : Nat) (b : List Byte) : List (List Cx) × Nat :=
  let blk (k j : Nat) : List Int × Bool := decBlock fmt ((b.drop ((k * np + j) * bytes)).take bytes)
  ((List.range np).map fun j => (List.range blocks).flatMap fun k => samplesOf (blk k j).1,
   ((List.range blocks).flatMap fun k => (List.range np).map fun j => (blk k j).2).count true)

/-! ## Counts (R329) -/

/-- A count of the link on port q: event bit 7 where it advances, which a saturated count does not (R329). -/
def State.linkCount (s : State) (q : Nat) (f : Fld) : State :=
  let t := s.count f 1
  if t.get f = s.get f then t else t.raise (PORT.base q) 7

/-- A 64-bit packet count. -/
def State.pktCount64 (s : State) (q lo : Nat) : State :=
  if s.rd64 lo = 2 ^ 64 - 1 then s else (s.wr64 lo (s.rd64 lo + 1)).raise (PORT.base q) 7

/-! ## Symbols in the running schedule (R313) -/

/-- The list and start of the frame that holds a BT: the running frame, the one before it, whose late packets are still told from others
(R319), or a later one (R62, R71, R84); none before those or after a stop. -/
def State.frameAt (s : State) (bt : Nat) : Option (SchedList × Nat) :=
  let next (l : SchedList) : SchedList := s.timer.taken.getD (s.timer.pending.getD l)
  let past : Option (SchedList × Nat) := s.timer.past.filter fun p => decide (p.2 ≤ bt) && decide (bt < p.2 + p.1.bt)
  let from_ (l : SchedList) (frame base : Nat) : Option (SchedList × Nat) :=
    if bt < base then past
    else if bt < base + l.bt then some (l, base)
    else
      let n := next l
      let k := (bt - base - l.bt) / n.bt
      if s.timer.stopPending && decide (s.timer.stopFrame ≤ frame + k) then none else some (n, base + l.bt + k * n.bt)
  match s.timer.running, s.timer.cur, s.timer.fetched, s.timer.accepted with
  | some _, some e, _, _ => from_ e.list e.frame e.frameBt
  | some _, none, some e, _ => from_ e.list e.frame e.frameBt
  | none, _, _, some l => from_ l 0 (s.rd64 FTM.START_LO / 64)
  | _, _, _, _ => past

/-- Start and length of the entry that holds a BT, with its direction and slices. -/
def State.entryAt (s : State) (bt : Nat) : Option (Nat × Nat × Nat × BitVec 4) :=
  match s.frameAt bt with
  | none => none
  | some (l, base) =>
    let st (k : Nat) : Nat := base + s.entryStartField (l.base + k)
    match ((List.range l.count).filter fun k => decide (st k ≤ bt)).getLast? with
    | none => none
    | some k =>
      let w0 := s.word (schedAddr (l.base + k) 0)
      let w2 := s.word (schedAddr (l.base + k) 2)
      let fin := if k + 1 < l.count then st (k + 1) else base + l.bt
      some (st k, fin - st k, bits w0 24 2, BitVec.ofNat 4 (bits w2 16 4))

/-- The start of group g's symbol that a symbol time belongs to; tx: a downlink symbol. -/
def State.symbolAt (s : State) (tx : Bool) (g bt : Nat) : Option (Nat × Nat) :=
  match s.entryAt bt with
  | none => none
  | some (st, d, dir, sl) =>
    let dir := if dir = 3 ∧ !s.flag BF.MODE_fdd then 1 else dir
    let on := (if tx then dir = 1 ∨ dir = 3 else dir = 2 ∨ dir = 3)
    if on ∧ sl.getLsbD (s.sliceOf g) then some (st, d) else none

/-- A 32-bit symbol time as the BT nearest to now (R301). -/
def State.fullBt (s : State) (sym : Nat) : Nat :=
  let d := signed ((sym + 2 ^ 32 - s.bt % 2 ^ 32) % 2 ^ 32) 32
  ((s.bt : Int) + d).toNat

/-- The packet's symbol time is one of those of R313. -/
def State.scheduled (s : State) (f : FlowCfg) (bt : Nat) : Bool :=
  match s.symbolAt (f.ty = 0) f.g bt with
  | none => false
  | some (st, d) =>
    let n := s.flowRate f
    (List.range (pktCount (symSamples d n) f.blocks)).any fun k => pktTime st k f.blocks n = bt

/-! ## Release instants of ingress packets (R318, R341) -/

/-- Instant of sample n of a symbol at rate code r in CT. -/
def sampleCt (start n r : Nat) : Nat := 64 * start + n * (256 / 2 ^ r)

/-- The last sample a packet carries, as a sample number. -/
def lastSample (k blocks samples : Nat) : Nat := min (samples - 1) (12 * blocks * (k + 1) - 1)

/-- Nanoseconds in CT, rounded up, of either sign. -/
def nsCtInt (ns : Int) : Int := -((-(ns * 786432)) / 100000)

/-- The beamformer output of a sample in CT after its instant (R134); 12.207 ns more in half-rate mode (R92). -/
def State.bfDelay (s : State) (g : Nat) (less : Int) : Int :=
  let i := s.sliceOf g
  nsCtInt ((rxNs (s.slicePreset false i) (s.sliceRate false i) : Int) - less) + (if s.flag CLK.PLL_CTRL_half then 96 else 0)

/-- h × H in CT. -/
def State.heightCt (s : State) : Nat := s.height * s.hopCt.getD 0

/-- The instant in CT at which an ingress sample packet is due: its release, or the combine instant of its position. -/
def State.dueCt (s : State) (f : FlowCfg) (bt : Nat) : Int :=
  if f.ty = 0 then 64 * (bt : Int) - s.txLatency f.g
  else
    let n := s.flowRate f
    let last := match s.symbolAt false f.g bt with
      | some (st, d) => min (12 * f.blocks - 1) (symSamples d n - 1 - (bt - st) * 2 ^ n / 4)
      | none => 12 * f.blocks - 1
    (sampleCt bt last n : Int) + s.bfDelay f.g 350 + s.heightCt

/-- The instant at or after which a packet of a symbol is late (R319, R341). -/
def State.lateCt (s : State) (f : FlowCfg) (bt : Nat) : Option Int :=
  if f.ty = 0 then (s.symbolAt true f.g bt).map fun x => 64 * (x.1 : Int) - s.txLatency f.g
  else some (s.dueCt f bt + 1)

/-- When a staged packet's samples have all been released (R318). -/
def State.stagedEnd (s : State) (x : Staged) : Int :=
  let f := s.flow x.idx
  let bt := s.fullBt x.symtime
  if x.combine then s.dueCt f bt
  else 64 * (bt : Int) - s.txLatency x.g + 12 * x.blocks * (256 / 2 ^ s.sliceRate true (s.sliceOf x.g))

/-- Slots of flow i in use: packets whose samples have not all been released. -/
def State.slotsUsed (s : State) (i : Nat) : Nat := (s.staged.filter fun x => x.idx = i && decide ((s.ct : Int) < s.stagedEnd x)).length

/-- The staged packet that names no symbol and whose release instant is the earliest (R319). -/
def State.unscheduled (s : State) : Option (Staged × Int) :=
  let l := s.staged.filterMap fun x =>
    let bt := s.fullBt x.symtime
    if s.scheduled (s.flow x.idx) bt then none else some (x, s.dueCt (s.flow x.idx) bt)
  l.foldl (fun (m : Option (Staged × Int)) y => match m with
    | some z => if y.2 < z.2 then some y else some z
    | none => some y) none

/-- An unscheduled packet is discarded at the release instant it would have had. -/
def State.unschedDiscard (s : State) : State :=
  match s.unscheduled with
  | none => s
  | some (x, t) =>
    let u := s.atCt t.toNat
    let q := ringPort u.reversedNow (u.flow x.idx).port
    { u.linkCount q (PORT.UNSCHED_COUNT_count q) with staged := u.staged.filter fun y => !(y.idx = x.idx && y.symtime = x.symtime) }

/-! ## Outgoing packets -/

/-- A packet that its port does not take (R294). -/
def State.quietDrop (s : State) (q : Nat) (p : OutPkt) : State := (s.count (PORT.QUIET_DROP_COUNT_count q) 1).flowCount p.idx 6 0

/-- A packet that is no sample packet joins the queue of its port, or is discarded where the port is not Active (R294, R316). -/
def State.pushOut (s : State) (q : Nat) (p : OutPkt) : State :=
  if s.portUp q then { s with link := { s.link with out := s.link.out.set q (s.link.out.getD q [] ++ [p]) } }
  else s.quietDrop q p

/-- A rate gate releases on even ticks in half-rate mode (R92): the first such instant at or after one in CT. -/
def State.gateCt (s : State) (ct : Nat) : Nat := if s.flag CLK.PLL_CTRL_half then (ct + 1) / 2 * 2 else ct

/-- The free column at which a packet starts whose first header bit is to leave no earlier than an instant, before any wait: its header is
in the free column after it. -/
def State.slotAt (s : State) (q at_ : Nat) : Nat := slotFrom (s.colFrom q at_) - 1

/-- The first free column at or after another from which a packet of n columns overlaps none that is on its way on port q. -/
def State.freeFrom (s : State) (q want n : Nat) : Nat :=
  ((s.pst q).flight.foldl (fun (a : Nat × Bool) f =>
    if a.2 then a else if a.1 + n ≤ f.slot then (a.1, true) else (max a.1 (f.slot + s.flyCols q f), false)) (want, false)).1

/-- Columns that a packet of n payload bytes takes whose start would be in a free column: where it starts, and the free column after it.
Sample packets keep their order, and so do packets of other kinds; between the two each takes the first gap that it fits (R316). -/
def State.slotSpan (s : State) (q : Nat) (sample : Bool) (want len : Nat) : Nat × Nat :=
  let n := s.columns q len
  let start := s.freeFrom q (max want (if sample then (s.pst q).slot else (s.pst q).other)) n
  (start, start + n)

/-- The bytes of a packet go to the lanes of port q from a free column on. -/
def State.launch (s : State) (q : Nat) (sample : Bool) (start : Nat) (idx : Option Nat) (bytes : List Byte) (cut : Bool) : State :=
  let t := s.lineTo q
  let f : Flying := ⟨idx, start, bytes, cut⟩
  let p := t.pst q
  let fin := start + t.flyCols q f
  let t := t.setPst q { p with
    slot := if sample then fin else p.slot
    other := if sample then p.other else fin
    flight := (p.flight.filter fun x => decide (x.slot < start)) ++ [f] ++ p.flight.filter fun x => decide (start ≤ x.slot) }
  { t with link := { t.link with sent := t.link.sent.set q bytes } }

/-- The instant at which the end column of port q's last packet that carries no samples has left, on the model's clock. -/
def State.endNow (s : State) (q : Nat) : Nat := s.now + (s.colCt q (slotColumn ((s.pst q).other - 1) + 1) - s.ct)

/-- An accepted link reset begins once the last response of its request has left (R327). -/
def State.resetAfter (s : State) (q : Nat) (p : OutPkt) : State :=
  match s.link.resetAt with
  | some (i, _) =>
    if p.idx = i ∧ !((s.link.out.getD q []).any fun x => x.idx = i) then
      { s with link := { s.link with resetAt := some (i, s.endNow q) } }
    else s
  | none => s

/-- A packet leaves port q from a free column on: header, sequence number and time of departure are filled in (R301, R320, R322). -/
def State.send (s : State) (q : Nat) (sample : Bool) (p : OutPkt) (start : Nat) : State :=
  let w := s.word (flowAddr p.idx 4)
  let seq := p.seq.getD (bits w 0 16)
  let payload := if p.ty = 4 then beBytes 8 (s.colCt q (slotColumn (start + 1))) else p.payload
  let time := s.colCt q (slotColumn start) / 64
  let h : Header := ⟨p.fid, p.ty, seq, p.symtime.getD time % 2 ^ 32, p.hop, p.fmt, p.flags, payload.length⟩
  let t := if p.seq.isSome then s else s.setWord (flowAddr p.idx 4) (BitVec.ofNat 32 ((seq + 1) % 65536))
  let t := t.pktCount64 q (PORT.TX_PKT_LO q)
  (t.launch q sample start (some p.idx) (packet h payload) false).resetAfter q p

/-- Where the header of a sample packet with a ready instant starts on port q, before any wait. -/
def State.sampleSlot (s : State) (q fmt ready : Nat) : Nat := s.slotAt q (s.gateCt (ready + s.egressCt q fmt))

/-- A sample packet's header leaves E after it is ready, or after the packet before it; `EGRESS_WAIT` keeps the largest wait, in columns
that a packet may take (R316; log 101). -/
def State.sendSample (s : State) (q : Nat) (p : OutPkt) : State :=
  if !s.portUp q then s.quietDrop q p
  else
    let want := s.sampleSlot q p.fmt p.ready
    let start := (s.slotSpan q true want p.payload.length).1
    (s.set (PORT.EGRESS_WAIT_cols q) (min 0xFFFF (max (start - want) (s.get (PORT.EGRESS_WAIT_cols q))))).send q true p start

/-! ## Uplink packets (R135, R313, R314) -/

/-- The uplink symbol of a group that an egress symbol carries. -/
def State.egRx (s : State) (g start : Nat) : Option RxSym := s.rx.syms.find? fun y => y.g = g && y.startBt = start

/-- Length of the symbol in BT. -/
def State.egLen (s : State) (x : EgSym) : Nat :=
  match s.egRx x.cfg.g x.startBt with
  | some y => (match y.endBt, s.timer.cur with
    | some b, _ => b - x.startBt
    | none, some e => s.entryEnd e - x.startBt
    | none, none => 0)
  | none => 0

/-- Samples of the symbol per port. -/
def State.egSamples (s : State) (x : EgSym) : Nat := symSamples (s.egLen x) (s.flowRate x.cfg)

/-- The ready instant of the symbol's next packet in CT (R135). -/
def State.egReady (s : State) (x : EgSym) : Int :=
  (sampleCt x.startBt (lastSample x.next x.cfg.blocks (s.egSamples x)) (s.flowRate x.cfg) : Int) + s.bfDelay x.cfg.g 0

/-- Sample n of port j of the flow: zero beyond the symbol (R313). -/
def State.egSmp (s : State) (x : EgSym) (samples j n : Nat) : Cx :=
  let b := beamPort x.cfg.g (x.cfg.v0 + j)
  match s.egRx b.1 x.startBt with
  | some y => if n < samples then s.beamSample y b.2 (sampleCt x.startBt n (s.flowRate x.cfg)) else Cx.zero
  | none => Cx.zero

/-- The beam-port samples of the next packet. -/
def State.egTake (s : State) (x : EgSym) : List (List Cx) :=
  let first := x.next * x.cfg.samples
  (List.range x.cfg.np).map fun j => (List.range x.cfg.samples).map fun n => s.egSmp x (s.egSamples x) j (first + n)

/-- Flag bits 9 and 10 (R314). -/
def State.egFlags (s : State) (x : EgSym) : Nat :=
  (if x.next = 0 then 512 else 0) + (if x.next + 1 = pktCount (s.egSamples x) x.cfg.blocks then 1024 else 0)

/-- The status bits of the symbol for the samples of the next packet; a row substituted for a port of the group joined to it shows too
(R169). -/
def State.egStatus (s : State) (x : EgSym) : Nat :=
  let far : Bool := decide (64 < x.cfg.v0 + x.cfg.np) && (s.egRx (x.cfg.g + 2) x.startBt).any (·.fbRow)
  match s.egRx x.cfg.g x.startBt with
  | some y =>
    let samples := s.egSamples x
    let st := if x.next + 1 = pktCount samples x.cfg.blocks then y.status
      else y.statusTo (some (sampleCt x.startBt (lastSample x.next x.cfg.blocks samples) (s.flowRate x.cfg)))
    if far then st ||| 256 else st
  | none => 0

/-- Stores an egress symbol after its next packet; a finished symbol goes. -/
def State.egStep (s : State) (x : EgSym) (x' : EgSym) : State :=
  let more := decide (x.next + 1 < pktCount (s.egSamples x) x.cfg.blocks)
  { s with link := { s.link with
    prog := s.link.prog.flatMap fun y => if y.idx = x.idx ∧ y.startBt = x.startBt then (if more then [{ x' with next := x.next + 1 }] else []) else [y] } }

/-- The packet of an egress symbol with given samples. -/
def State.egPacket (s : State) (x : EgSym) (smp : List (List Cx)) (flags : Nat) (ready : Nat) : OutPkt where
  idx := x.idx
  fid := x.cfg.fid
  ty := x.cfg.ty
  seq := none
  symtime := some (pktTime x.startBt x.next x.cfg.blocks (s.flowRate x.cfg))
  hop := 0
  fmt := x.cfg.fmt
  flags := flags + s.egFlags x
  payload := encPayload x.cfg.fmt x.cfg.blocks smp
  ready := ready
  start := some x.startBt

/-- At an uplink entry start the enabled egress sample flows of its groups begin (R305, R316); a standby sends none (R348). -/
def State.egEntry (s : State) (e : Entry) : State :=
  let s := s.flowsLook
  if s.pair.hiz then s
  else
    let new := s.enabledFlows.filterMap fun i =>
      let f := s.flow i
      if f.isSample ∧ f.egress ∧ (s.egRx f.g e.startBt).isSome then some (⟨i, f, e.startBt, 0, 0, 0, none, 0⟩ : EgSym) else none
    let left (g : GateSym) : Bool :=
      s.link.prog.any (fun x => decide (x.startBt = g.startBt)) || s.link.sums.any fun (p : OutPkt) => decide (p.start = some g.startBt)
    { s with link := { s.link with prog := s.link.prog ++ new, gateSyms := s.link.gateSyms.filter left } }

/-- The earliest of some waiting packets: by ready instant, then by flow entry. -/
def earliest (l : List (Int × Nat)) : Option (Int × Nat) :=
  l.foldl (fun m x => match m with
    | some y => if x.1 < y.1 ∨ (x.1 = y.1 ∧ x.2 < y.2) then some x else some y
    | none => some x) none

/-- The next sample packet of port q: its ready instant and flow entry. -/
def State.nextSample (s : State) (q : Nat) : Option (Int × Nat) :=
  let made := s.link.sums.filterMap fun (p : OutPkt) =>
    if ringPort s.reversedNow (s.flow p.idx).port = q then some ((p.ready : Int), p.idx) else none
  let own := if s.role ≠ 0 then [] else (s.link.prog.filter fun x => ringPort s.reversedNow x.cfg.port = q).map fun (x : EgSym) => (s.egReady x, x.idx)
  earliest (made ++ own)

/-- The next sample packet of port q leaves. -/
def State.sampleOut (s : State) (q : Nat) (ready : Int) (i : Nat) : State :=
  let s := (s.atCt ready.toNat).flowLook i
  match s.link.sums.find? fun (p : OutPkt) => p.idx = i && (p.ready : Int) = ready with
  | some p => { s with link := { s.link with sums := s.link.sums.erase p } }.sendSample q p
  | none => (match s.link.prog.find? fun x => x.idx = i && s.egReady x = ready with
    | some x =>
      let p := s.egPacket x (s.egTake x) (s.egStatus x) ready.toNat
      (s.egStep x x).sendSample q p
    | none => s)

/-- The start of the first symbol of group g in an entry that starts at or after a BT, with the entry's length: the schedule is walked from
entry to entry, at most n of them. -/
def State.nextSymbol (s : State) (g bt : Nat) : Nat → Option (Nat × Nat)
  | 0 => none
  | n + 1 => (match s.entryAt bt with
    | none => none
    | some (st, d, _, _) => if (s.symbolAt false g bt).isSome ∧ bt ≤ st then some (st, d) else s.nextSymbol g (st + max d 1) n)

/-- The starts of the sample packets that port q is known to send (R316): of packets made at combine instants, of symbols in egress, and of
the first symbol to come of every enabled flow; a packet of 8,192 bytes spans less than 600 entries. -/
def State.sampleStarts (s : State) (q : Nat) : List Nat :=
  let here (f : FlowCfg) : Bool := ringPort s.reversedNow f.port = q
  let late : Nat := if s.role = 0 then 0 else s.heightCt
  let made := (s.link.sums.filter fun (p : OutPkt) => here (s.flow p.idx)).map fun (p : OutPkt) => s.sampleSlot q p.fmt p.ready
  let own := (s.link.prog.filter fun (x : EgSym) => here x.cfg).map fun (x : EgSym) => s.sampleSlot q x.cfg.fmt ((s.egReady x).toNat + late)
  let coming := if s.pair.hiz then [] else s.enabledFlows.filterMap fun i =>
    let f := s.flow i
    if f.isSample ∧ f.egress ∧ here f then
      (s.nextSymbol f.g (s.symStart + 1) 600).map fun x =>
        let y : EgSym := ⟨i, f, x.1, 0, 0, 0, none, 0⟩
        let last := lastSample 0 f.blocks (symSamples x.2 (s.flowRate f))
        s.sampleSlot q f.fmt (((sampleCt y.startBt last (s.flowRate f) : Int) + s.bfDelay f.g 0).toNat + late)
    else none
  (made ++ own ++ coming).map (max (s.pst q).slot)

/-- A packet of another type fits before every sample packet that port q is known to send (R316). -/
def State.fitsGap (s : State) (q len : Nat) : Bool :=
  let x := s.slotSpan q false (slotFrom (s.colFrom q s.ct)) len
  (s.sampleStarts q).all fun n => decide (x.2 ≤ n)

/-- The head of the other packets leaves, or is discarded where the port is no longer Active. -/
def State.otherOut (s : State) (q : Nat) (p : OutPkt) : State :=
  let t : State := { s with link := { s.link with out := s.link.out.set q ((s.link.out.getD q []).drop 1) } }
  if t.portUp q then t.send q false p (t.slotSpan q false (slotFrom (t.colFrom q t.ct)) p.payload.length).1 else t.quietDrop q p

/-- An egress packet of port q becomes ready and leaves (R316): a sample packet that is due comes first; another packet leaves where
it ends before the next sample packet starts, and waits for such a gap otherwise. -/
def State.egressReady (s : State) (q : Nat) : State :=
  let s := s.flowSettle
  let other := (s.link.out.getD q []).head?
  match s.nextSample q, other with
  | some (r, i), none => s.sampleOut q r i
  | some (r, i), some p => if (s.ct : Int) < r ∧ (s.fitsGap q p.payload.length ∨ !s.portUp q) then s.otherOut q p else s.sampleOut q r i
  | none, some p => if s.fitsGap q p.payload.length ∨ !s.portUp q then s.otherOut q p else s
  | none, none => s

/-- At a frame start every TIME flow whose period is up makes a packet (R322; log 75). -/
def State.timePackets (s : State) (e : Entry) : State :=
  let s := s.flowsLook
  if e.pos ≠ 0 then s
  else s.enabledFlows.foldl (fun t i =>
    let f := t.flow i
    if f.ty = 4 ∧ f.egress ∧ e.frame % max 1 (f.arg % 256) = 0 then
      t.pushOut (ringPort t.reversedNow f.port) ⟨i, f.fid, 4, none, none, 0, 0, 0, List.replicate 8 0, t.ct, none⟩
    else t) s

/-! ## Combining (R339 to R342) -/

/-- The combine instant of the symbol's next packet in CT (R341). -/
def State.combineCt (s : State) (x : EgSym) : Int :=
  (sampleCt x.startBt (lastSample x.next x.cfg.blocks (s.egSamples x)) (s.flowRate x.cfg) : Int) + s.bfDelay x.cfg.g 350 + s.heightCt

/-- The partial sum of a down port for a packet position. -/
def State.partialSum (s : State) (x : EgSym) (q : Nat) : Option Staged :=
  let sym := pktTime x.startBt x.next x.cfg.blocks (s.flowRate x.cfg) % 2 ^ 32
  s.staged.find? fun p => p.combine && !p.smp.isEmpty && p.symtime = sym && p.g = x.cfg.g && ringPort s.reversedNow (s.flow p.idx).port = q

/-- The saturated exact sum of a sample over this device and the partial sums (R339), and whether it saturated. -/
def combineSmp (y : Cx) (xs : List Cx) : Cx × Bool :=
  let t := xs.foldl Cx.add y
  let o : Cx := ⟨sat t.i 16, sat t.q 16⟩
  (o, o != t)

/-- A staged word of the partial sum from a down port fails its check at a sample of the packet (R144, R421): counted once per symbol and
flow, and the symbol is invalid with cause 3 and zero from there (log 126). -/
def State.combineDetect (s : State) (x : EgSym) (q m : Nat) : State × EgSym :=
  let n := x.next * x.cfg.samples + m
  let t := if x.det.getLsbD q then s else (s.count MEM.DET_STAGE_COUNT_count 1).raise MEM.base 6
  let ct := sampleCt x.startBt n (t.flowRate x.cfg)
  (t.rxMark (fun y => (y.g = x.cfg.g || (t.joined x.cfg.g && y.g = x.cfg.g + 2)) && y.startBt = x.startBt) (·.fail 3 ct),
   { x with zero := some (min n (x.zero.getD n)), det := setBit x.det q true })

/-- The combine instant of group g's next packet (R339, R341, R342), whose pad samples are zero whatever comes in (R313); a word of one of its partial sums may be found upset (log 68). -/
def State.combineNow (s : State) (g : Nat) (upset : Option (Nat × Nat)) : State :=
  let xs := s.link.prog.filter fun x => x.cfg.g = g && s.role != 0
  match earliest (xs.map fun x => (s.combineCt x, x.idx)) with
  | none => s
  | some (t, i) =>
    match xs.find? fun x => x.idx = i && s.combineCt x = t with
    | none => s
    | some x =>
      let s := s.atCt t.toNat
      let ports := s.downPorts
      let hit : State × EgSym := match upset with
        | some (q, m) =>
          if ports.contains q ∧ (s.partialSum x q).isSome ∧ m < x.cfg.samples then s.combineDetect x q m else (s, x)
        | none => (s, x)
      let s := hit.1
      let x := hit.2
      let own := s.egTake x
      let got := ports.filterMap fun q => s.partialSum x q
      let missing := ports.filter fun q => (s.partialSum x q).isNone
      let rows := (List.range x.cfg.np).map fun j => (List.range x.cfg.samples).map fun n =>
        if decide (s.egSamples x ≤ x.next * x.cfg.samples + n) ||
            (match x.zero with | some z => decide (z ≤ x.next * x.cfg.samples + n) | none => false) then (Cx.zero, false)
        else combineSmp ((own.getD j []).getD n Cx.zero) (got.map fun p => (p.smp.getD (x.cfg.v0 + j - p.v0) []).getD n Cx.zero)
      let sats := (rows.map fun l => (l.filter (·.2)).length).foldl (· + ·) 0
      let cause := got.foldl (fun c p => addCause c (p.flags / 2 % 8)) x.cause
      let cause := if !missing.isEmpty ∨ got.any (·.above) then addCause cause 5 else cause
      let mine := s.egStatus x
      let all := addCause cause (mine / 2 % 8)
      let bitsIn := got.foldl (fun b p => b ||| p.flags % 512) x.bits ||| (if sats = 0 then 0 else 32)
      let flags := ((mine ||| bitsIn) &&& 0x1F0) + (if all = 0 then (mine ||| bitsIn) % 2 else 1 + 2 * all)
      let u := if x.next = 0 then s.set CAS.MISS_MAP_ports 0 else s
      let u := missing.foldl (fun u q =>
        ((u.set CAS.MISS_MAP_ports (u.get CAS.MISS_MAP_ports ||| 2 ^ q)).count (CAS.MISS_COUNT_count g) 1).raise CAS.base 1) u
      let u := if sats = 0 then u else (u.count (CAS.COMB_SAT_COUNT_count g) sats).raise CAS.base 2
      let ready := (s.egReady x).toNat + s.heightCt
      let p := u.egPacket x (rows.map fun l => l.map (·.1)) flags ready
      let u := u.egStep x { x with cause := cause, bits := bitsIn }
      { u with
        staged := u.staged.filter fun p => !got.contains p
        link := { u.link with sums := u.link.sums ++ [p] } }

/-- Partial sums whose combine instant is long over are gone (R318). -/
def State.combineOver (s : State) : State :=
  { s with staged := s.staged.filter fun x => !x.combine || decide ((s.ct : Int) < s.stagedEnd x + 1048576) }

/-! ## Orientation and down ports at frame starts (R345) -/

/-- A waiting `DOWN_EN` value takes effect. -/
def State.casDown (s : State) : State :=
  match s.link.downNext with
  | some v => ({ (s.set CAS.DOWN_EN_ports v).set CAS.DOWN_EN_pending 0 with link := { s.link with downNext := none } }).raise CAS.base 3
  | none => s

/-- A change of orientation takes effect at the first frame start at or after `ORIENT_T`. -/
def State.casOrient (s : State) (frameCt : Nat) : State :=
  if s.flag CAS.ORIENT_pending ∧ s.rd64 CAS.ORIENT_T_LO ≤ frameCt then
    ((s.set CAS.ORIENT_cur (s.get CAS.ORIENT_target)).set CAS.ORIENT_pending 0).raise CAS.base 3
  else s

/-- At a frame start. -/
def State.casEntry (s : State) (e : Entry) : State := if e.pos = 0 then s.casDown.casOrient (64 * e.frameBt) else s

/-- A write of `CAS.CFG` (R334). -/
def State.casCfgWrite (s : State) (v : Word) : State :=
  if s.anyLive false ∨ s.anyLive true then s.logErr CAS.base 0x40 CAS.CFG
  else if bits v 0 2 ≠ 0 ∧ s.flag PAR.CFG_en then s.logErr CAS.base 0x43 CAS.CFG
  else if bits v 2 2 = 3 then s.logErr CAS.base 0x42 CAS.CFG
  else s.wr CAS.CFG (v &&& 0xFF0FFF#32)

/-- A write of `DOWN_EN` (R345): from the next frame start, or at once with the timer stopped. -/
def State.downEnWrite (s : State) (v : Word) : State :=
  if bit v 0 then s.logErr CAS.base 0x42 CAS.DOWN_EN
  else
    let t : State := { s.set CAS.DOWN_EN_pending (bits v 0 4) with link := { s.link with downNext := some (bits v 0 4) } }
    if s.running then t else t.casDown

/-- A write of `ORIENT.target` (R345). -/
def State.orientWrite (s : State) (v : Word) : State :=
  let t := s.set CAS.ORIENT_target (bits v 0 1)
  t.setFlag CAS.ORIENT_pending (t.get CAS.ORIENT_target != t.get CAS.ORIENT_cur)

/-! ## Commands -/

/-- Meaning of PACKET_EGRESS_READY. -/
def execPacketEgressReady (q : Fin 4) (s : State) : Host.Outcome State Fault Refusal := .next (s.egressReady q)

/-- Meaning of COMBINE_INSTANT. -/
def execCombineInstant (g : Fin 4) (upset : Option (Fin 4 × Nat)) (s : State) : Host.Outcome State Fault Refusal :=
  .next (s.flowsLook.combineNow g (upset.map fun (u : Fin 4 × Nat) => (u.1.val, u.2)))

/-- Meaning of UNSCHEDULED_DISCARD. -/
def execUnscheduledDiscard (s : State) : Host.Outcome State Fault Refusal := .next s.unschedDiscard

end Sys2Proof.Machine
end

