-- ==== Sys2Proof/Machine/Scl.lean ====
section
/-!
DEFINITION. The Scaler (R240 to R248, R254): two converters with regular sequences, injected conversions, result FIFOs and
self-calibration. Instants of samples are in hundredths of a CT, since 250 ns is 1,966.08 CT.
-/
namespace Sys2Proof.Machine

/-- Converter x of the Scaler. -/
def State.sclCh (s : State) (x : Nat) : SclCh := s.scl.getD x SclCh.reset
/-- Stores it. -/
def State.setScl (s : State) (x : Nat) (c : SclCh) : State := { s with scl := s.scl.set x c }

/-- 250 ns. -/
def sclSample : Nat := 196608
/-- The start-up of 123 BT (R242). -/
def sclWake : Nat := 123 * 6400

/-- Converter x is enabled and the AUX domain on. -/
def State.sclOn (s : State) (x : Nat) : Bool := (s.get SCL.CTRL_en_aen_b).testBit x && s.on 26

/-- The earliest request of a queue: by due instant, then by trigger (R245). -/
def sclHead (q : List SclReq) : Option SclReq :=
  q.find? fun r => q.all fun o => decide (r.due < o.due) || (r.due = o.due && decide (r.n ≤ o.n))

/-- The sampling instant of channel ch where it would be t: a read-back tap settles for 2 µs (R488). -/
def State.sclTap (s : State) (x ch t : Nat) : Nat := if ch = 60 ∨ ch = 61 then max t (s.sclCh x).rbFrom else t

/-- The sampling instant of a conversion of channel ch that could start at t on a converter idle since its last conversion (R242). -/
def State.sclStart (s : State) (x ch t : Nat) : Nat :=
  s.sclTap x ch (if t = (s.sclCh x).idle ∨ (s.get SCL.CTRL_keep_akeep_b).testBit x then t else t + sclWake)

/-- An injected conversion begins; with the last one the queue is empty, and a sequence no longer waits for that (R245). -/
def State.sclInject (s : State) (x : Nat) (r : SclReq) (t : Nat) : State :=
  let c := s.sclCh x
  let b := s.sclStart x r.ch t
  let q := c.queue.filter (· ≠ r)
  s.setScl x { c with queue := q, waits := c.waits && !q.isEmpty, conv := some ⟨some r, 0, 0, b, b⟩ }

/-- A sample of the regular sequence may run from t: it ends before the earliest due instant (R245). -/
def State.sclFits (s : State) (x t : Nat) : Bool :=
  match sclHead (s.sclCh x).queue with
  | some r => decide (t + sclSample < r.due * 6400)
  | none => true

/-- AUX has acknowledged a prepare and pauses its regular sequences (R441). -/
def State.auxPaused (s : State) : Bool :=
  match s.pwr.hand with
  | some h => decide (2 ≤ h.target) && !h.todo.contains .aux
  | none => false

/-- The regular entry begins at t, from its first sample, where it may: no calibration or pause, no wait for an empty queue, and its
first sample ends before the earliest due instant; otherwise the sequence waits until the queue is empty (R245, R248). -/
def State.sclRegular (s : State) (x t : Nat) : State :=
  let c := s.sclCh x
  let b := s.sclStart x (s.get (SCL.SEQ_ch (32 * x + c.pos.getD 0))) t
  if c.pos.isNone ∨ c.cal ≠ 0 ∨ s.auxPaused ∨ c.waits then s
  else if s.sclFits x b then s.setScl x { c with conv := some ⟨none, 0, 0, b, b⟩ }
  else s.setScl x { c with waits := true }

/-- What follows at t when no conversion runs (R245, R248): a request that is due, else the regular entry. -/
def State.sclNext (s : State) (x t : Nat) : State :=
  let c := s.sclCh x
  if c.conv.isSome ∨ c.cal = 2 ∨ !s.sclOn x then s
  else match sclHead c.queue with
  | some r => if r.due * 6400 ≤ t then s.sclInject x r t else s.sclRegular x t
  | none => s.sclRegular x t

/-- The present instant in hundredths of a CT. -/
def State.ct100 (s : State) : Nat := 100 * s.ct

/-- The device time reaches an instant in hundredths of a CT. -/
def State.at100 (s : State) (t : Nat) : State := s.atCt ((t + 99) / 100)

/-- Start of the next pass in hundredths of a CT (R243): the first at once; a repeated one at the AUX tick `period` ticks after the tick
at or before the start of the pass before (log 105), or at that pass's end where this is later. -/
def State.sclPassStart (s : State) (x : Nat) : Nat :=
  let c := s.sclCh x
  if c.passT = 0 then s.ct100 else max (100 * auxTickCt (auxTickBy (c.passT - 1) + s.get (SCL.SEQ_CFG_period x))) c.idle

/-- A pass of the regular sequence starts (R243): at run, or with repeat when its period has expired. -/
def State.sclPass (s : State) (x : Nat) : State :=
  let c := s.sclCh x
  if !s.sclOn x ∨ !s.flag (SCL.SEQ_CFG_run x) ∨ s.get (SCL.SEQ_CFG_len x) = 0 ∨ c.pos.isSome then s
  else if c.passT ≠ 0 ∧ !s.flag (SCL.SEQ_CFG_repeat x) then s
  else
    let b := s.sclPassStart x
    let c' : SclCh := { c with passT := b / 100 + 1, pos := some 0, waits := false,
                               pass := if c.passT = 0 then 0 else (c.pass + 1) % 256 }
    ((s.at100 b).setScl x c').sclNext x (max b c.idle)

/-- A word enters the FIFO of converter x; a full FIFO loses it (R246). -/
def State.sclPush (s : State) (x : Nat) (w : Word) : State :=
  let c := s.sclCh x
  if c.fifo.length < 64 then s.setScl x { c with fifo := c.fifo ++ [w] }
  else (s.count SCL.RES_LOST_COUNT_count 1).raise SCL.base 5

/-- A raw code corrected (R241). -/
def State.sclCorrect (s : State) (x range : Nat) (code : Int) : Nat :=
  let o := signed (s.get (SCL.CAL_OFS_o (2 * x + range))) 16
  let g : Int := (s.get (SCL.CAL_GAIN_g (2 * x + range)) : Int)
  (max 0 (min 0xFFFF (rhe ((code - o) * g) (2 ^ 14)))).toNat

/-- The channel of a conversion in progress, its range, number of samples and tag. -/
def State.sclWhat (s : State) (x : Nat) (c : SclCh) (v : SclConv) : Nat × Nat × Nat × Nat :=
  match v.inj with
  | some r => (r.ch, r.range, r.avg, r.tag)
  | none =>
    let k := 32 * x + c.pos.getD 0
    (s.get (SCL.SEQ_ch k), s.get (SCL.SEQ_range k), s.get (SCL.SEQ_avg k) + 1, c.pass)

/-- A result goes to the FIFO and the snapshot (R246, R247). -/
def State.sclResult (s : State) (x ch value t0 tag : Nat) (inj : Bool) : State :=
  let w : Word := BitVec.ofNat 32 (value + 0x10000 * ch + 0x400000 * x + (if inj then 0x800000 else 0) + 0x1000000 * (tag % 256))
  let t := ((s.wr (SCL.SNAP_LO x) w).wr (SCL.SNAP_HI x) (BitVec.ofNat 32 (t0 / 6400))).sclPush x w
  let t : State := { t with thm := { t.thm with val := (t.thm.val.del ch).ins ch (value, t.thm.n) } }
  if inj then t.raise SCL.base 2 else t

/-- A channel without a level to convert reads 0: one that does not exist, a tap on no bias pin, and the current tap of a channel in
voltage mode (R240, R488). -/
def State.sclNone (s : State) (ch : Nat) : Bool :=
  let j := s.get SCL.RB_SEL_j
  decide (62 ≤ ch) || (decide (60 ≤ ch) && decide (96 ≤ j)) || (ch == 61 && s.get (BIA.CFG_mode j) == 0)

/-- A write of `RB_SEL` (R488): a sample of a tap that is still to come waits until the taps have settled. -/
def State.rbSelWrite (s : State) (v : Word) : State :=
  let t := s.set SCL.RB_SEL_j (bits v 0 7)
  let m := t.ct100 + 1572864
  (List.range 2).foldl (fun (t : State) x =>
    let c := t.sclCh x
    t.setScl x { c with
      rbFrom := m
      conv := c.conv.map fun (k : SclConv) =>
        let ch := (t.sclWhat x c k).1
        if (ch = 60 ∨ ch = 61) ∧ t.ct100 < k.t then { k with t := max k.t m, t0 := if k.got = 0 then max k.t m else k.t0 } else k }) t

/-- A conversion completes with its raw code (R241 to R247). -/
def State.sclDone (s : State) (x : Nat) (code : Int) : State :=
  let c := s.sclCh x
  match c.conv with
  | none => s
  | some v =>
    let t := v.t + sclSample
    let s := s.at100 t
    let (ch, range, n, tag) := s.sclWhat x c v
    let sum := v.sum + (if s.sclNone ch then 0 else s.sclCorrect x range code)
    let next := s.sclTap x ch t
    let c := { c with idle := t }
    if v.got + 1 < n then
      (if v.inj.isSome ∨ s.sclFits x next then s.setScl x { c with conv := some { v with got := v.got + 1, sum := sum, t := next } }
       else (s.setScl x { c with conv := none, waits := true }).sclNext x t)
    else
      let s := (s.setScl x { c with conv := none }).sclResult x ch (rhe sum n).toNat v.t0 tag v.inj.isSome
      let s := if v.inj.isSome then s
        else
          let c := s.sclCh x
          let p := c.pos.getD 0 + 1
          if p < s.get (SCL.SEQ_CFG_len x) then s.setScl x { c with pos := some p }
          else (s.setScl x { c with pos := none }).raise SCL.base 1
      s.sclNext x t

/-- An injected request reaches its due instant (R245). -/
def State.sclDue (s : State) (x : Nat) : State :=
  let c := s.sclCh x
  match sclHead c.queue with
  | some r =>
    if c.conv.isSome ∨ c.cal = 2 ∨ !s.sclOn x then s
    else
      let t := s.atBt (r.due : Nat)
      t.sclInject x r (max (r.due * 6400) c.idle)
  | none => s

/-- A missed trigger of converter x. -/
def State.sclMissed (s : State) (x : Nat) : State :=
  (s.count (if x = 0 then SCL.MISSED_COUNT_a else SCL.MISSED_COUNT_b) 1).raise SCL.base 3

/-- A sample of the regular sequence that has not begun gives way where it would no longer end before the earliest due instant (R245). -/
def State.sclYield (s : State) (x : Nat) : State :=
  let c := s.sclCh x
  match c.conv with
  | some v => if v.inj.isNone ∧ s.ct100 < v.t ∧ !s.sclFits x v.t then
      (s.setScl x { c with conv := none, waits := true }).sclNext x s.ct100
    else s
  | none => s

/-- A rising edge of event line e (R244, R248; log 69): enabled triggers place their requests, and the regular sequences give way. -/
def State.sclEdge (s : State) (e : Nat) : State :=
  let t := (List.range 16).foldl (fun t k =>
    let x := k / 8
    if !t.flag (SCL.INJ_en k) || t.get (SCL.INJ_line k) != e || !t.sclOn x then t
    else
      let c := t.sclCh x
      if c.cal = 2 ∨ 8 ≤ c.queue.length then t.sclMissed x
      else t.setScl x { c with queue := c.queue ++ [⟨k % 8, t.bt + t.get (SCL.INJ_DLY_delay k), t.get (SCL.INJ_ch k),
        t.get (SCL.INJ_range k), t.get (SCL.INJ_avg k) + 1, t.get (SCL.INJ_tag k)⟩] }) s
  (t.sclYield 0).sclYield 1

/-- Converter x stops: nothing runs or waits, its sequence no longer runs. -/
def State.sclStop (s : State) (x : Nat) : State :=
  let c := s.sclCh x
  (s.setScl x { c with queue := [], conv := none, pos := none, waits := false, passT := 0 }).set (SCL.SEQ_CFG_run x) 0

/-- One bit of a merged field of `SCL.CTRL`. -/
def State.setSclBit (s : State) (f : Fld) (x : Nat) (b : Bool) : State :=
  s.set f ((s.get f) - (s.get f) / 2 ^ x % 2 * 2 ^ x + (if b then 2 ^ x else 0))

/-- Converter x takes nothing from a write of `SCL.CTRL` (R49): it runs and the writer does not hold it. -/
def State.sclForeign (s : State) (id : ReqId) (x : Nat) : Bool := (s.get SCL.CTRL_en_aen_b).testBit x && !s.holds id (40 + x)

/-- The enable and keep bits of converter x from a write of `SCL.CTRL` (R240, R242): without the claim the enable reads back 0. -/
def State.sclEnable (s : State) (id : ReqId) (v : Word) (x : Nat) : State :=
  let t := s.setSclBit SCL.CTRL_keep_akeep_b x (bit v (2 + x))
  if bit v x then t.setSclBit SCL.CTRL_en_aen_b x (t.holds id (40 + x))
  else if (t.get SCL.CTRL_en_aen_b).testBit x then (t.setSclBit SCL.CTRL_en_aen_b x false).sclStop x else t

/-- A calibration request for converter x (R248). -/
def State.sclCalAsk (s : State) (id : ReqId) (v : Word) (x : Nat) : State :=
  if !bit v (4 + x) ∨ !s.holds id (40 + x) then s
  else if (s.sclCh x).cal ≠ 0 then s.logErr SCL.base 0x41 SCL.CTRL
  else (s.setScl x { s.sclCh x with cal := 1 }).setSclBit SCL.CTRL_cal_busy x true

/-- The write would act on converter x without its claim (R49): its enable or a calibration; while it runs a change of its bits, or any
write of a requester that holds neither converter. -/
def State.sclUnclaimed (s : State) (id : ReqId) (v : Word) (x : Nat) : Bool :=
  !s.holds id (40 + x) && (bit v (4 + x) || (if (s.get SCL.CTRL_en_aen_b).testBit x then
    !bit v x || bit v (2 + x) != (s.get SCL.CTRL_keep_akeep_b).testBit x || !s.holds id (41 - x) else bit v x))

/-- A write of `SCL.CTRL` (R49, R240, R248); it logs 0x03 at most once (log 105). -/
def State.sclCtrlWrite (s : State) (id : ReqId) (v : Word) : State :=
  let t := [0, 1].foldl (fun t x => if s.sclForeign id x then t else (t.sclEnable id v x).sclCalAsk id v x) s
  if s.sclUnclaimed id v 0 ∨ s.sclUnclaimed id v 1 then t.logErr SCL.base 0x03 SCL.CTRL else t

/-- A pending calibration starts (R248): once the queue is empty and no conversion runs. -/
def State.sclCalStart (s : State) (x : Nat) : State :=
  let c := s.sclCh x
  if c.cal = 1 ∧ c.queue.isEmpty ∧ c.conv.isNone then
    let b := max s.ct100 c.idle
    (s.at100 b).setScl x { c with cal := 2, calEnd := b + 1887436800 }
  else s

/-- A calibration ends with the factors of its two ranges (R248). -/
def State.sclCalDone (s : State) (x : Nat) (r0 r1 : Word × Word) : State :=
  let c := s.sclCh x
  if c.cal ≠ 2 then s
  else
    let t := s.at100 c.calEnd
    let put (t : State) (r : Nat) (v : Word × Word) : State :=
      (t.set (SCL.CAL_OFS_o (2 * x + r)) (bits v.1 0 16)).set (SCL.CAL_GAIN_g (2 * x + r)) (bits v.2 0 16)
    let t := put (put t 0 r0) 1 r1
    let t := ((t.setScl x { c with cal := 0 }).setSclBit SCL.CTRL_cal_busy x false).raise SCL.base 4
    t.sclNext x c.calEnd

/-- A write of `SEQ_CFG_X` (R243). -/
def State.seqCfgWrite (s : State) (x : Nat) (v : Word) : State :=
  if s.flag (SCL.SEQ_CFG_run x) then s.logErr SCL.base 0x40 (SCL.SEQ_CFG x)
  else if bits v 0 6 > 32 then s.logErr SCL.base 0x06 (SCL.SEQ_CFG x)
  else
    let t := s.wr (SCL.SEQ_CFG x) (v &&& 0xFFFF033F#32)
    t.setScl x { t.sclCh x with pass := 0, passT := 0, pos := none }

/-- A range bit on an internal channel (R254). -/
def rangeBad (ch range : Nat) : Bool := decide (48 ≤ ch) && range != 0

/-- A write of `SEQ_X_n` (R243, R254). -/
def State.seqWrite (s : State) (k : Nat) (v : Word) : State :=
  if s.flag (SCL.SEQ_CFG_run (k / 32)) then s.logErr SCL.base 0x40 (SCL.SEQ k)
  else if rangeBad (bits v 0 6) (bits v 6 1) then s.logErr SCL.base 0x42 (SCL.SEQ k)
  else s.wr (SCL.SEQ k) (v &&& 0xFF7F#32)

/-- A write to an enabled trigger has no effect (R49, R244): 0x03 where the writer does not hold its line and its converter, else 0x43. -/
def State.injBusy (s : State) (id : ReqId) (k a : Nat) : State :=
  s.logErr SCL.base (if s.holds id (s.get (SCL.INJ_line k)) && s.holds id (40 + k / 8) then 0x43 else 0x03) a

/-- A write of `INJ_X_n` (R49, R244, R254). -/
def State.injWrite (s : State) (id : ReqId) (k : Nat) (v : Word) : State :=
  let ok := s.holds id (bits v 4 4) && s.holds id (40 + k / 8)
  if s.flag (SCL.INJ_en k) then s.injBusy id k (SCL.INJ k)
  else if rangeBad (bits v 8 6) (bits v 14 1) then s.logErr SCL.base 0x42 (SCL.INJ k)
  else (s.wr (SCL.INJ k) (v &&& 0xFFFF7FF0#32)).enableIf ok (SCL.INJ_en k) (bits v 0 1)

/-- A write of `INJ_X_n_DLY` (R244). -/
def State.injDlyWrite (s : State) (id : ReqId) (k : Nat) (v : Word) : State :=
  if s.flag (SCL.INJ_en k) then s.injBusy id k (SCL.INJ_DLY k) else s.set (SCL.INJ_DLY_delay k) (bits v 0 16)

/-- A write of `RES_CFG_X` (R246): clearing the enable flushes the FIFO. -/
def State.resCfgWrite (s : State) (x : Nat) (v : Word) : State :=
  let t := s.wr (SCL.RES_CFG x) (v &&& 0x7#32)
  if bit v 0 then t
  else (t.setScl x { t.sclCh x with fifo := [] }).withdraw fun k _ => t.get (YCH.CFG_periph k) == x + 1

/-! ## Commands -/

/-- Meaning of SCALER_PASS_START. -/
def execScalerPassStart (x : Fin 2) (s : State) : Host.Outcome State Fault Refusal := .next (s.sclPass x)

/-- Meaning of SCALER_CONVERSION_DONE. -/
def execScalerConversionDone (x : Fin 2) (code : Int) (s : State) : Host.Outcome State Fault Refusal := .next (s.sclDone x code)

/-- Meaning of INJECTED_DUE. -/
def execInjectedDue (x : Fin 2) (s : State) : Host.Outcome State Fault Refusal := .next (s.sclDue x)

/-- Meaning of SCALER_CAL_REQUEST: a write of `SCL.CTRL`. -/
def execScalerCalRequest (id : ReqId) (data : Word) (s : State) : Host.Outcome State Fault Refusal :=
  .next (s.writeCmd id SCL.CTRL data (·.sclCtrlWrite id data))

/-- Meaning of SCALER_CAL_START. -/
def execScalerCalStart (x : Fin 2) (s : State) : Host.Outcome State Fault Refusal := .next (s.sclCalStart x)

/-- Meaning of SCALER_CAL_DONE. -/
def execScalerCalDone (x : Fin 2) (r0 r1 : Word × Word) (s : State) : Host.Outcome State Fault Refusal := .next (s.sclCalDone x r0 r1)

end Sys2Proof.Machine
end

