-- ==== Sys2Proof/Machine/Stop.lean ====
section
/-!
DEFINITION. What follows when the frame timer stops, the changes of role of a pair (R347, R348, R353 to R355), and the release of
claims (R34, R49, R53).
-/
namespace Sys2Proof.Machine

/-! ## The timer stops (R25, R79, R84) -/

/-- The timer no longer runs: symbols and runs end, settings that waited for an entry start are in force (R520). -/
def State.afterStop (s : State) : State :=
  let t := (s.rxStopped.txSymEnd s.bt).runEnd s.ct
  t.bfStopped.slicesStopped.refreshEff.casDown.muteEntry

/-- An immediate stop (R79): the rest of the entry is a gap, so no gate releases a sample any more (R25). -/
def State.haltTimer (s : State) : State :=
  if s.running then
    let old := s.timer.cur
    let t := (s.capPre.immediateStop.gateStop old).afterStop
    { t.mapTxPaths fun (x : TxPath) => { x with active := false, gate := [], raw := [], dac := none } with
      link := { t.link with prog := [], sums := [] } }
  else s.immediateStop

/-! ## Roles of a pair (R347, R348, R354, R355) -/

/-- The role code of `PAR.STAT`. -/
def State.pairRole (s : State) : Nat := s.get PAR.STAT_role

/-- Mute and high impedance of the pair take new values. -/
def State.pairHold (s : State) (mute hiz : Bool) : State := ({ s with pair := { s.pair with mute := mute, hiz := hiz } }).pairTrip

/-- The device becomes standby: TKO low, muted, bias pins high impedance, no sample flow sends. -/
def State.toStandby (s : State) : State :=
  let t := (s.set PAR.STAT_role 1).set PAR.STAT_tko 0
  let t : State := { t with pair := { t.pair with take := .idle }, link := { t.link with prog := [], sums := [] } }
  t.pairHold true true

/-- A takeover aborts (R354). -/
def State.takeAbort (s : State) (cause : Nat) : State :=
  (((s.set PAR.STAT_abort cause).count PAR.COUNTS_abort 1).raise PAR.base 5).toStandby

/-- An active device loses mastership (R355). -/
def State.loseMaster (s : State) : State :=
  let t := s.raise PAR.base 6
  ({ t with pair := { t.pair with lost := true } }).toStandby

/-- The standby decides a takeover (R354, steps 1 and 2). -/
def State.takeDecide (s : State) : State :=
  let t := (s.set PAR.STAT_role 3).pairTrip
  if s.flag PAR.STAT_tki then { t with pair := { t.pair with peerRst := some t.now, take := .waitLow t.now } }
  else { t with pair := { t.pair with take := .guard t.now } }

/-- The instant since which the oldest dirty granule has been dirty. -/
def State.oldestDirty (s : State) : Option Nat :=
  s.pair.dirty.foldl (fun (m : Option Nat) e => match m with
    | some t => some (min t e.2)
    | none => some e.2) none

/-- No granule has stayed dirty for more than 1 ms. -/
def State.dirtyOk (s : State) : Bool :=
  match s.oldestDirty with
  | some t => decide (s.now ≤ t + usCt 1000)
  | none => true

/-- The two conditions of sync (R351). -/
def State.inSync (s : State) : Bool := s.flag PAR.STAT_init_done && s.dirtyOk

/-- Sync falls at an active device for which the conditions of R351 do not hold: event bit 1. -/
def State.syncFall (s : State) : State :=
  if s.pairRole = 2 ∧ s.flag PAR.STAT_sync ∧ !s.inSync then (s.set PAR.STAT_sync 0).raise PAR.base 1 else s

/-- Sync rises at an active device for which they hold: event bit 2. -/
def State.syncRise (s : State) : State :=
  if s.pairRole = 2 ∧ s.inSync ∧ !s.flag PAR.STAT_sync then (s.set PAR.STAT_sync 1).raise PAR.base 2 else s

/-- The mirror engine starts over with every granule (R351). -/
def State.passStart (s : State) : State :=
  let t : State := { s with pair := { s.pair with pass := some 0, passAt := s.now, unacked := [], passAck := [], recSent := none } }
  (t.set PAR.STAT_init_done 0).syncFall

/-- A write of `PAR.CFG` (R348, R357). A device that lost mastership by its own reset (R355) is a standby once it enables the pair, and
single once it writes en = 0 again (log 106). -/
def State.parCfgWrite (s : State) (v : Word) : State :=
  let en := s.flag PAR.CFG_en
  let m := 0xFFFFFF06#32
  if en ∧ (s.rd PAR.CFG &&& m) ≠ (v &&& m) then s.logErr PAR.base 0x40 PAR.CFG
  else if bits v 8 8 = 0 then s.logErr PAR.base 0x42 PAR.CFG
  else
    let t := s.wr PAR.CFG (v &&& 0xFFFFFF07#32)
    if bit v 0 = en then (if !en ∧ t.pair.lost then ({ t with pair := Pair.reset }).pairTrip else t)
    else if bit v 0 then
      let w := t.bt / 12288 * 12288
      let t : State := { t with pair := { Pair.reset with hbTx := w, hbWin := w } }
      ((t.wr PAR.STAT (t.rd PAR.STAT &&& 0x10#32)).passStart).toStandby
    else
      let t := t.wr PAR.STAT (t.rd PAR.STAT &&& 0x10#32)
      ({ t with pair := Pair.reset }).pairTrip

/-- A write of `PAR.CTRL` (R351, R354, R355). -/
def State.parCtrlWrite (s : State) (v : Word) : State :=
  let s := if bit v 0 then (if s.pairRole = 1 then s.takeDecide else s.logErr PAR.base 0x41 PAR.CTRL) else s
  let s := if bit v 1 && s.pairRole = 2 then s.loseMaster else s
  if bit v 2 && s.flag PAR.CFG_en then s.passStart else s

/-- A write of `MIR_CFG` (R357). -/
def State.mirCfgWrite (s : State) (v : Word) : State :=
  if s.flag PAR.CFG_en then s.logErr PAR.base 0x40 PAR.MIR_CFG else s.wr PAR.MIR_CFG (v &&& 0xF3FF03FF#32)

/-- A range of bytes lies in common SRAM or in one DMEM (R349). -/
def regionOk (base len : Nat) : Bool :=
  decide (0x10000000 ≤ base ∧ base + len ≤ 0x10400000) ||
    (decide (0x08000000 ≤ base ∧ base < 0x08800000) && decide (0x80000 ≤ base % 0x100000 ∧ base % 0x100000 + len ≤ 0xC0000))

/-- A write of `REG_BASE_i` or `REG_LEN_i` (R349). -/
def State.regionWrite (s : State) (i : Nat) (isBase : Bool) (v : Word) : State :=
  let a := if isBase then PAR.REG_BASE i else PAR.REG_LEN i
  let base := if isBase then 1024 * bits v 10 22 else 1024 * s.get (PAR.REG_BASE_base i)
  let kib := if isBase then s.get (PAR.REG_LEN_kib i) else bits v 0 12
  let total := ((List.range 8).map fun j => if j = i then kib else s.get (PAR.REG_LEN_kib j)).foldl (· + ·) 0
  if (isBase ∨ kib ≠ 0) ∧ !regionOk base (1024 * kib) then s.logErr PAR.base 0x42 a
  else if 2048 < total then s.logErr PAR.base 0x06 a
  else if isBase then s.set (PAR.REG_BASE_base i) (bits v 10 22) else s.set (PAR.REG_LEN_kib i) kib

/-- TKI falls; in a takeover the guard starts (R354, steps 3 and 4). -/
def State.tkiFall (s : State) : State :=
  let t := s.set PAR.STAT_tki 0
  match t.pair.take with
  | .waitLow _ => { t with pair := { t.pair with take := .guard t.now } }
  | _ => t

/-- TKI has not fallen within 100 µs. -/
def State.tkiTimeout (s : State) : State :=
  match s.pair.take with
  | .waitLow t => (s.atNow (t + usCt 100)).takeAbort 1
  | _ => s

/-- TKI rises: an active device loses mastership (R355); a takeover in its guard, or past it with the rank that yields, aborts. -/
def State.tkiRise (s : State) : State :=
  let t := s.set PAR.STAT_tki 1
  if !t.flag PAR.CFG_en then t
  else if t.pairRole = 2 then t.loseMaster
  else match t.pair.take with
  | .guard _ => t.takeAbort 2
  | .settle _ => if t.flag PAR.CFG_rank ∨ t.flag PAR.STAT_rank_err then t.takeAbort 2 else t
  | _ => t

/-- The settle time after TKO is over (R354, step 7). -/
def State.settleEnd (s : State) : State :=
  match s.pair.take with
  | .settle t =>
    let u := s.atNow (t + usCt (s.get PAR.CFG_settle))
    let u : State := { u with pair := { u.pair with take := .idle, lost := false } }
    ((((u.set PAR.STAT_role 2).count PAR.COUNTS_tko 1).raise PAR.base 4).pairHold false false).syncFall.syncRise
  | _ => s

/-- The pulse on PEER_RST_N ends after 10 µs. -/
def State.peerPulseEnd (s : State) : State :=
  match s.pair.peerRst with
  | some t => (let u := s.atNow (t + usCt 10); { u with pair := { u.pair with peerRst := none } })
  | none => s

/-- The end of a window of 12,288 BT without a heartbeat (R353; log 76). -/
def State.hbMissed (s : State) : State :=
  if !s.flag PAR.CFG_en then s
  else
    let fin := s.pair.hbWin + 12288
    let t := s.atBt (fin : Nat)
    let heard : Bool := match t.pair.hbRx with | some b => decide (s.pair.hbWin ≤ b) | none => false
    let t : State := { t with pair := { t.pair with hbWin := fin } }
    if heard then t
    else
      let was := t.get PAR.STAT_missed
      let t := (t.count PAR.STAT_missed 1).raise PAR.base 3
      if t.get PAR.STAT_missed = t.get PAR.CFG_miss ∧ was < t.get PAR.CFG_miss ∧ t.pairRole = 1 ∧ t.flag PAR.CFG_auto then t.takeDecide else t

/-! ## Releases of claims (R34, R49, R53) -/

/-- A feature stops for want of its claim: its enable clears and the page logs the code (R49). -/
def State.unclaimed (s : State) (f : Fld) (stop : State → State) : State :=
  if s.flag f then ((stop s).set f 0).logErr (pageBase f.addr) 0x03 f.addr else s

/-- The holder of claim n has lost it: the features that need it stop. -/
def State.claimLost (s : State) (n : Nat) : State :=
  if n < 16 then
    let t := s.unclaimed (FTM.EV_CFG_en n) (·.lineStop n)
    let t := if t.get RXC.GSTEP_CTRL_line = n then
        t.unclaimed RXC.GSTEP_CTRL_en fun u => { u with rx := { u.rx with gstep := none } } else t
    (List.range 16).foldl (fun t k => if t.get (SCL.INJ_line k) = n then t.unclaimed (SCL.INJ_en k) id else t) t
  else if n < 32 then s.set SYS.GPIO_DIR_out (s.get SYS.GPIO_DIR_out &&& (0xFFFF - 2 ^ (n - 16)))
  else if n < 40 then s.unclaimed (STD.OBS_CTRL_en (n - 32)) id
  else if n < 42 then
    let x := n - 40
    let t := if (s.get SCL.CTRL_en_aen_b).testBit x then ((s.setSclBit SCL.CTRL_en_aen_b x false).sclStop x).logErr SCL.base 0x03 SCL.CTRL else s
    (List.range 8).foldl (fun t k => t.unclaimed (SCL.INJ_en (8 * x + k)) id) t
  else if n = 42 then s.unclaimed LND.CAP_CTRL_en State.capStop
  else if n = 43 then s.unclaimed TXC.CAL_CTRL_en State.calStop
  else if n < 48 then s.unclaimed (PORT.PRBS_CTRL_en (n - 44)) (·.prbsStop (n - 44))
  else if n < 51 then s.unclaimed (FTM.FES_CFG_en (n - 48)) (·.fesStop (n - 48))
  else if n < 55 then
    let acts : Bool := (s.irqnWriter.getD (n - 51) 0).toNat = s.owner n && (s.irqnWriter.getD (n - 51) 0) != 0
    if acts then s.logErr DBG.base 0x03 (DBG.IRQN_SEL (4 * (n - 51))) else s
  else s

/-- A write of claim n by a requester (R48; log 33). -/
def State.claimWrite (s : State) (id : ReqId) (n : Nat) (v : Word) : State :=
  let o := s.owner n
  let w := bits v 0 8
  if n < 55 ∧ o = 0 ∧ w = id.toNat ∧ w ≠ 0 ∧ !(0x40 ≤ w ∧ w < 0x60) then (s.set (SYS.CLAIM_owner n) w).set (SYS.CLAIM_displaced n) 0
  else if n < 55 ∧ w = 0 ∧ o = id.toNat ∧ o ≠ 0 then
    ((s.claimLost n).set (SYS.CLAIM_owner n) 0).set (SYS.CLAIM_displaced n) 0
  else s.logErr SYS.base 0x02 (SYS.CLAIM n)

/-- Hardware safety takes claim n (R34). -/
def State.safetyTake (s : State) (n : Nat) : State :=
  let o := s.owner n
  if o = 0xFF then s
  else if o = 0 then s.set (SYS.CLAIM_owner n) 0xFF
  else
    let running : Bool := if n = 42 then s.flag LND.CAP_CTRL_en else if n = 43 then s.flag TXC.CAL_CTRL_en else true
    let t := s.claimLost n
    let t := if running then t else t.logErr (claimPage n) 0x03 (SYS.CLAIM n)
    (t.set (SYS.CLAIM_owner n) 0xFF).set (SYS.CLAIM_displaced n) 1

/-- The protective action has ended: the claim is free (R34). -/
def State.safetyFree (s : State) (n : Nat) : State := if s.owner n = 0xFF then s.set (SYS.CLAIM_owner n) 0 else s

/-- A write of `GPIO_DIR` or `GPIO_OUT` (R53). -/
def State.gpioWrite (s : State) (id : ReqId) (dir : Bool) (v : Word) : State :=
  let f := if dir then SYS.GPIO_DIR_out else SYS.GPIO_OUT_lvl
  let held := (List.range 16).foldl (fun m n => if s.holds id (16 + n) then m + 2 ^ n else m) 0
  let old := s.get f
  let want := bits v 0 16
  let t := s.set f ((old &&& (0xFFFF - held)) ||| (want &&& held))
  if (old ^^^ want) &&& (0xFFFF - held) = 0 then t else t.logErr SYS.base 0x03 f.addr

/-- Levels on the GPIO balls: driven outputs, and what the board drives elsewhere (R53). -/
def State.gpioIn (s : State) : Nat :=
  let d := s.get SYS.GPIO_DIR_out
  (s.get SYS.GPIO_OUT_lvl &&& d) ||| (s.gpioPins.toNat &&& (0xFFFF - d))

/-- The level on a GPIO ball changes (R53): event bit 1 where enabled. -/
def State.gpioChange (s : State) (n : Nat) (level : Bool) : State :=
  let old := s.gpioIn
  let t : State := { s with gpioPins := setBit s.gpioPins n level }
  if (old ^^^ t.gpioIn) &&& s.get SYS.GPIO_IRQ_en = 0 then t else t.raise SYS.base 1

/-! ## Commands -/

/-- Meaning of CLAIM_WRITE. -/
def execClaimWrite (id : ReqId) (n : Fin 64) (data : Word) (s : State) : Host.Outcome State Fault Refusal :=
  .next (s.writeCmd id (SYS.CLAIM n) data fun t =>
    let u := t.claimWrite id n data
    if (t.gpioIn ^^^ u.gpioIn) &&& t.get SYS.GPIO_IRQ_en = 0 then u else u.raise SYS.base 1)

/-- Meaning of GPIO_WRITE. -/
def execGpioWrite (id : ReqId) (dir : Bool) (data : Word) (s : State) : Host.Outcome State Fault Refusal :=
  .next (s.writeCmd id (if dir then SYS.GPIO_DIR else SYS.GPIO_OUT) data fun t =>
    let u := t.gpioWrite id dir data
    if (t.gpioIn ^^^ u.gpioIn) &&& t.get SYS.GPIO_IRQ_en = 0 then u else u.raise SYS.base 1)

/-- Meaning of GPIO_INPUT_CHANGE. -/
def execGpioInputChange (n : Fin 16) (level : Bool) (s : State) : Host.Outcome State Fault Refusal := .next (s.gpioChange n level)

/-- Meaning of PAIR_ENABLE: a write of `PAR.CFG`. -/
def execPairEnable (id : ReqId) (data : Word) (s : State) : Host.Outcome State Fault Refusal :=
  .next (s.writeCmd id PAR.CFG data (·.parCfgWrite data))

/-- Meaning of PAIR_RESYNC: a write of `PAR.CTRL`. -/
def execPairResync (id : ReqId) (data : Word) (s : State) : Host.Outcome State Fault Refusal :=
  .next (s.writeCmd id PAR.CTRL data (·.parCtrlWrite data))

/-- Meaning of PAIR_TAKE: a write of `PAR.CTRL`. -/
def execPairTake (id : ReqId) (data : Word) (s : State) : Host.Outcome State Fault Refusal :=
  .next (s.writeCmd id PAR.CTRL data (·.parCtrlWrite data))

/-- Meaning of PAIR_YIELD: a write of `PAR.CTRL`. -/
def execPairYield (id : ReqId) (data : Word) (s : State) : Host.Outcome State Fault Refusal :=
  .next (s.writeCmd id PAR.CTRL data (·.parCtrlWrite data))

/-- Meaning of TAKEOVER_TKI_LOW. -/
def execTakeoverTkiLow (s : State) : Host.Outcome State Fault Refusal := .next s.tkiFall

/-- Meaning of TAKEOVER_TKI_TIMEOUT. -/
def execTakeoverTkiTimeout (s : State) : Host.Outcome State Fault Refusal := .next s.tkiTimeout

/-- Meaning of TAKEOVER_SETTLE_EXPIRY. -/
def execTakeoverSettleExpiry (s : State) : Host.Outcome State Fault Refusal := .next s.settleEnd

/-- Meaning of PEER_RESET_PULSE_END. -/
def execPeerResetPulseEnd (s : State) : Host.Outcome State Fault Refusal := .next s.peerPulseEnd

/-- Meaning of HEARTBEAT_MISSED. -/
def execHeartbeatMissed (s : State) : Host.Outcome State Fault Refusal := .next s.hbMissed

end Sys2Proof.Machine
end

