-- ==== Sys2Proof/Machine/Walk.lean ====
section
/-!
DEFINITION. The Cruiser's walk (R422, R424): its parts in order, where it goes on, the end of a pass.
-/
namespace Sys2Proof.Machine

/-- A part of the walk: the bit of `CRU_MASK` that selects it, its first address and the address after it. -/
structure CruPart where
  bit : Nat
  lo : Nat
  hi : Nat
  deriving DecidableEq, Repr

/-- The walk in order (R422): the SECDED memories by index, the common SRAM bank by bank, then the detection-only memories. -/
def cruParts : List CruPart :=
  ((List.range 8).map fun c => ⟨c, 0x08000000 + 0x100000 * c, 0x08020000 + 0x100000 * c⟩) ++
  ((List.range 8).map fun c => ⟨8 + c, 0x08080000 + 0x100000 * c, 0x080C0000 + 0x100000 * c⟩) ++
  ((List.range 16).map fun b => ⟨16, 0x10000000 + 0x40000 * b, 0x10040000 + 0x40000 * b⟩) ++
  [⟨17, 0x18000000, 0x18040000⟩, ⟨24, 0x30000000, 0x30280000⟩, ⟨25, 0x34000000, 0x34007800⟩, ⟨26, 0x20000000, 0x20800000⟩,
    ⟨27, 0x38000000, 0x38005000⟩, ⟨28, 0x39000000, 0x39004000⟩]

/-- A part is walked now: selected in the pass, its domain on (R424), its bank not fenced. -/
def State.cruWalks (s : State) (mask : Word) (p : CruPart) : Bool :=
  bit mask p.bit && (match memAt p.lo with
  | some m => s.on (domOfMem m) && !s.fenced p.lo
  | none => false)

/-- The first part from number n on that is walked. -/
def State.cruPartFrom (s : State) (mask : Word) (n : Nat) : Option (Nat × Nat) :=
  ((List.range (cruParts.length - n)).find? fun i => (cruParts[n + i]?).any (s.cruWalks mask)).map fun i =>
    (n + i, ((cruParts[n + i]?).map CruPart.lo).getD 0)

/-- Where the walk goes on from part n at an address: there, or in a later part. -/
def State.cruAt (s : State) (mask : Word) (n a : Nat) : Option (Nat × Nat) :=
  match cruParts[n]? with
  | some p => if s.cruWalks mask p ∧ a < p.hi then some (n, a) else s.cruPartFrom mask (n + 1)
  | none => none

/-- The end of a pass: the count and event bit 4; the next pass takes the mask as it stands. -/
def State.cruPassEnd (s : State) : State :=
  let t := (s.count MEM.CRU_PASS_COUNT_count 1).raise MEM.base 4
  { t with cru := { t.cru with walk := none } }

/-- The walk stands at a place, or the pass has ended; `CRU_STAT` shows the next word. -/
def State.cruPut (s : State) (mask : Word) (w : Option (Nat × Nat)) : State :=
  match w with
  | some (n, a) => { s.wr MEM.CRU_STAT (BitVec.ofNat 32 a) with cru := { s.cru with walk := some (mask, n, a) } }
  | none => (let t := s.cruPassEnd; t.wr MEM.CRU_STAT (BitVec.ofNat 32 (((t.cruPartFrom (t.rd MEM.CRU_MASK) 0).map (·.2)).getD 0)))

/-- A domain has gone off: a walk inside one of its memories leaves it at once (R424). -/
def State.cruLeave (s : State) (d : Nat) : State :=
  match s.cru.walk with
  | some (mask, n, a) => if (memAt a).any fun m => domOfMem m == d then s.cruPut mask (s.cruAt mask n a) else s
  | none => s

end Sys2Proof.Machine
end

