-- ==== Sys2Proof/Machine/Periph.lean ====
section
/-!
DEFINITION. The peripherals of the Yarder (R406): the result FIFOs of the Scaler (R246), and the buffers of CTRL and DIAG flows (R323).
-/
namespace Sys2Proof.Machine

/-- The enabled CTRL or DIAG flow of a direction that names channel k (R304, R406). -/
def State.periphFlow (s : State) (k : Nat) (egress : Bool) : Option Nat :=
  s.enabledFlows.find? fun i =>
    let f := s.flow i
    (f.ty = 2 || f.ty = 6) && f.egress == egress && decide (f.arg % 32 = k)

/-- Bytes buffered for a flow. -/
def flowBuf (l : List (Nat × List Byte)) (i : Nat) : List Byte := (l.find? fun e => e.1 = i).elim [] (·.2)

/-- Bytes buffered for a flow replaced. -/
def flowBufSet (l : List (Nat × List Byte)) (i : Nat) (b : List Byte) : List (Nat × List Byte) :=
  let r := l.filter fun (e : Nat × List Byte) => e.1 != i
  if b.isEmpty then r else r ++ [(i, b)]

/-- Size of the buffer of a CTRL or DIAG flow in bytes (R323); the egress one is as large (log 41). -/
def flowBufSize : Nat := 16384

/-- The words the result FIFO of converter x reports (R246): none while `RES_CFG` asks for none, and none before a burst of its own size
is there. -/
def State.resCount (s : State) (x : Nat) : Nat :=
  let n := (s.sclCh x).fifo.length
  if s.flag (SCL.RES_CFG_en x) ∧ 2 ^ (s.get (SCL.RES_CFG_burst x) + 2) ≤ n then n else 0

/-- The count a peripheral reports (R406): words it holds as a source, words it has room for as a destination. -/
def State.periphCount (s : State) (k : Nat) (src : Bool) : Nat :=
  let p := s.get (YCH.CFG_periph k)
  if p = 1 ∨ p = 2 then (if src then s.resCount (p - 1) else 0)
  else if p = 0x10 then
    (match s.periphFlow k (!src) with
    | none => 0
    | some i => if src then (flowBuf s.link.rxBuf i).length / 4 else (flowBufSize - (flowBuf s.link.txBuf i).length) / 4)
  else 0

/-- A word leaves a source, with its poison mark; none where the source holds none (R406). -/
def State.periphPop (s : State) (k : Nat) : State × Option (Word × Bool) :=
  let p := s.get (YCH.CFG_periph k)
  if p = 1 ∨ p = 2 then
    (match (s.sclCh (p - 1)).fifo with
    | [] => (s, none)
    | w :: t => (s.setScl (p - 1) { s.sclCh (p - 1) with fifo := t }, some (w, false)))
  else if p = 0x10 then
    (match s.periphFlow k false with
    | none => (s, none)
    | some i =>
      let b := flowBuf s.link.rxBuf i
      if b.length < 4 then (s, none)
      else
        let w := (b.take 4).foldr (fun (x : Byte) a => x.toNat + 256 * a) 0
        ({ s with link := { s.link with rxBuf := flowBufSet s.link.rxBuf i (b.drop 4) } }, some (BitVec.ofNat 32 w, false)))
  else (s, none)

/-- A whole packet image of an egress flow is there (R323): it goes to the port, or is discarded where it differs from its entry or is
too long for a packet (R301). -/
def State.imageOut (s : State) (i : Nat) (b : List Byte) : State :=
  let s := s.flowLook i
  let f := s.flow i
  let h := headerOf b
  let q := ringPort s.reversedNow f.port
  if !f.en then s
  else if h.fid = f.fid ∧ h.ty = f.ty ∧ h.fmt = f.fmt ∧ h.len ≤ 8192 then
    s.pushOut q ⟨i, f.fid, f.ty, none, none, 0, f.fmt, 0, (b.drop 16).take h.len, s.ct, none⟩
  else s.linkCount q (PORT.FMT_ERR_COUNT_count q)

/-- A word enters a destination; false where it has no room (R406). -/
def State.periphPush (s : State) (k : Nat) (w : Word) : State × Bool :=
  if s.get (YCH.CFG_periph k) = 0x10 then
    (match s.periphFlow k true with
    | none => (s, false)
    | some i =>
      let b := flowBuf s.link.txBuf i ++ (List.range 4).map fun n => BitVec.ofNat 8 (w.toNat / 256 ^ n)
      let len := (16 + (headerOf b).len + 3) / 4 * 4
      if 16 ≤ b.length ∧ len ≤ b.length then
        (({ s with link := { s.link with txBuf := flowBufSet s.link.txBuf i (b.drop len) } }).imageOut i (b.take len), true)
      else ({ s with link := { s.link with txBuf := flowBufSet s.link.txBuf i b } }, true))
  else (s, false)

end Sys2Proof.Machine
end

