-- ==== Sys2Proof/Machine/YarderBase.lean ====
section
/-!
DEFINITION. Yarder channels as their pages show them (R400 to R412): index arithmetic, enable, resume, abort, the completion of
a descriptor. Fetch, bursts and beats are in Yarder.lean.
-/
namespace Sys2Proof.Machine

/-- Channel k. -/
def State.chan (s : State) (k : Nat) : Chan := s.chans.getD k Chan.reset
/-- Stores channel k. -/
def State.setChan (s : State) (k : Nat) (c : Chan) : State := { s with chans := s.chans.set k c }

/-- Outstanding descriptors of a ring of n (R402). -/
def outstanding (pi pw ci cw n : Nat) : Int := if pw = cw then (pi : Int) - ci else (n : Int) + pi - ci

/-- Ring size N of channel k. -/
def State.ringSize (s : State) (k : Nat) : Nat := s.get (YCH.RING_SIZE_n k) + 1

/-- Outstanding descriptors of channel k. -/
def State.ringUsed (s : State) (k : Nat) : Int :=
  outstanding (s.get (YCH.PROD_idx k)) (s.get (YCH.PROD_wrap k)) (s.get (YCH.CONS_idx k)) (s.get (YCH.CONS_wrap k)) (s.ringSize k)

/-- Base address of the ring of channel k. -/
def State.ringBase (s : State) (k : Nat) : Nat := 32 * s.get (YCH.RING_BASE_base k)

/-- The ring of channel k lies wholly in common SRAM, one DMEM or the AON retention SRAM (R401). -/
def State.ringOk (s : State) (k : Nat) : Bool :=
  let a := s.ringBase k
  let z := a + 32 * s.ringSize k - 1
  match memAt a, memAt z with
  | some .cmem, some .cmem => true
  | some .aon, some .aon => true
  | some (.dmem c), some (.dmem d) => c = d
  | _, _ => false

/-- Where the descriptor at the consumer index of channel k lies (R401). -/
def State.descAddr (s : State) (k : Nat) : Nat := s.ringBase k + 32 * s.get (YCH.CONS_idx k)

/-- A write of `PROD` (R402). -/
def State.prodWrite (s : State) (k : Nat) (v : Word) : State :=
  let o := s.ringUsed k
  let o' := outstanding (bits v 0 16) (bits v 16 1) (s.get (YCH.CONS_idx k)) (s.get (YCH.CONS_wrap k)) (s.ringSize k)
  if bits v 0 16 < s.ringSize k ∧ o ≤ o' ∧ o' ≤ s.ringSize k then
    (s.set (YCH.PROD_idx k) (bits v 0 16)).set (YCH.PROD_wrap k) (bits v 16 1)
  else s.logErr (YCH.base k) 0x41 (YCH.PROD k)

/-- `CONS` passes one descriptor (R402). -/
def State.advanceCons (s : State) (k : Nat) : State :=
  let i := s.get (YCH.CONS_idx k) + 1
  if i = s.ringSize k then (s.set (YCH.CONS_idx k) 0).set (YCH.CONS_wrap k) (s.get (YCH.CONS_wrap k) + 1)
  else s.set (YCH.CONS_idx k) i

/-- A channel halts (R407, R408). -/
def State.chanHalt (s : State) (k : Nat) : State :=
  let c := s.chan k
  ((s.setChan k { c with halted := true, refs := if c.desc.isSome then c.refs else 0 }).count (YCH.COUNTS_halt k) 1).raise (YCH.base k) 2

/-- Stores a word of the write-back in the ring's memory (R403): an access of the channel as any other, which a fence stops (R487) and
a mirror granule records (R351). -/
def State.ringStore (s : State) (a v : Nat) : State :=
  match memAt a with
  | some m => (match secdedIndex m with
    | some i =>
      if !s.on (domOfMem m) then s
      else if s.fenced a then s.logErr DBG.base 0x41 a
      else (s.secdedWrite i a 4 v false).touch a
    | none => s)
  | none => s

/-- The descriptor of channel k ends with a status (R403, R407, R408): write-back with done last, `CONS`, then the interrupts; a
status of 0x10 or above halts the channel. -/
def State.descEnd (s : State) (k status : Nat) : State :=
  let c := s.chan k
  let a := s.descAddr k
  let crc := (c.crc ^^^ 0xFFFFFFFF#32).toNat
  let irq : Bool := status < 0x10 && (match c.desc with | some d => d.irq | none => false)
  let s := ((s.ringStore (a + 24) (c.moved % 2 ^ 25)).ringStore (a + 28) crc).ringStore (a + 20) (2 ^ 31 + status)
  let s := (s.set (YCH.LAST_CRC_crc k) crc).set (YCH.STAT_status k) status
  let s := s.advanceCons k
  let s := s.setChan k { Chan.reset with halted := c.halted }
  let s := if status = 0x01 then s.count (YCH.COUNTS_undr k) 1 else s
  let s := if irq ∨ status ≥ 0x10 then s.latchAll (16 + k) else s
  let s := if irq then s.raise (YCH.base k) 1 else s
  let s := if status ≥ 0x10 then s.chanHalt k else s
  if c.disable then s.set (YCH.CTRL_en k) 0 else s

/-- An abort (R409): the descriptor ends after its burst in progress, and the channel halts; without a descriptor it halts at once (log
112). -/
def State.chanAbort (s : State) (k : Nat) : State :=
  let c := s.chan k
  match c.desc with
  | some _ => if c.left = 0 then s.descEnd k 0x14 else s.setChan k { c with abort := true }
  | none => if c.halted then s else s.chanHalt k

/-- A write of `YCH k .CTRL` (R401, R408, R409). -/
def State.ychCtrlWrite (s : State) (k : Nat) (v : Word) : State :=
  let s := if bit v 2 then s.chanAbort k else s
  let s := if bit v 1 then (let c := s.chan k; s.setChan k { c with halted := false }) else s
  if bit v 0 then
    (if s.flag (YCH.CTRL_en k) then s
     else if s.ringOk k then s.set (YCH.CTRL_en k) 1
     else s.logErr (YCH.base k) 0x42 (YCH.CTRL k))
  else if !s.flag (YCH.CTRL_en k) then s
  else
    let c := s.chan k
    (match c.desc with
    | some _ =>
      if c.left = 0 then (s.descEnd k 0x14).set (YCH.CTRL_en k) 0
      else s.setChan k { c with abort := true, disable := true }
    | none => (s.setChan k { c with refs := 0 }).set (YCH.CTRL_en k) 0)

/-- A write of `CFG` (R406, R409). -/
def State.ychCfgWrite (s : State) (k : Nat) (v : Word) : State :=
  if s.flag (YCH.CTRL_en k) then s.logErr (YCH.base k) 0x40 (YCH.CFG k)
  else if [0, 1, 2, 0x10].contains (bits v 8 8) then
    (s.set (YCH.CFG_prio k) (bits v 0 3)).set (YCH.CFG_periph k) (bits v 8 8)
  else s.logErr (YCH.base k) 0x42 (YCH.CFG k)

/-- A write of `RING_BASE` (R409). -/
def State.ychBaseWrite (s : State) (k : Nat) (v : Word) : State :=
  if s.flag (YCH.CTRL_en k) then s.logErr (YCH.base k) 0x40 (YCH.RING_BASE k)
  else s.set (YCH.RING_BASE_base k) (bits v 5 27)

/-- A write of `RING_SIZE` (R409, R412). -/
def State.ychSizeWrite (s : State) (k : Nat) (v : Word) : State :=
  if s.flag (YCH.CTRL_en k) then s.logErr (YCH.base k) 0x40 (YCH.RING_SIZE k)
  else if bits v 0 16 < 15 then s.logErr (YCH.base k) 0x42 (YCH.RING_SIZE k)
  else s.set (YCH.RING_SIZE_n k) (bits v 0 16)

/-- Every channel that refers to a domain pauses (R410). -/
def State.pauseChans (s : State) (d : Nat) : State :=
  (List.range 32).foldl (fun t k =>
    let c := t.chan k
    if c.refs.getLsbD d ∧ !c.paused then (t.setChan k { c with paused := true }).raise (YCH.base k) 4 else t) s

/-- A domain is on again with its content kept: the channels that it paused resume once every domain of theirs is on, with FAB those too
that it paused itself (R411); with its content lost their descriptors end with status 0x13 (R410). -/
def State.resumeChans (s : State) (d : Nat) (lost : Bool) : State :=
  (List.range 32).foldl (fun t k =>
    let c := t.chan k
    if c.paused ∧ (c.refs.getLsbD d ∨ d = 2) then
      (if lost then (t.setChan k { c with paused := false }).descEnd k 0x13
       else if c.refs &&& ~~~t.pwr.domOn = 0 then t.setChan k { c with paused := false }
       else t)
    else t) s

/-- Some channel holds a reference on a domain; with `live`, one that is not paused (R410, R411). -/
def State.chanRef (s : State) (d : Nat) (live : Bool) : Bool :=
  s.chans.any fun c => c.refs.getLsbD d && !(live && c.paused)

/-- The domains referenced by some channel: `YRD.DOMREF` (R413). -/
def State.domRefs (s : State) : BitVec 27 := s.chans.foldl (fun m c => m ||| c.refs) 0

/-- The domain bit of an address as a mask (R410). -/
def domMask (a : Nat) : BitVec 27 :=
  match domOf a with
  | some d => BitVec.ofNat 27 (2 ^ d)
  | none => 0

/-- The Yarder runs (R411): FAB is on and has not acknowledged the prepare of a state that takes it down. -/
def State.yarderUp (s : State) : Bool :=
  s.on 2 && (match s.pwr.hand with
  | some h => !(decide (2 ≤ h.target) && !h.todo.contains .fab)
  | none => true)

/-- Channel k may fetch: enabled, not halted or paused, no descriptor in hand, one offered (R403). -/
def State.mayFetch (s : State) (k : Nat) : Bool :=
  let c := s.chan k
  s.yarderUp && s.flag (YCH.CTRL_en k) && !c.halted && !c.paused && c.desc.isNone && decide (0 < s.ringUsed k)

/-- The domains that channel k waits for before it goes on (R410): those of its descriptor, or that of the next one. -/
def State.chanWaits (s : State) (k : Nat) : BitVec 27 :=
  let c := s.chan k
  (if c.desc.isSome then c.refs else if s.mayFetch k then domMask (s.descAddr k) else 0) &&& ~~~s.pwr.domOn

/-- Words that remain of a descriptor, the appended CRC excluded. -/
def Chan.remaining (c : Chan) : Nat := match c.desc with | some d => d.len / 4 - c.done | none => 0

/-- A channel may take beats: enabled, not halted or paused, with a descriptor whose domains are on (R405). -/
def State.chanLive (s : State) (k : Nat) : Bool :=
  let c := s.chan k
  s.on 2 && s.flag (YCH.CTRL_en k) && !c.halted && !c.paused && c.desc.isSome && (c.refs &&& ~~~s.pwr.domOn) == 0

/-- Words of the next burst of channel k (R396). -/
def Chan.nextBurst (c : Chan) : Nat := match c.desc with | some d => min d.burst c.remaining | none => 0

/-- Channel k is ready for a beat (R405): in a burst, or at the start of one that its peripheral's count covers (R406). The rest of a
descriptor whose destination has withdrawn is discarded and needs no room (R408). The appended CRC is a beat of its own (R404). -/
def State.chanReady (s : State) (k : Nat) : Bool :=
  let c := s.chan k
  s.chanLive k && (decide (0 < c.left) || (match c.desc with
    | some d =>
      if c.remaining = 0 then d.crcApp
      else if d.srcReq then decide (c.nextBurst ≤ s.periphCount k true)
      else if d.dstReq then c.withdrawn || decide (c.nextBurst ≤ s.periphCount k false)
      else true
    | none => false))

/-- Meaning of YARDER_ENABLE: a write of `CTRL` for its enable. -/
def execYarderEnable (id : ReqId) (k : Fin 32) (data : Word) (s : State) : Host.Outcome State Fault Refusal :=
  .next (s.writeCmd id (YCH.CTRL k) data (·.ychCtrlWrite k data))

/-- Meaning of YARDER_RESUME: a write of `CTRL` with resume. -/
def execYarderResume (id : ReqId) (k : Fin 32) (data : Word) (s : State) : Host.Outcome State Fault Refusal :=
  .next (s.writeCmd id (YCH.CTRL k) data (·.ychCtrlWrite k data))

/-- Meaning of YARDER_ABORT: a write of `CTRL` with abort. -/
def execYarderAbort (id : ReqId) (k : Fin 32) (data : Word) (s : State) : Host.Outcome State Fault Refusal :=
  .next (s.writeCmd id (YCH.CTRL k) data (·.ychCtrlWrite k data))

/-- Meaning of YARDER_PROD_WRITE. -/
def execYarderProdWrite (id : ReqId) (k : Fin 32) (data : Word) (s : State) : Host.Outcome State Fault Refusal :=
  .next (s.writeCmd id (YCH.PROD k) data (·.prodWrite k data))

end Sys2Proof.Machine
end

