-- ==== Sys2Proof/Machine/Power.lean ====
section
/-!
DEFINITION. Performance levels and the VID handshake (R431 to R437), prepare and commit of the sleep states, single domains
(R438 to R445), wake sources and exits (R446 to R448).
-/
namespace Sys2Proof.Machine

/-! ## Levels and VID (R433 to R437) -/

/-- The domain's release from reset is still to come (R455). -/
def relIndex (d : Nat) : Nat :=
  if d = 0 then 0 else if d = 1 then 1 else if d = 2 then 2 else if d = 11 then 3 else if d < 11 then d + 1 else d

/-- The domain is not yet released. -/
def State.unreleased (s : State) (d : Nat) : Bool :=
  match s.rst.next with
  | some n => decide (relIndex n ≤ relIndex d)
  | none => false

/-- The code on VID[7:0]. -/
def State.vid (s : State) : Nat := s.get PWR.PL_STAT_vid

/-- The body bias in mV, forward positive (R431, R438). -/
def Assist.bodyBias (a : Assist) : Int :=
  match a with
  | .level 0 => 200
  | .level 1 => 100
  | .level _ => 0
  | .reverse => -300

/-- The negative-bitline assist of PL0 and PL1 (R431). -/
def Assist.negBitline (a : Assist) : Bool := match a with | .level l => decide (l ≤ 1) | .reverse => false

/-- The word-line underdrive of PL3 (R431). -/
def Assist.underdrive (a : Assist) : Bool := a == .level 3

/-- Body bias and assist take new values. -/
def State.setAssist (s : State) (a : Assist) : State := { s with pwr := { s.pwr with assist := a } }

/-- n codes of a ramp in CT (R434): 0.5 µs each. -/
def vidCt (n : Nat) : Nat := (n * 393216 + 99) / 100

/-- The instant of the last code of the ramp, on the model's clock. -/
def State.lastCode (s : State) : Nat := s.pwr.vidAt + vidCt s.pwr.vidN

/-- The participants of a request (R441). -/
def parts (target : Nat) : List Part :=
  if target = 1 then [.port, .std] else if target = 2 then [.port, .std, .bf, .lnd, .aux, .core, .cmem, .fab]
  else [.port, .std, .bf, .lnd, .aux, .core, .cmem, .fab, .sec]

/-- A sleep request (R437, R441): it waits while a level change runs. -/
def State.sleepRequest (s : State) (target : Nat) (force : Bool) : State :=
  if s.pwr.hand.isSome then s.logErr PWR.base 0x40 PWR.SLEEP_CTRL
  else if s.pwr.change.any fun c => !c.back then { s with pwr := { s.pwr with waiting := some (target, force) } }
  else { s with pwr := { s.pwr with waiting := none, wakeSeen := false, hand := some ⟨target, force, parts target, 0, []⟩ } }

/-- A level change has ended: a sleep request that waited starts (R437). -/
def State.changeOver (s : State) : State :=
  match s.pwr.waiting with
  | some (t, f) => s.sleepRequest t f
  | none => s

/-- VID at its goal with VOK high: a level change completes with the assist of its level (R435, R436), or the exit from Rest releases the
reverse body bias and powers FAB and CMEM (R448). -/
def State.vidPoll (s : State) : State :=
  if s.vid ≠ s.pwr.goal ∨ !s.pwr.vok ∨ s.vid = 0 then s
  else if s.pwr.restExit then
    (let t := s.setAssist (.level (s.get PWR.PL_CTRL_target))
     { t with pwr := { t.pwr with domWaking := t.pwr.domWaking ||| 0x804#27 } })
  else match s.pwr.change with
  | some c =>
    let t : State := { s with pwr := { s.pwr with change := none } }
    if c.back then t.setAssist (.level c.old) else (((t.setAssist (.level c.target)).set PWR.PL_STAT_cur c.target).raise PWR.base 1).changeOver
  | none => s

/-- The code on VID steps (R434; log 79). -/
def State.vidStep (s : State) : State :=
  let v := s.vid
  if v = s.pwr.goal then s
  else
    let t := s.atNow (s.pwr.vidAt + vidCt (s.pwr.vidN + 1))
    let w := if v < s.pwr.goal then v + 1 else v - 1
    let t : State := { t.set PWR.PL_STAT_vid w with pwr := { t.pwr with vidN := t.pwr.vidN + 1 } }
    let t : State := if w = 0 ∧ t.rst.vidOff.isSome then { t with rst := { t.rst with vidOff := some t.now } } else t
    if t.pwr.wakeSeen ∧ !t.pwr.restExit ∧ (t.pwr.sleep = .rest ∨ t.pwr.sleep = .dormant) then t.exitStart else t.vidPoll

/-- A change to a level starts, or redirects the running one (R435, R437); toward a lower code its assist comes first. -/
def State.levelStart (s : State) (l : Nat) : State :=
  let t := s.set PWR.PL_CTRL_target l
  let t := if levelCode l < t.vid then t.setAssist (.level l) else t
  match t.pwr.change with
  | some c => (({ t with pwr := { t.pwr with change := some { c with target := l, back := false } } }).rampTo (levelCode l)).vidPoll
  | none =>
    let cur := t.get PWR.PL_STAT_cur
    if l = cur then t
    else (({ t with pwr := { t.pwr with change := some ⟨cur, l, false⟩ } }).rampTo (levelCode l)).vidPoll

/-- A write of `PL_CTRL` (R433, R437, R496). -/
def State.plCtrlWrite (s : State) (v : Word) : State :=
  let l := bits v 0 2
  if s.pwr.hand.isSome then s.logErr PWR.base 0x40 PWR.PL_CTRL
  else if l < s.needLevel ∧ !s.flag DBG.CHAR_lvl_ovr then s.logErr PWR.base 0x08 PWR.PL_CTRL
  else s.levelStart l

/-- VOK rises. -/
def State.vokRise (s : State) : State := ({ s with pwr := { s.pwr with vok := true } }).vidPoll

/-- VOK falls (R436). -/
def State.vokFall (s : State) : State :=
  let t : State := { s with pwr := { s.pwr with vok := false } }
  if s.pwr.vok ∧ s.pwr.change.isNone ∧ s.vid ≠ 0 then t.raise PWR.base 6 else t

/-- VOK is not high 100 µs after the last code (R436). -/
def State.vokTimeout (s : State) : State :=
  match s.pwr.change with
  | some c =>
    if c.back ∨ s.pwr.vok ∨ s.vid ≠ s.pwr.goal then s
    else
      let t := (s.atNow (s.lastCode + usCt 100)).rampTo (levelCode c.old)
      let t : State := { t with pwr := { t.pwr with change := some { c with back := true } } }
      (((t.set PWR.PL_CTRL_target c.old).logErr PWR.base 0x41 PWR.PL_CTRL).raise PWR.base 2).changeOver
  | none => s

/-! ## Prepare (R441 to R443, R445) -/

/-- Domains of a participant, ascending. -/
def Part.domains : Part → List Nat
  | .port => [22, 23, 24, 25]
  | .std => [14, 15, 16, 17, 18, 19, 20, 21]
  | .bf => [12]
  | .lnd => [13]
  | .aux => [26]
  | .core => [3, 4, 5, 6, 7, 8, 9, 10]
  | .cmem => [11]
  | .fab => [2]
  | .sec => [1]

/-- Port domain d lies in use: its port is enabled, or a lane of it belongs to another enabled port or a PRBS engine (R442). -/
def State.portBusy (s : State) (q : Nat) : Bool :=
  s.portEn q || (List.range 4).any fun i =>
    let l := baseLane q + i
    (s.laneOwner l).isSome || (List.range 4).any fun e => s.flag (PORT.PRBS_CTRL_en e) && (s.get (PORT.PRBS_LANES_mask e)).testBit l

/-- Why domain d refuses a prepare (R442): the lowest reason that holds; `woke`: a wake source fired after the request. -/
def State.refusal (s : State) (d : Nat) (force single woke : Bool) : Option Nat :=
  let port := decide (22 ≤ d) && decide (d < 26)
  let lanes := (List.range 4).map fun i => baseLane (d - 22) + i
  if d = 26 ∧ s.scl.any (·.cal != 0) then some 1
  else if port ∧ (s.portState (d - 22) = 1 ∨ lanes.any fun l => (s.laneOwner l).any fun q => s.portState q = 1) then some 2
  else if !force ∧ (if d = 2 then s.chans.any fun c => c.desc.isSome && !c.paused else s.chanRef d false) then some 3
  else if d = 1 ∧ s.sec.job.isSome then some 4
  else if s.pwr.domWaking.getLsbD d then some 5
  else if woke then some 6
  else if single ∧ (d = 12 ∨ (14 ≤ d ∧ d < 22)) ∧ (s.anyLive false ∨ s.anyLive true) then some 8
  else if single ∧ 3 ≤ d ∧ d < 11 ∧ (s.core (d - 3)).active then some 9
  else if single ∧ port ∧ s.portBusy (d - 22) then some 10
  else none

/-- A refusal is reported (R443). -/
def State.reportRefusal (s : State) (d reason : Nat) : State :=
  (((s.set PWR.SLEEP_STAT_refused 1).set PWR.SLEEP_STAT_block d).set PWR.SLEEP_STAT_reason reason).raise PWR.base 3

/-- The domains whose state can refuse for a participant: its own, and with FAB those that go off with it though none asks them: the
security block in Rest (R478; log 132). -/
def Part.asked (p : Part) (target : Nat) : List Nat := if p = .fab ∧ target = 2 then [2, 1] else p.domains

/-- Channels whose domains are all on continue (log 135). -/
def State.resumeLive (s : State) : State :=
  { s with chans := s.chans.map fun (c : Chan) => if c.refs &&& ~~~s.pwr.domOn = 0 then { c with paused := false } else c }

/-- A sleep request is refused (R443): what the prepare stopped continues. -/
def State.sleepRefused (s : State) (h : Handshake) (d reason : Nat) : State :=
  let t : State := { s with pwr := { s.pwr with hand := none, wakeSeen := false } }
  let t : State := (List.range 8).foldl (fun (t : State) c =>
    let k := t.core c
    if !h.halted.getLsbD c then t
    else if k.mode = .halted then t.setCore c { k with mode := .running }
    else t.setCore c { k with haltReq := false }) t
  let t := (t.resumeLive.sclNext 0 t.ct100).sclNext 1 t.ct100
  t.reportRefusal d reason

/-- The prepare halts the running cores as on a halt request (R441): the state, with whether every core is halted. -/
def State.coresHalt (s : State) (h : Handshake) : State :=
  let m := (List.range 8).foldl (fun m c => if (s.core c).active then setBit m c true else m) h.halted
  let t := (List.range 8).foldl (fun (t : State) c => if (t.core c).active ∧ !(t.core c).haltReq then t.coreHaltReq c else t) s
  { t with pwr := { t.pwr with hand := some { h with halted := m } } }

/-- The next participant answers (R441, R442), or a single domain (R445). LND first lets a running capture complete, and a core its
halt; until then there is no answer. -/
def State.prepareAnswer (s : State) : State :=
  match s.pwr.hand, s.pwr.offTodo with
  | some h, _ =>
    (match h.todo with
    | [] => s
    | p :: rest =>
      (match (p.asked h.target).findSome? fun d => (s.refusal d h.force false s.pwr.wakeSeen).map fun r => (d, r) with
      | some (d, r) => s.sleepRefused h d r
      | none =>
        let s := if p = .core then s.coresHalt h else s
        if p = .lnd ∧ s.capture.isSome then s
        else if p = .core ∧ s.cores.any Core.active then s
        else
          let h := s.pwr.hand.getD h
          let s := p.domains.foldl State.pauseChans s
          let s := if p = .fab then
              (List.range 32).foldl (fun t k => let c := t.chan k
                if c.desc.isSome ∧ !c.paused then (t.setChan k { c with paused := true }).raise (YCH.base k) 4 else t) s
            else s
          { s with pwr := { s.pwr with hand := some { h with todo := rest } } }))
  | none, ⟨d, force, woke⟩ :: rest =>
    if !s.on d ∧ !s.pwr.domWaking.getLsbD d then { s with pwr := { s.pwr with offTodo := rest } }
    else if d = 13 ∧ s.capture.isSome then s
    else
      let t : State := { s with pwr := { s.pwr with offTodo := rest } }
      (match s.refusal d force true woke with
      | some r => (t.set ⟨PWR.DOM_CTRL, d, 1⟩ 0).reportRefusal d r
      | none => ((t.pauseChans d).setDom d false).cruLeave d)
  | none, [] => s

/-- The participant asked has not answered within 100 µs (R442). -/
def State.prepareTimeout (s : State) : State :=
  match s.pwr.hand, s.pwr.offTodo with
  | some h, _ =>
    (match h.todo with
    | [] => s
    | p :: _ =>
      let d := if p = .core then 3 + ((List.range 8).find? fun c => (s.core c).active).getD 0 else p.domains.headD 0
      s.sleepRefused h d 7)
  | none, ⟨d, _, _⟩ :: rest =>
    let t : State := { s with pwr := { s.pwr with offTodo := rest } }
    (t.set ⟨PWR.DOM_CTRL, d, 1⟩ 0).reportRefusal d 7
  | none, [] => s

/-- A write of `DOM_CTRL` (R445). -/
def State.domCtrlWrite (s : State) (v : Word) : State :=
  let m := bits v 0 27
  if m &&& 0x4000807 ≠ 0 then s.logErr PWR.base 0x42 PWR.DOM_CTRL
  else
    let old := s.get PWR.DOM_CTRL_off
    let t := s.set PWR.DOM_CTRL_off m
    (List.range 27).foldl (fun (t : State) d =>
      if m.testBit d ∧ !old.testBit d then { t with pwr := { t.pwr with offTodo := t.pwr.offTodo ++ [⟨d, bit v 31, false⟩] } }
      else if old.testBit d ∧ !m.testBit d then
        ({ t with pwr := { t.pwr with offTodo := t.pwr.offTodo.filter (·.dom ≠ d) } }).startWake d
      else t) t

/-! ## Wake sources (R446, R447) -/

/-- Every Active port enters Quiet (R292). -/
def State.quietPorts (s : State) : State :=
  { (List.range 4).foldl State.portQuiet s with pwr := { s.pwr with quieted := true } }

/-- The exit from Idle (R447): entries fetched from 40 µs on run normally. -/
def State.idleExit (s : State) : State :=
  let t : State := { s with pwr := { s.pwr with sleep := .run, wakeSeen := false, idleExitBt := some ((s.ct + usCt 40 + 63) / 64) } }
  let t := if t.pwr.quieted then (List.range 4).foldl State.portWake t else t
  (({ t with pwr := { t.pwr with quieted := false } }).set PWR.SLEEP_STAT_state 0).raise PWR.base 4

/-- Wake source b fires (R446): its bit of `WAKE_EN` enables it. In the prepare phase it refuses the request, in Run the single
power-downs that wait (R442); in the commit it is served after it (R444). -/
def State.wakeSource (s : State) (b : Nat) : State :=
  if b ≠ 0 ∧ !(s.get PWR.WAKE_EN_src).testBit (b - 1) then s
  else
    let seen : State := { s with pwr := { s.pwr with wakeSeen := true } }
    let t := seen.set ⟨PWR.WAKE_CAUSE, b, 1⟩ 1
    match s.pwr.hand with
    | some h => if h.todo.isEmpty then { seen with pwr := { seen.pwr with hand := some { h with wakes := b :: h.wakes } } } else seen
    | none =>
      (match s.pwr.sleep with
      | .run => { s with pwr := { s.pwr with offTodo := s.pwr.offTodo.map fun (o : OffReq) => { o with woke := true } } }
      | .idle => t.idleExit
      | _ => t.exitStart)

/-- A write of `SLEEP_CTRL` (R441, R447; log 80). -/
def State.sleepCtrlWrite (s : State) (v : Word) : State :=
  let t := bits v 0 2
  if t ≠ 0 then s.sleepRequest t (bit v 2)
  else if s.pwr.sleep = .idle then
    (if s.pwr.hand.isSome then { s with pwr := { s.pwr with wakeSeen := true } } else s.idleExit)
  else s

/-! ## Commit (R438, R439, R444) -/

/-- Register words that a sleep state keeps whole: the RST and OPT pages, locks (in Rest), the PWR registers that the AON controller
holds, the freeze area; and in Rest the bias outputs (R44, R438, R449, R454, R239). -/
def sleepKeeps (rest : Bool) (a : Nat) : Bool :=
  pageBase a = RST.base || pageBase a = OPT.base || [PWR.PL_CTRL, PWR.WAKE_EN, PWR.WAKE_T_LO, PWR.WAKE_T_HI, PWR.EXIT_SET, PWR.IDLE_EV,
    DBG.FRZ_STAT].contains a ||
  (decide (PWR.RESUME 0 ≤ a) && decide (a ≤ PWR.RESUME 7)) || (decide (DBG.FRZ 0 ≤ a) && decide (a ≤ DBG.FRZ 63)) ||
  (rest && (a % 0x1000 = 0x2C || a = PWR.PL_STAT || (pageBase a = BIA.base && decide (BIA.CFG 0 ≤ a))))

/-- A register word after Rest (R10): the retained fields, and those whose chapter keeps them (R239, R271, R347, R411; locks and `km_dis` hold
until cold reset, chapter 19). -/
def State.restValue (s : State) (a : Nat) (v : Word) : Word :=
  if (List.range 96).any fun j => a = BIA.CODE j then v &&& ~~~0x80000#32
  else if sleepKeeps true a then v
  else
    let w := restWord s.otp a v
    if a = THM.STAT then w ||| (v &&& 1#32)
    else if a = THM.HALT then w ||| (v &&& 0x3F00#32)
    else if a = SEC.CTRL then w ||| (v &&& 1#32)
    else if (List.range 32).any fun k => a = YCH.POS k && (s.chan k).paused then v
    else if a = CLK.TSYNC_CTRL then w ||| (v &&& 0x200#32)
    else if a = PAR.STAT then w ||| (v &&& 0x10#32)
    else if (List.range 4).any fun q => a = PORT.STAT q then w ||| (v &&& 7#32)
    else w

/-- The address at which word k of the retained set is saved (R439; log 113). -/
def savedAt (k : Nat) : Nat := 0x18030000 + 4 * k

/-- A word of the retained set as it stands. -/
def State.keptValue (s : State) (a : Nat) : Word := if a < 0x40000000 then s.word a else s.rd a

/-- The retained set is saved (R439): whole words with valid check bits. -/
def State.saveKept (s : State) : State :=
  let t := (keptWords.zip (List.range keptWords.length)).foldl (fun (t : State) x => t.setWord (savedAt x.2) (s.keptValue x.1)) s
  let hi := savedAt keptWords.length
  { t with
    upsets := healRange t.upsets (savedAt 0) hi
    poison := t.poison.filter fun e => !(decide (savedAt 0 ≤ e.1) && decide (e.1 < hi)) }

/-- A read of a SECDED word finds it uncorrectable or poison-marked (R416). -/
def State.gone (s : State) (a : Nat) : Bool :=
  s.poisoned a || (match s.upsets.find? (a - a % 8) with | none => false | some (.flip _) => false | some (.stuck _) => false | some _ => true)

/-- One word of the retained set is restored (R427): a word that is uncorrectable or poison-marked leaves the cold value. -/
def State.restoreWord (s : State) (a k : Nat) : State :=
  let ok := !s.gone (savedAt k)
  let v := s.word (savedAt k)
  if a < 0x40000000 then s.setParityWord a (if ok then v else 0)
  else
    let other := s.rd a &&& ~~~ (fieldsAt a).foldl (fun m (f : FldRow) => if f.keep then m ||| BitVec.ofNat 32 ((2 ^ f.w - 1) * 2 ^ f.lo) else m) 0
    s.wr a (if ok then other ||| restWord s.otp a v - restWord s.otp a 0 else other ||| (coldWord s.otp a - restWord s.otp a 0))

/-- What the read of the 64-bit word that saves register word a, and the word after it, leaves on the MEM page (R415, R416, R427; log 113). -/
def State.restoreLog (s : State) (a k : Nat) : State :=
  let t := s.secdedCheck 17 (savedAt k)
  if t.poisoned (savedAt k) then
    (((t.count MEM.RET_LOSS_COUNT_count 1).set MEM.RET_LOSS_ADDR_addr a).logErr MEM.base 0x41 a).raise MEM.base 5
  else t

/-- The retained set is restored (R439); the MEM page has its own values back before it counts what the reads found. -/
def State.restoreKept (s : State) : State :=
  let l := keptWords.zip (List.range keptWords.length)
  l.foldl (fun (t : State) x => if x.2 % 2 = 0 then t.restoreLog x.1 x.2 else t) (l.foldl (fun (t : State) x => t.restoreWord x.1 x.2) s)

/-- What stops at every commit to Rest or Dormant (R444): timer, slices, cores, lanes, measurements, waiting work (log 120). -/
def State.stopAll (s : State) (st : Nat) : State :=
  let t := (s.flowFinish.haltTimer.slicesStop false).slicesStop true
  let t := (List.range 4).foldl (fun t q => if t.portEn q then (t.prbsStop q).portTo q st else t.prbsStop q) t
  let t := ((List.range 8).foldl State.coreReset t).withdraw fun _ _ => true
  { t with
    shadow := [], stage := [], mgmt := [], capture := none
    scl := [SclCh.reset, SclCh.reset]
    pwr := { t.pwr with hand := none, offTodo := [], quieted := false, pairEn := t.flag PAR.CFG_en }
    pair := Pair.reset, cnv := { Cnv.reset with romChecks := t.cnv.romChecks, railLost := t.vcnvOut }, rx := Rx.reset, tx := Tx.reset
    thm := { Thm.reset with above := t.thm.above } }

/-- Every domain but AON goes off (R438). -/
def State.domainsOff (s : State) : State := (List.range 26).foldl (fun t d => t.setDom (d + 1) false) s

/-- The commit to Rest. -/
def State.commitRest (s : State) : State :=
  let t := (s.stopAll 4).saveKept
  let t := { t with regs := t.regs.filterMap fun (e : Nat × Word) =>
      let v := t.restValue e.1 e.2
      if v = coldWord t.otp e.1 then none else some (e.1, v) }
  let t := (t.wipe 0x20000000 0x20800000)
  let t : State := { t with
    staged := [], eff := []
    link := { Link.reset with alloc := t.link.alloc }
    portSt := t.portSt.map fun (p : PortSt) => if p.notice.isSome then p else PortSt.reset
    laneSt := t.laneSt.map fun (x : LaneSt) => { LaneSt.reset with rd := x.rd }
    prbsSt := State.reset.prbsSt
    chans := t.chans.map fun (c : Chan) => { c with halted := false }
    dpd := t.dpd.map fun (x : DpdPath) => { x with active := 0, ibyp := false, fade := none, held := none, dl := [] }
    reload := State.reset.reload
    bf := { t.bf with sealing := none, rcmp := [], cur := Bf.reset.cur, next := Bf.reset.next }
    rxSlices := State.reset.rxSlices, txSlices := State.reset.txSlices
    sec := { t.sec with challenge := none } }
  let t : State := { t with timer := { t.timer with pending := none, checking := none, taken := none, fesIdle := 0 } }
  let t := (t.refreshEff.domainsOff).setAssist .reverse
  let t : State := { t with pwr := { t.pwr with sleep := .rest, domRetained := 0x4000000#27, lost := 0x2000#27 } }
  (t.fecUpdate.rampTo 0x28).prtUpdate.railsHold

/-- The whole device takes its cold values (R454), but for what `keep` names of the registers, the AON retention SRAM where it is
kept, stuck cells, and what lies outside a reset: fuses, clocks, pins. -/
def State.coldClear (s : State) (keep : Nat → Bool) (aon : Bool) : State :=
  let inAon (a : Nat) : Bool := aon && memAt a == some .aon
  { State.reset with
    pending := s.pending, now := s.now, dev := s.dev, refclk := s.refclk, otp := s.otp, drawn := s.drawn, resp := s.resp
    stalled := s.stalled.filter fun a => a.id = 1
    logged := s.logged, gpioPins := s.gpioPins, jtag := s.jtag, cells := s.cells, rst := s.rst, pwr := s.pwr, mgt := s.mgt
    regs := s.regs.filter fun e => keep e.1
    mem := s.mem.filter fun e => inAon e.1
    upsets := s.upsets.filterMap fun (e : Nat × Upset) => if inAon e.1 then some e else (lastingUpset e.2).map fun u => (e.1, u)
    poison := s.poison.filter fun e => inAon e.1
    timer := { Timer.reset with tsyncOut := s.timer.tsyncOut }
    cnv := { Cnv.reset with romChecks := s.cnv.romChecks, railLost := s.vcnvOut }
    sec := { Sec.reset with drawn := s.sec.drawn } }

/-- The commit to Dormant. -/
def State.commitDormant (s : State) : State :=
  let t := s.stopAll 0
  let tki := t.get PAR.STAT_tki
  let vid := t.vid
  let t := ((t.coldClear (sleepKeeps false) true).set PAR.STAT_tki tki).set PWR.PL_STAT_vid vid
  let t := t.domainsOff.setAssist (.level 2)
  let t : State := { t with pwr := { t.pwr with sleep := .dormant, domRetained := 0 } }
  (t.fecUpdate.rampTo 0).prtUpdate.railsHold

/-- The commit (R444); a wake that has come meanwhile is served as an exit from the state reached. In Idle the channels that the prepare paused
continue (log 135). -/
def State.sleepCommit (s : State) : State :=
  match s.pwr.hand with
  | some h =>
    if !h.todo.isEmpty then s
    else
      let t := if h.target = 1 then
          (let t : State := { s with pwr := { s.pwr with hand := none, sleep := .idle, quieted := false, idleExitBt := none } }
           let t := t.set PWR.SLEEP_STAT_state 1
           (if t.running then t else t.quietPorts).resumeLive)
        else if h.target = 2 then s.commitRest else s.commitDormant
      let t := h.wakes.foldl (fun t b => t.set ⟨PWR.WAKE_CAUSE, b, 1⟩ 1) t
      if !t.pwr.wakeSeen then t else if h.target = 1 then t.idleExit else t.exitStart
  | none => s

/-! ## Ready domains and the exit from Rest (R448) -/

/-- The flow table at the exit from Rest (R307): words 5 to 7 zero, every ingress hv 0. -/
def State.flowRest (s : State) : State :=
  (List.range 640).foldl (fun t i =>
    let t := (List.range 3).foldl (fun (t : State) w => t.setParityWord (flowAddr i (5 + w)) 0) t
    if (t.flow i).egress then t else t.setWord (flowAddr i 4) (t.word (flowAddr i 4) &&& 0xFFFEFFFF#32)) s

/-- FAB is on: the retained set stands again, cores and domains of `EXIT_SET` start (R444, R448). -/
def State.restBack (s : State) : State :=
  let t := s.restoreKept.flowRest
  let t : State := match t.cru.walk with | some (_, _, a) => t.wr MEM.CRU_STAT (BitVec.ofNat 32 a) | none => t
  let t := (List.range 64).foldl State.thetaInit t
  let t := (List.range 8).foldl (fun (t : State) st => t.dacModes st (t.get (STD.CNV_CTRL_dac st))) t
  let en := (List.range 8).foldl (fun (m : BitVec 8) c => setBit m c (t.flag (PWR.RESUME_en c))) 0
  let up := BitVec.ofNat 27 (t.get PWR.EXIT_SET_set) ||| (en.setWidth 27 <<< 3)
  let t := t.set PWR.PL_STAT_cur (t.get PWR.PL_CTRL_target)
  { t with pwr := { t.pwr with
    sleep := .run, restExit := false, pairEn := false, resume := en
    domWaking := t.pwr.domWaking ||| (up &&& ~~~t.pwr.domOn) } }.refreshEff.prtUpdate

/-- A waking domain reports ready (R54, R430): what waits for it in the domain itself. The accesses that stall for it follow in Jobs.lean
(log 81). -/
def State.domainUp (s : State) (d : Nat) : State :=
  if s.on d ∨ !s.pwr.domWaking.getLsbD d ∨ s.unreleased d then s
  else
    let lost := s.pwr.lost.getLsbD d
    let s := s.setDom d true
    let s : State := { s with pwr := { s.pwr with lost := setBit s.pwr.lost d false } }
    let s := if d = 2 ∧ s.pwr.restExit then s.restBack else s
    let s := if d = 2 ∧ s.pwr.wakeSeen then ({ s with pwr := { s.pwr with wakeSeen := false } }).raise PWR.base 4 else s
    let s := s.resumeChans d lost
    if 3 ≤ d ∧ d < 11 ∧ s.pwr.resume.getLsbD (d - 3) then
      (let c := d - 3
       ({ s with pwr := { s.pwr with resume := setBit s.pwr.resume c false } }).setCore c
        { Core.reset with mode := .running, pc := s.get (PWR.RESUME_pc c) })
    else if 22 ≤ d ∧ d < 26 ∧ s.portState (d - 22) = 4 ∧ s.portEn (d - 22) then s.train (d - 22)
    else s

/-! ## Commands -/

/-- Meaning of LEVEL_CHANGE_REQUEST: a write of `PL_CTRL`. -/
def execLevelChangeRequest (id : ReqId) (data : Word) (s : State) : Host.Outcome State Fault Refusal :=
  .next (s.writeCmd id PWR.PL_CTRL data (·.plCtrlWrite data))

/-- Meaning of VID_STEP. -/
def execVidStep (s : State) : Host.Outcome State Fault Refusal := .next s.vidStep

/-- Meaning of VOK_RISE. -/
def execVokRise (s : State) : Host.Outcome State Fault Refusal := .next s.vokRise

/-- Meaning of VOK_TIMEOUT. -/
def execVokTimeout (s : State) : Host.Outcome State Fault Refusal := .next s.vokTimeout

/-- Meaning of VOK_FALL. -/
def execVokFall (s : State) : Host.Outcome State Fault Refusal := .next s.vokFall

/-- Meaning of SLEEP_IDLE_REQUEST: a write of `SLEEP_CTRL`. -/
def execSleepIdleRequest (id : ReqId) (data : Word) (s : State) : Host.Outcome State Fault Refusal :=
  .next (s.writeCmd id PWR.SLEEP_CTRL data (·.sleepCtrlWrite data))

/-- Meaning of SLEEP_REST_REQUEST: a write of `SLEEP_CTRL`. -/
def execSleepRestRequest (id : ReqId) (data : Word) (s : State) : Host.Outcome State Fault Refusal :=
  .next (s.writeCmd id PWR.SLEEP_CTRL data (·.sleepCtrlWrite data))

/-- Meaning of SLEEP_DORMANT_REQUEST: a write of `SLEEP_CTRL`. -/
def execSleepDormantRequest (id : ReqId) (data : Word) (s : State) : Host.Outcome State Fault Refusal :=
  .next (s.writeCmd id PWR.SLEEP_CTRL data (·.sleepCtrlWrite data))

/-- Meaning of SLEEP_RUN_REQUEST: a write of `SLEEP_CTRL`. -/
def execSleepRunRequest (id : ReqId) (data : Word) (s : State) : Host.Outcome State Fault Refusal :=
  .next (s.writeCmd id PWR.SLEEP_CTRL data (·.sleepCtrlWrite data))

/-- Meaning of PREPARE_ANSWER. -/
def execPrepareAnswer (s : State) : Host.Outcome State Fault Refusal := .next s.prepareAnswer

/-- Meaning of PREPARE_TIMEOUT. -/
def execPrepareTimeout (s : State) : Host.Outcome State Fault Refusal := .next s.prepareTimeout

/-- Meaning of SLEEP_COMMIT. -/
def execSleepCommit (s : State) : Host.Outcome State Fault Refusal := .next s.sleepCommit

/-- Meaning of DOMAIN_OFF_REQUEST: a write of `DOM_CTRL`. -/
def execDomainOffRequest (id : ReqId) (data : Word) (s : State) : Host.Outcome State Fault Refusal :=
  .next (s.writeCmd id PWR.DOM_CTRL data (·.domCtrlWrite data))

/-- Meaning of DOMAIN_ON_REQUEST: a write of `DOM_CTRL`. -/
def execDomainOnRequest (id : ReqId) (data : Word) (s : State) : Host.Outcome State Fault Refusal :=
  .next (s.writeCmd id PWR.DOM_CTRL data (·.domCtrlWrite data))

/-- Meaning of WAKE_N_LOW. -/
def execWakeNLow (s : State) : Host.Outcome State Fault Refusal := .next (s.wakeSource 1)

/-- Meaning of WAKE_TIMER: device time reaches `WAKE_T`. -/
def execWakeTimer (s : State) : Host.Outcome State Fault Refusal := .next ((s.atCt (s.rd64 PWR.WAKE_T_LO)).wakeSource 2)

/-- Meaning of QUIET_SIGNAL_DETECT (R293, R446): the port leaves Quiet; in Idle it is wake source 3. -/
def execQuietSignalDetect (q : Fin 4) (s : State) : Host.Outcome State Fault Refusal :=
  .next (if s.portState q = 3 then
      (let t := (s.portWake q).raise (PORT.base q) 5
       if t.pwr.sleep = .idle then t.wakeSource 3 else t)
    else s)

end Sys2Proof.Machine
end

