-- ==== Sys2Proof/Machine/Reset.lean ====
section
/-!
DEFINITION. Resets and their sources (R450 to R454), the release sequence and the option load (R455 to R460), the state pins
(R461), pins through a warm reset (R463), the boot controller (R464 to R468).
-/
namespace Sys2Proof.Machine

/-! ## State pins (R461) -/

/-- A reset is asserted. -/
def State.inReset (s : State) : Bool := !s.rst.held.isEmpty

/-- The code on STAT[2:0] (log 82). -/
def State.statCode (s : State) : Nat :=
  if s.rst.optFault then 5
  else if s.inReset then (if s.rst.warm || !([0, 1, 7].any s.rst.held.contains) then 2 else 0)
  else if s.rst.next.isSome then (if s.refclk then 2 else 1)
  else if s.pwr.sleep ≠ .run then 6
  else match s.rst.boot with
  | .halted => 7
  | .failed => 7
  | .done => 4
  | _ => 3

/-- `STATE.phase`. -/
def State.relPhase (s : State) : Nat :=
  match s.rst.next with
  | some n =>
    if !s.refclk then 1
    else if s.rst.optLoading then 3
    else if n = 1 ∧ s.rst.optLoaded ∧ (s.vid ≠ s.pwr.goal ∨ !s.pwr.vok ∨ s.rst.vidOff.isSome) then 2
    else 4
  | none => (match s.rst.boot with | .done => 0 | .halted => 0 | _ => 5)

/-! ## What a reset clears (R454) -/

/-- A warm reset keeps the taps of lane l (R291): its port has keep_train = 1, which is the enabled port of the lane, else a port
configured over it (log 108). -/
def State.keepsTaps (s : State) (l : Nat) : Bool :=
  match s.laneOwner l with
  | some q => s.flag (PORT.CFG_keep_train q)
  | none => (List.range 4).any fun q => s.flag (PORT.CFG_keep_train q) && (s.portLanes q).contains l

/-- A register word after a warm reset: its Warm column, with the values that a rule keeps (R90, R253, R271, R291, R50, R483; log 83). -/
def State.warmValue (s : State) (a : Nat) (v : Word) : Word :=
  let w := warmWord s.otp a v
  if a = CLK.PLL_STAT ∨ a = RST.LAST then v
  else if a = RST.GAP then BitVec.ofNat 32 (setBits v.toNat RST.GAP_now.lo RST.GAP_now.w (bitsOf v.toNat RST.GAP_gap.lo RST.GAP_gap.w))
  else if pageBase a = SEC.base ∧ SEC.MEAS_ROM 0 ≤ a ∧ a ≤ SEC.MEAS_ROM 7 then v
  else if pageBase a = BIA.base ∧ BIA.CFG 0 ≤ a ∧ a < BIA.CFG 96 then
    let j := (a - BIA.CFG 0) / 16
    let r := a % 16
    if j < 80 then (if r = 8 then v &&& 0x1FFFF#32 else w)
    else if r = 4 then 0 else if r = 8 then 0x10000#32 else w
  else if a = PAR.STAT then w ||| (v &&& 0x10#32)
  else if (a = SYS.CLAIM 42 ∨ a = SYS.CLAIM 43) ∧ s.flag THM.STAT_halt ∧ v.toNat % 256 = 255 then v
  else
    let l := (a - LANE.base 0) / 0x1000
    if LANE.base 0 ≤ a ∧ a < LANE.base 16 ∧ LANE.DFE_TAP l 0 ≤ a ∧ a ≤ LANE.DFE_TAP l 11 then (if s.keepsTaps l then v else 0)
    else w

/-- FEC pins through a warm reset (R78, R463): every pin is held, those fused safe on warm at their safe level. -/
def State.warmFec (s : State) : Timer :=
  let safe := s.otp.fecSafeOnWarm
  { Timer.reset with
    tsyncOut := s.timer.tsyncOut
    fecPulldown := s.timer.fecPulldown
    fesIdle := s.timer.fesIdle
    fecHold := 0xFFFFFFFF
    fecLevel := (s.timer.fecLevel &&& ~~~safe) ||| (s.otp.fecSafe &&& safe) }

/-- The pair after a reset of the device's own: an active device has lost mastership, is muted and has released its bias pins (R236, R239, R355), and
stays so until its firmware writes `PAR.CFG` (log 106). -/
def State.warmPair (s : State) : Pair :=
  let lost := decide (s.get PAR.STAT_role = 2) || (s.pair.lost && !s.flag PAR.CFG_en)
  { Pair.reset with mute := lost, hiz := lost, lost := lost }

/-- Everything takes its warm value. -/
def State.warmClear (s : State) : State :=
  let m := ((s.wipe 0x30000000 0x30280000).wipe 0x34000000 0x34007800).wipe 0x38000000 0x38005000
  { State.reset with
    pending := s.pending, now := s.now, dev := s.dev, refclk := s.refclk, otp := s.otp, drawn := s.drawn, resp := s.resp
    logged := s.logged, gpioPins := s.gpioPins, jtag := s.jtag, cells := s.cells, rst := s.rst, pwr := s.pwr, mgt := s.mgt
    stalled := s.stalled.filter fun a => a.id = 1
    regs := s.regs.filterMap fun (e : Nat × Word) =>
      let v := s.warmValue e.1 e.2
      if v = coldWord s.otp e.1 then none else some (e.1, v)
    mem := m.mem, upsets := m.upsets, poison := m.poison
    timer := s.warmFec
    auxTick := s.auxTick
    pair := s.warmPair
    cnv := { Cnv.reset with lost := s.cnv.lost, railLost := s.cnv.railLost, romChecks := s.cnv.romChecks }
    thm := { Thm.reset with above := s.thm.above }
    sec := { Sec.reset with drawn := s.sec.drawn } }

/-! ## Assertion (R450 to R453) -/

/-- A source acts on the reset controller (R450, R453): its `CAUSE` bit, its hold, and `LAST`. -/
def State.resetBy (s : State) (b : Nat) (warm : Bool) : State :=
  let t := s.set ⟨RST.CAUSE, b, 1⟩ 1
  let t := t.set RST.GAP_now (t.get RST.GAP_gap)
  let again := (t.rst.next.isSome || !t.rst.held.isEmpty) && t.rst.lastAt = t.now
  { t.set RST.LAST_src (if again then min t.rst.last b else b) with
    shadow := [], stage := []
    rst := { t.rst with
      held := if t.rst.held.contains b then t.rst.held else t.rst.held ++ [b]
      warm := warm, dormant := false, measure := t.rst.measure || !warm
      last := if again then min t.rst.last b else b
      lastAt := t.now
      next := some (if warm then 1 else 0)
      optLoading := false, vidOff := none, wdog := none, boot := .idle } }

/-- A load of the options that a reset interrupts is counted (R459). -/
def State.loadCut (s : State) : State := if s.rst.optLoading then s.count RST.OPT_RESTARTS_restarts 1 else s

/-- A cold reset from source b (R454, R457). In option fault only power-on, RST_N and the management port act (R460). -/
def State.coldReset (s : State) (b : Nat) : State :=
  if s.rst.optFault ∧ b ≠ 0 ∧ b ≠ 1 ∧ b ≠ 3 then s
  else
    let s := s.secCut.loadCut
    let vid := if b = 0 then 0 else s.vid
    let tki := s.get PAR.STAT_tki
    let t := s.coldClear (fun _ => false) false
    let t := ((if b = 0 then t else ((t.wr RST.CAUSE (s.rd RST.CAUSE)).set RST.GAP_gap (s.get RST.GAP_gap)).set RST.OPT_RESTARTS_restarts
      (s.get RST.OPT_RESTARTS_restarts)).set PWR.PL_STAT_vid vid).set PAR.STAT_tki tki
    let t : State := { t with
      dev := 0
      pair := if b = 0 then Pair.reset else s.warmPair
      pwr := { Pwr.reset with domOn := 1, assist := .level 2, domWaking := 0x7FFFFFE, goal := vid, vidAt := t.now, vok := s.pwr.vok, railsOut := s.pwr.railsOut }
      timer := { t.timer with fecPulldown := true }
      rst := { t.rst with optLoaded := false, optFault := false, aonUp := t.rst.aonUp && b != 0 } }
    (t.prtUpdate.railsHold).resetBy b false

/-- A warm reset from source b. While a cold reset has not yet released AON it only holds the release (R453). -/
def State.warmReset (s : State) (b : Nat) : State :=
  if s.rst.optFault then s
  else if !s.rst.warm ∧ s.rst.next = some 0 then
    let t := s.set ⟨RST.CAUSE, b, 1⟩ 1
    { t with rst := { t.rst with
        held := if t.rst.held.contains b then t.rst.held else t.rst.held ++ [b]
        last := if t.rst.lastAt = t.now then min t.rst.last b else t.rst.last } }
  else
    let s := s.secCut.loadCut
    let t := s.warmClear
    let code := levelCode (t.get PWR.PL_STAT_cur)
    let t := t.rampTo code
    let t : State := { t with
      pwr := { t.pwr with
        domOn := 1, domWaking := 0x7FFFFFE, domRetained := 0, sleep := .run, assist := .level (t.get PWR.PL_STAT_cur), change := none, hand := none, waiting := none, offTodo := []
        wakeSeen := false, idleExitBt := none, quieted := false, restExit := false, resume := 0, lost := 0, pairEn := false } }
    (t.prtUpdate.railsHold).resetBy b true

/-- A source stops asserting; with none left the release sequence begins (R451). -/
def State.resetRelease (s : State) (b : Nat) : State :=
  if s.rst.held.contains b then
    { s with rst := { s.rst with held := s.rst.held.filter (· ≠ b), stepAt := s.now } }
  else s

/-! ## Boot (R464 to R468, R474, R481, R483) -/

/-- Staging of an image from the QSPI flash at an offset: as many bytes as its length field says, at most 8 MiB. -/
def State.stageFlash (s : State) (off : Nat) (src : BootSrc) : State :=
  let byte (i : Nat) : Nat := (Config.flash (off + i)).toNat
  let len := byte 8 + 256 * byte 9 + 65536 * byte 10 + 16777216 * byte 11
  let n := max 96 (min len (2 ^ 23))
  let t := s.putClean 0x20000000 ((List.range n).map fun i => Config.flash (off + i))
  { t with rst := { t.rst with boot := .checking src 0x20000000 len } }

/-- The boot source that BOOT[1:0] names (R465). -/
def State.bootStraps (s : State) : State :=
  match s.get RST.BOOT_STAT_straps with
  | 1 =>
    let t := (s.wr (PORT.CFG 0) (coldWord s.otp (PORT.CFG 0))).portEnable 0 true
    let alloc (t : State) (i fid dir : Nat) : State :=
      t.setParityWord (flowAddr i 0) (BitVec.ofNat 32 (2 ^ 31 + dir * 2 ^ 18 + 3 * 2 ^ 12 + fid))
    let t := (alloc (alloc t 0 0 0) 1 1 1).setParityWord (flowAddr 0 1) 1
    { t with
      link := { t.link with alloc := [0, 1] ++ t.link.alloc }
      rst := { t.rst with boot := .waitHost } }
  | 2 => s.stageFlash 0 .primary
  | 3 => { s with rst := { s.rst with boot := .halted } }
  | _ => { s with rst := { s.rst with boot := .waitHost } }

/-- The boot controller starts (R465): at a cold reset or an exit from Dormant it measures the boot ROM; it derives the identity key. -/
def State.bootStart (s : State) : State :=
  let t := (if s.rst.measure then s.measureRom else s).deriveIdentity
  let t : State := { t with rst := { t.rst with measure := false } }
  if (t.rst.warm ∨ t.rst.dormant) ∧ t.flag RST.WBOOT_en then
    { t with rst := { t.rst with boot := .checking .retention 0x18000000 (t.get RST.WBOOT_len) } }
  else t.bootStraps

/-- A write of `BOOT_CMD` (R465, R466). -/
def State.bootCmd (s : State) (v : Word) : State :=
  if !bit v 0 then s
  else match s.rst.boot with
  | .halted => s.logErr RST.base 0x43 RST.BOOT_CMD
  | .idle => s.logErr RST.base 0x42 RST.BOOT_CMD
  | .checking _ _ _ => s.logErr RST.base 0x42 RST.BOOT_CMD
  | _ => { s with rst := { s.rst with boot := .checking .host 0x20000000 (s.get RST.BOOT_LEN_bytes) } }

/-- An accepted image (R468, R474, R483): its segments are copied, it is recorded, and the cores that it names start (log 89); the first
after an exit from Dormant starts the cores of `RESUME_c` where that says (R444; log 133). -/
def State.bootAccept (s : State) (src : BootSrc) (base : Nat) : State :=
  let f := s.imgField base
  let d := (sha256 (s.bytes base (f 8 4 - 7856))).toNat
  let t := (List.range (f 6 2)).foldl (fun (t : State) i =>
    let g := s.imgSeg base i
    t.copyWords (base + g.2.2) g.1 (g.2.1 / 4)) s
  let t := (List.range 8).foldl (fun (t : State) n => t.wr (SEC.MEAS_IMG n) (BitVec.ofNat 32 (d / 2 ^ (32 * n)))) t
  let t := (t.set SEC.IMG_slot (f 12 1)).set SEC.IMG_rollback (f 13 1)
  let t := ((t.setFlag RST.BOOT_STAT_ret (src = .retention)).setFlag RST.BOOT_STAT_backup (src = .backup)).set RST.BOOT_STAT_slot (f 12 1)
  let t := (t.set RST.BOOT_STAT_accepted 1).raise RST.base 1
  let t := (List.range 8).foldl (fun (t : State) c =>
    let re : Bool := s.rst.dormant && s.get RST.BOOT_STAT_accepted == 0 && s.flag (PWR.RESUME_en c)
    if (f 14 1).testBit c ∨ re then
      (let pc := if re then s.get (PWR.RESUME_pc c) else f (16 + 2 * c) 2 % 8192
       if (t.core c).mode = .halted then t.setCore c { t.core c with mode := .running, pc := pc } else t)
    else t) t
  { t with rst := { t.rst with boot := .done }, sec := { t.sec with imgRoll := some (f 13 1) } }

/-- Every core is halted (R468). -/
def State.coresStop (s : State) : State := (List.range 8).foldl (fun (t : State) c => if (t.core c).active then t.coreHalt c else t) s

/-- The verification of an image, which reads the whole of it (log 89), ends (R465, R466, R474); a failure leaves every core halted
(R468). -/
def State.bootChecked (s : State) : State :=
  match s.rst.boot with
  | .checking src base len =>
    let s := if ((memAt base).bind secdedIndex).isSome then s.engineCheck base len else s
    let r := s.imgResult base len
    let t := match s.imgDetected base len with
      | some a => s.landingDetect a
      | none => s
    let t := t.set RST.BOOT_STAT_result r
    if r = 1 then t.bootAccept src base
    else
      let t := (t.raise RST.base 2).coresStop
      (match src with
      | .retention => t.bootStraps
      | .primary => t.stageFlash 0x800000 .backup
      | .backup => { t with rst := { t.rst with boot := .failed } }
      | .host => { t with rst := { t.rst with
          boot := if t.get RST.BOOT_STAT_straps = 2 ∧ !t.flag RST.BOOT_STAT_accepted then .failed else .waitHost } })
  | _ => s

/-! ## Release (R455 to R459) -/

/-- The order of the releases from SEC on (R455). -/
def relAfter (d : Nat) : Option Nat :=
  if d = 1 then some 2 else if d = 2 then some 11 else if d = 11 then some 3 else if d = 10 then some 12
  else if d = 26 then none else some (d + 1)

/-- The release of AON (R455, R462): device time restarts, the straps are sampled, VID starts toward PL2. -/
def State.releaseAon (s : State) : State :=
  let t : State := { s with dev := 0 }
  let t := (t.set RST.BOOT_STAT_straps t.rst.bootPins.toNat).rampTo 0x5A
  { t with rst := { t.rst with aonUp := true, madr := t.rst.madrPins, next := some 1, stepAt := t.now } }

/-- The last release is done: `LAST`, the level that Dormant kept (R449), and the boot controller. -/
def State.releaseEnd (s : State) : State :=
  let t : State := { s.set RST.LAST_src s.rst.last with rst := { s.rst with next := none } }
  let t := if t.rst.dormant then t.levelStart (t.get PWR.PL_CTRL_target) else t
  t.bootStart

/-- The next step of the release sequence (R455, R457, R458): not while a source asserts, REFCLK is absent, the options load, or
SEC waits for VOK. The second step is the option load, where none stands. -/
def State.releaseStep (s : State) : State :=
  if s.inReset ∨ !s.refclk ∨ s.rst.optFault ∨ s.rst.optLoading then s
  else match s.rst.next with
  | none => if s.rst.boot = .idle then s.bootStart else s
  | some 0 => s.releaseAon
  | some n =>
    if n = 1 ∧ !s.rst.optLoaded then
      let t := s.atNow (s.rst.stepAt + 32 * s.get RST.GAP_now)
      { t with rst := { t.rst with optLoading := true, stepAt := t.now } }
    else if n = 1 ∧ (s.vid ≠ s.pwr.goal ∨ !s.pwr.vok ∨ s.rst.vidOff.isSome) then s
    else
      let t := s.atNow (s.rst.stepAt + 32 * s.get RST.GAP_now)
      let t : State := { t with rst := { t.rst with stepAt := t.now } }
      (match relAfter n with
      | some m => { t with rst := { t.rst with next := some m } }
      | none => t.releaseEnd)

/-- The option load ends (R459): with a bad CRC it repeats, and the third consecutive failure is option fault (R460). -/
def State.optionDone (s : State) (ok : Bool) : State :=
  if !s.rst.optLoading ∨ !s.refclk then s
  else
    let t := s.atNow (s.rst.stepAt + usCt 96)
    let t : State := { t with rst := { t.rst with stepAt := t.now } }
    if ok then
      let t : State := { t with
        rst := { t.rst with optLoading := false, optLoaded := true }
        timer := { t.timer with fecPulldown := false } }
      (t.set RST.OPT_RESTARTS_crc_fail 0).fecUpdate
    else
      let t := t.count RST.OPT_RESTARTS_crc_fail 1
      if t.get RST.OPT_RESTARTS_crc_fail < 3 then t
      else
        let t : State := { t with
          rst := { t.rst with optLoading := false, optFault := true }
          pwr := { t.pwr with domOn := 1, domWaking := 0 } }
        t.rampTo 0

/-- VOK is not high 1 ms after the last code of a cold reset (R457): VID steps to 0. -/
def State.resetVokTimeout (s : State) : State :=
  if s.rst.next = some 1 ∧ !s.rst.warm ∧ !s.inReset ∧ s.rst.vidOff.isNone ∧ s.vid = s.pwr.goal ∧ !s.pwr.vok then
    let t := (s.atNow (s.lastCode + usCt 1000)).rampTo 0
    { t with rst := { t.rst with vidOff := some t.now } }
  else s

/-- After 10 ms with VID at 0 the ramp to PL2 starts again (R457). -/
def State.resetVokRetry (s : State) : State :=
  match s.rst.vidOff with
  | some t =>
    if s.vid = 0 then
      let u := (s.atNow (t + usCt 10000)).rampTo 0x5A
      { u with rst := { u.rst with vidOff := none } }
    else s
  | none => s

/-! ## Register writes of the RST page -/

/-- A write of `GAP` (R456). -/
def State.gapWrite (s : State) (v : Word) : State :=
  if bits v 0 11 < 8 ∨ 1024 < bits v 0 11 then s.logErr RST.base 0x40 RST.GAP else s.set RST.GAP_gap (bits v 0 11)

/-- A write of `SWRST` (R452). -/
def State.swrstWrite (s : State) (v : Word) : State :=
  if v = 0x57530001#32 then s.warmReset 9 else s.logErr RST.base 0x41 RST.SWRST

/-- The deadline of the device watchdog (R452). -/
def State.wdogArm (s : State) : State :=
  let t := s.get RST.WDOG_timeout
  { s with rst := { s.rst with wdog := if t = 0 then none else some (s.now + usCt (1000 * t)) } }

/-- A write of `WDOG`. -/
def State.wdogWrite (s : State) (v : Word) : State := (s.set RST.WDOG_timeout (bits v 0 16)).wdogArm

/-- A write of `WDOG_KICK`. -/
def State.wdogKick (s : State) (v : Word) : State :=
  if bits v 0 16 = 0xC3C3 then s.wdogArm else s.logErr RST.base 0x41 RST.WDOG_KICK

/-- A write of `WBOOT` (R467). -/
def State.wbootWrite (s : State) (v : Word) : State :=
  if 196608 < bits v 0 18 then s.logErr RST.base 0x40 RST.WBOOT
  else (s.set RST.WBOOT_len (bits v 0 18)).set RST.WBOOT_en (bits v 31 1)

/-- A write of `DUMP_PTR` (R469). -/
def State.dumpPtrWrite (s : State) (v : Word) : State :=
  if memAt (1024 * bits v 10 22) = some .cmem then s.set RST.DUMP_PTR_base (bits v 10 22) else s.logErr RST.base 0x40 RST.DUMP_PTR

/-- A write of `DUMP_MARK`: zero clears lost (R469). -/
def State.dumpMarkWrite (s : State) (v : Word) : State :=
  let t := s.set RST.DUMP_MARK_mark (bits v 0 16)
  if bits v 0 16 = 0 then t.set RST.DUMP_MARK_lost 0 else t

/-! ## Commands -/

/-- Meaning of POWER_ON_RESET. -/
def execPowerOnReset (s : State) : Host.Outcome State Fault Refusal := .next (s.coldReset 0)

/-- Meaning of RST_N_LOW. -/
def execRstNLow (s : State) : Host.Outcome State Fault Refusal := .next (s.coldReset 1)

/-- Meaning of WRST_N_LOW. -/
def execWrstNLow (s : State) : Host.Outcome State Fault Refusal := .next (s.warmReset 2)

/-- Meaning of PEER_RSTI_N_LOW: it acts while the pair is enabled. -/
def execPeerRstiNLow (s : State) : Host.Outcome State Fault Refusal :=
  .next (if s.flag PAR.CFG_en ∨ s.pwr.pairEn then s.warmReset 8 else s)

/-- Meaning of RESET_PIN_RELEASE. -/
def execResetPinRelease (pin : ResetPin) (s : State) : Host.Outcome State Fault Refusal :=
  .next (s.resetRelease (match pin with | .rstN => 1 | .wrstN => 2 | .peerRstiN => 8))

/-- Meaning of POWER_ON_RELEASE: 1 ms after VAON has become valid, and not while it is out of its window (R450, R504). -/
def execPowerOnRelease (s : State) : Host.Outcome State Fault Refusal :=
  .next (if s.pwr.railsOut.contains .vaon then s else s.resetRelease 0)

/-- Meaning of INTERNAL_RESET_RELEASE: the internal sources end after 2 µs. -/
def execInternalResetRelease (s : State) : Host.Outcome State Fault Refusal :=
  .next (if [3, 4, 5, 6, 9, 10].any s.rst.held.contains then
      [3, 4, 5, 6, 9, 10].foldl State.resetRelease (s.atNow (s.rst.lastAt + usCt 2))
    else s)

/-- Meaning of SOFTWARE_RESET: a write of `SWRST`. -/
def execSoftwareReset (id : ReqId) (data : Word) (s : State) : Host.Outcome State Fault Refusal :=
  .next (s.writeCmd id RST.SWRST data (·.swrstWrite data))

/-- Meaning of DEVICE_WATCHDOG_KICK: a write of `WDOG_KICK`. -/
def execDeviceWatchdogKick (id : ReqId) (data : Word) (s : State) : Host.Outcome State Fault Refusal :=
  .next (s.writeCmd id RST.WDOG_KICK data (·.wdogKick data))

/-- Meaning of RELEASE_STEP. -/
def execReleaseStep (s : State) : Host.Outcome State Fault Refusal := .next s.releaseStep

/-- Meaning of OPTION_LOAD_DONE. -/
def execOptionLoadDone (crcOk : Bool) (s : State) : Host.Outcome State Fault Refusal := .next (s.optionDone crcOk)

/-- Meaning of RESET_VOK_TIMEOUT. -/
def execResetVokTimeout (s : State) : Host.Outcome State Fault Refusal := .next s.resetVokTimeout

/-- Meaning of RESET_VOK_RETRY. -/
def execResetVokRetry (s : State) : Host.Outcome State Fault Refusal := .next s.resetVokRetry

/-- Meaning of BOOT_GO: a write of `BOOT_CMD`. -/
def execBootGo (id : ReqId) (data : Word) (s : State) : Host.Outcome State Fault Refusal :=
  .next (s.writeCmd id RST.BOOT_CMD data (·.bootCmd data))

/-- Meaning of BOOT_IMAGE_CHECKED. -/
def execBootImageChecked (s : State) : Host.Outcome State Fault Refusal := .next s.bootChecked

end Sys2Proof.Machine
end

