-- ==== Sys2Proof/Machine/View.lean ====
section
/-!
DEFINITION. What a register reads as (R9): the stored word, and the registers that show state held elsewhere: identities and block
status (R522, R42), claim mirrors (R51), statuses, maps and figures of the blocks.
-/
namespace Sys2Proof.Machine

/-- A truth value as a bit at a place. -/
def at_ (b : Bool) (n : Nat) : Nat := if b then 2 ^ n else 0

/-- The claims that a page's `CLAIM` register mirrors (R47, R51). -/
def pageClaims (k : PageKind) (n : Nat) : List Nat :=
  match k with
  | .ftm => List.range 16 ++ [48, 49, 50]
  | .sys => (List.range 16).map (16 + ·) ++ [51, 52, 53, 54]
  | .std => [32 + n]
  | .scl => [40, 41]
  | .lnd => [42]
  | .txc => [43]
  | .port => [44 + n]
  | _ => []

/-- The state of a domain as `BLK_STAT.dom` shows it (R42). -/
def State.domCode (s : State) (d : Nat) : Nat :=
  if s.on d then 2 else if s.pwr.domWaking.getLsbD d then 1 else if s.pwr.domRetained.getLsbD d then 3 else 0

/-- The block holds work in progress (R42; the choice of what counts is in log 30). -/
def State.busy (s : State) (k : PageKind) (n : Nat) : Bool :=
  match k with
  | .rst => s.rst.next.isSome || (match s.rst.boot with | .checking _ _ _ => true | _ => false)
  | .pwr => s.pwr.change.isSome || s.pwr.hand.isSome
  | .sec => s.sec.job.isSome
  | .yrd => s.chans.any (·.desc.isSome)
  | .ych => (s.chan n).desc.isSome
  | .mgt => s.mgt.busy
  | .ftm => s.running
  | .scl => s.scl.any fun c => c.conv.isSome || c.cal = 2
  | .bia => s.bias.any (·.change.isSome)
  | .par => s.pair.take != .idle || s.pair.pass.isSome
  | .core => (s.core n).active
  | .bf => s.bf.sealing.isSome
  | .dpd => (List.range 8).any fun u => (s.dpdPath (8 * n + u)).fade.isSome
  | .txc => s.txSlices.any Slice.active || s.cnv.play.isSome
  | .rxc => s.rxSlices.any Slice.active
  | .port => s.portState n = 1
  | .pnl => !s.mgmt.isEmpty
  | .lnd => s.capture.isSome
  | .mem => s.flag MEM.CRU_CTRL_en && s.cru.walk.isSome
  | _ => false

/-- `BLK_STAT` of a page (R42). -/
def State.blkStat (s : State) (k : PageKind) (n pg : Nat) : Nat :=
  let d := domOfPage k n
  at_ (s.on d && !s.unreleased d) 0 + at_ (s.busy k n) 1 + 4 * s.domCode d +
    at_ ((pageClaims k n).any fun c => s.owner c != 0) 4 + at_ (s.get (HDR.ERR_CODE_count pg) != 0) 5

/-- `CLAIM` of a page (R51). -/
def State.claimWord (s : State) (k : PageKind) (n pg : Nat) : Nat :=
  let l := pageClaims k n
  if l.isEmpty then 0
  else
    let i := s.get (HDR.CLAIM_sel pg)
    i + 256 * (match l[i]? with | some c => s.owner c | none => 0) + 65536 * l.length

/-- The header word at an offset below 0x040 (R41). -/
def State.viewHdr (s : State) (k : PageKind) (n pg off : Nat) : Nat :=
  if off = 0x00 then 65536 * blockType k + 256 * n + 1
  else if off = 0x04 then 1
  else if off = 0x0C then s.blkStat k n pg
  else if off = 0x20 then s.claimWord k n pg
  else (s.rd (pg + off)).toNat

/-- The neighbours of a temperature site (R259). -/
def thmNbr (t : Nat) : List Nat :=
  let chain (lo hi : Nat) : List Nat := if t = lo then [t + 1, t + 2] else if t = hi then [t - 2, t - 1] else [t - 1, t + 1]
  if t < 16 then chain 0 15
  else if t < 24 then chain 16 23
  else if t < 28 then chain 24 27
  else if t < 34 then chain 28 33
  else if t = 34 then [35, 36]
  else if t = 35 then [34, 37]
  else [36, 37, 38, 39].filter (· != t)

/-- `NBR_t`: unused neighbours read 0x3F (R273). -/
def thmNbrWord (t : Nat) : Nat :=
  let l := thmNbr t
  l.getD 0 0x3F + 256 * l.getD 1 0x3F + 65536 * l.getD 2 0x3F

/-- Sites that are marked suspect (R261). -/
def State.suspect (s : State) (t : Nat) : Bool := (s.rd64 THM.SUSPECT_LO).testBit t

/-- `CORE c .STAT` (R395). -/
def State.coreStat (s : State) (c : Nat) : Nat :=
  let m := match (s.core c).mode with
    | .halted => 0 | .running => 1 | .waiting => 2 | .fencing => 3 | .remote => 3
  setBits (s.rd (CORE.STAT c)).toNat 0 2 m

/-- `YCH k .STAT` (R412). -/
def State.chanStat (s : State) (k : Nat) : Nat :=
  let c := s.chan k
  let st := if c.halted then 3 else if c.paused then 2 else if c.desc.isSome then 1 else 0
  setBits (s.rd (YCH.STAT k)).toNat 0 3 (st + at_ (!c.paused && s.chanWaits k != 0) 2)

/-- Channels with a property, as a map. -/
def State.chanMap (s : State) (p : Chan → Bool) : Nat := (List.range 32).foldl (fun m k => m + at_ (p (s.chan k)) k) 0

/-- `PAR.DIRTY` (R357): dirty granules, and the age of the oldest in µs. -/
def State.dirtyWord (s : State) : Nat :=
  let lag := s.pair.dirty.foldl (fun m (e : Nat × Nat) => max m (s.now - e.2)) 0
  s.pair.dirty.length + 65536 * min 0xFFFF (lag * 100 / 786432)

/-- `DBG.ERR_SUM_w` (R490). -/
def State.errSum (s : State) (w : Nat) : Nat :=
  (List.range 32).foldl (fun m i =>
    m + at_ ((pageOfNumber (32 * w + i)).isSome && s.get (HDR.ERR_CODE_count (0x40000000 + 0x1000 * (32 * w + i))) != 0) i) 0

/-- `PL_STAT` (R449). -/
def State.plStat (s : State) : Nat :=
  let v := (s.rd PWR.PL_STAT).toNat
  setBits (setBits v 2 2 s.needLevel) 4 2 (at_ s.pwr.change.isSome 0 + at_ s.pwr.vok 1)

/-- `PORT q .STAT`: a wake that is under way shows Quiet until the port is up (R292, R300). -/
def State.portStat (s : State) (q : Nat) : Nat :=
  let v := (s.rd (PORT.STAT q)).toNat
  if s.portState q = 2 ∧ s.ct < (s.pst q).up then setBits v 0 3 3 else v

/-- The lanes of port q as a map (R300). -/
def State.lanesMap (s : State) (q : Nat) : Nat := (s.portLanes q).foldl (fun m l => m + 2 ^ l) 0

/-- The checker count that `PRBS_SEL` selects (R298). -/
def State.prbsSel (s : State) (q : Nat) : Nat := s.get (PORT.PRBS_SEL_l q)

/-- A register of a page from offset 0x040 on that shows state held elsewhere; every other reads as stored. -/
def State.viewBody (s : State) (k : PageKind) (n a off : Nat) : Nat :=
  let v := (s.rd a).toNat
  match k with
  | .sys =>
    if a = SYS.ID then s.sysId else if a = SYS.TIME_LO then s.dev.toNat else if a = SYS.TIME_HI then s.dev.toNat / 2 ^ 32
    else if a = SYS.GPIO_IN then s.gpioIn else v
  | .rst => if a = RST.STATE then s.statCode + 16 * s.relPhase + 256 * s.rst.next.getD 0 else v
  | .pwr =>
    if a = PWR.PL_STAT then s.plStat
    else if a = PWR.SLEEP_STAT then setBits v 2 1 (at_ (s.pwr.hand.isSome || ((s.pwr.sleep = .rest || s.pwr.sleep = .dormant) && !s.pwr.restExit && s.vid != s.pwr.goal)) 0)
    else if a = PWR.DOM_ON then s.pwr.domOn.toNat
    else if a = PWR.WAKE_EN then setBits v 0 1 1
    else v
  | .thm =>
    if a = THM.STAT then
      setBits (setBits v 3 1 (at_ (!s.refclk) 0)) 16 6
        (((List.range 40).filter s.suspect).length)
    else if a = THM.CEIL then s.otp.thermCeil + 65536 * s.otp.grade
    else if 0x200 ≤ off ∧ off < 0x2A0 then thmNbrWord ((off - 0x200) / 4)
    else v
  | .sec =>
    if a = SEC.SLOTS then s.otp.slotsWord
    else if a = SEC.ROLL then s.otp.rollCount
    else if a = SEC.LOCKS then s.locksWord
    else if 0x100 ≤ off ∧ off < 0x180 then (s.otp.slot ((off - 0x100) / 32)).hash.toNat / 2 ^ (8 * (off % 32))
    else if 0x200 ≤ off ∧ off < 0x220 then s.otp.idPk.toNat / 2 ^ (8 * (off % 32))
    else v
  | .yrd =>
    if a = YRD.ACTIVE then setBits v 8 1 (at_ ((List.range 32).any s.chanReady) 0)
    else if a = YRD.HALT_MAP then s.chanMap (·.halted)
    else if a = YRD.PAUSE_MAP then s.chanMap (·.paused)
    else if a = YRD.DOMREF then s.domRefs.toNat
    else v
  | .ftm =>
    if a = FTM.CTRL then setBits v 8 1 (at_ s.running 0)
    else if a = FTM.NEXT_CTRL then at_ (s.timer.pending.isSome || s.timer.taken.isSome) 1
    else v
  | .clk => if a = CLK.PLL_STAT then setBits v 1 1 (at_ s.refclk 0) else v
  | .bia =>
    if a = BIA.STAT then at_ (s.railOk .vaux) 0 + at_ (s.railOk .vneg) 1 + at_ s.pair.hiz 2
    else if 0xA00 ≤ off ∧ off < 0xA40 then s.otp.ceil ((off - 0xA00) / 4) + at_ (s.restGround (80 + (off - 0xA00) / 4)) 16
    else v
  | .prt =>
    if a = PRT.TRIP_RAW then s.tripRaw
    else if 0x180 ≤ off ∧ off < 0x1F0 then s.otp.minAct ((off - 0x180) / 4)
    else v
  | .par => if a = PAR.DIRTY then s.dirtyWord else v
  | .cas => if a = CAS.HOP then (match s.hopCt with | some h => h % 65536 + 65536 | none => 0) else v
  | .std => if a = STD.CNV_STAT n then s.cnvStat n else if a = STD.ZONE n then s.zoneWord n else v
  | .core =>
    if a = CORE.CTRL n then setBits v 0 1 (at_ (s.core n).active 0)
    else if a = CORE.STAT n then s.coreStat n
    else if a = CORE.IPC n then (s.core n).ipc % 8192
    else if a = CORE.IST n then (s.core n).ist.toNat
    else if a = CORE.INT_PEND_LO n then (s.intPend n).toNat
    else if a = CORE.INT_PEND_HI n then (s.intPend n).toNat / 2 ^ 32
    else v
  | .ych => if a = YCH.STAT n then s.chanStat n else v
  | .bf =>
    if a = BF.UNITS then s.units false + 65536 * s.units true
    else if a = BF.SEAL_STAT then setBits v 0 1 (at_ s.bf.sealing.isSome 0)
    else if a = BF.CTX_STATE then s.ctxState
    else if a = BF.BAD_MAP_LO then s.badMap
    else if a = BF.BAD_MAP_HI then s.badMap / 2 ^ 32
    else if a = BF.RCMP then (s.bf.rcmp.getD 0 0).toNat
    else if a = BF.RCMP_COUNT then setBits v 0 5 s.bf.rcmp.length
    else v
  | .dpd =>
    if a = DPD.BACKOFF n then s.otp.backoff + 65536 * s.otp.backoffDb
    else if a = DPD.RELOAD n then ((s.reload.getD n []).getD 0 0).toNat
    else if a = DPD.RELOAD_COUNT n then setBits v 0 4 (s.reload.getD n []).length
    else if 0x80 ≤ off ∧ off < 0xA0 then s.pathStat (8 * n + (off - 0x80) / 4)
    else if 0xC0 ≤ off ∧ off < 0xE0 then s.thetaQ (8 * n + (off - 0xC0) / 4) s.ct
    else v
  | .txc =>
    if 0x40 ≤ off ∧ off < 0x50 then s.sliceCfgWord true ((off - 0x40) / 4)
    else if a = TXC.CFR_STAT then s.cfrThreshold
    else if a = TXC.MUTE_STAT_LO then s.tx.muted.toNat
    else if a = TXC.MUTE_STAT_HI then s.tx.muted.toNat / 2 ^ 32
    else if a = TXC.MUTE_SRC then s.muteSrc
    else if a = TXC.ENV_CEIL then s.otp.envCeil
    else v
  | .rxc => if 0x40 ≤ off ∧ off < 0x50 then s.sliceCfgWord false ((off - 0x40) / 4) else v
  | .port =>
    if a = PORT.STAT n then s.portStat n
    else if a = PORT.LANES n then s.lanesMap n
    else if a = PORT.PRBS_ERR n then (s.prbsLane n (s.prbsSel n)).err
    else if a = PORT.PRBS_BITS_LO n then s.prbsBits n (s.prbsSel n)
    else if a = PORT.PRBS_BITS_HI n then s.prbsBits n (s.prbsSel n) / 2 ^ 32
    else v
  | .pnl =>
    if a = PNL.FLOW_COUNT then s.flowCountWord
    else if a = PNL.FLOW_STAT then setBits v 16 1 (at_ (s.link.cmd.any fun c => decide (s.now < c.2)) 0)
    else if a = PNL.STAGE_FREE then s.stageFree
    else if a = PNL.SESS_STAT then setBits v 24 1 (at_ s.otp.rstOk 0)
    else if 0x60 ≤ off ∧ off < 0x70 then s.loadWord ((off - 0x60) / 4)
    else v
  | .lnd => (match s.capture with
    | some c => if 0x100 ≤ off ∧ off < 0x200 ∧ !c.theta ∧ c.t0 < s.ct then s.thetaQ ((off - 0x100) / 4) c.t0 else v
    | none => v)
  | .dbg => if 0xA0 ≤ off ∧ off < 0xB0 then s.errSum ((off - 0xA0) / 4) else v
  | _ => v

/-- What the register at an address reads as now; reserved offsets read 0 (R11). -/
def State.view (s : State) (a : Nat) : Word :=
  match pageAt a with
  | some (k, n) =>
    let off := a % 0x1000
    if (rowAt k off).isNone then 0
    else BitVec.ofNat 32 (if off < 0x40 then s.viewHdr k n (pageBase a) off else s.viewBody k n a off)
  | none => 0

end Sys2Proof.Machine
end

