-- ==== Sys2Proof/Machine/Diag.lean ====
section
/-!
DEFINITION. Diagnostics and supplies: the freeze (R491, R492), fences of common SRAM (R487), the characterisation override (R496), the
IRQ_N pins (R489), the device watchdog's expiry (R452) and the rails (R504).
-/
namespace Sys2Proof.Machine

/-! ## Freeze -/

/-- What a frozen word is copied from (R491): a register, or nothing. -/
def freezeSource (n : Nat) : Option Nat :=
  if n = 2 then some RST.CAUSE else if n = 3 then some PWR.PL_STAT else if n = 4 then some PWR.SLEEP_STAT
  else if n = 5 then some PWR.RG_DEF_COUNT else if n = 6 then some THM.MAX else if n = 7 then some THM.STAT
  else if n = 8 then some PRT.ACT_STAT else if n = 9 then some TXC.MUTE_SRC else if n = 10 then some FTM.CUR_ENTRY
  else if n = 11 then some YRD.HALT_MAP else if n = 12 then some YRD.ACTIVE else if n = 13 then some BF.RCMP_COUNT
  else if 14 ≤ n ∧ n < 18 then some (PORT.STAT (n - 14))
  else if 24 ≤ n ∧ n < 64 then
    let c := (n - 24) / 5
    let r := (n - 24) % 5
    some (if r = 0 then CORE.STAT c else if r = 1 then CORE.IPC c else if r = 2 then CORE.IST c else if r = 3 then CORE.EXC c
      else CORE.EXC_ADDR c)
  else none

/-- Word n of a freeze taken now (R491); a register whose domain is off is copied as 0xDEAD_0BAD. -/
def State.freezeWord (s : State) (n : Nat) : Word :=
  if n = 0 then BitVec.ofNat 32 s.dev.toNat
  else if n = 1 then BitVec.ofNat 32 (s.dev.toNat / 2 ^ 32)
  else match freezeSource n with
    | none => 0
    | some a => (match domOf a with
      | some d => if s.on d then s.view a else 0xDEAD0BAD#32
      | none => 0)

/-- A freeze with a cause (R492): the first copies the registers; one at the same instant sets its bit; a later one counts as well. -/
def State.freeze (s : State) (cause : Nat) : State :=
  let mark (t : State) : State := t.set ⟨DBG.FRZ_STAT, 4 + cause, 1⟩ 1
  if s.flag DBG.FRZ_STAT_valid then (if s.rst.frozeAt = some s.now then mark s else mark (s.count DBG.FRZ_STAT_more 1))
  else
    let t := (List.range 64).foldl (fun (t : State) n => t.wr (DBG.FRZ n) (s.freezeWord n)) s
    let t : State := { t with rst := { t.rst with frozeAt := some t.now } }
    (mark (t.set DBG.FRZ_STAT_valid 1)).raise DBG.base 1

/-- A write of `FRZ_CMD` (R499). -/
def State.frzCmdWrite (s : State) (v : Word) : State :=
  let t := if bit v 0 then s.freeze 3 else s
  if bit v 1 then ((t.set DBG.FRZ_STAT_valid 0).set DBG.FRZ_STAT_cause 0).set DBG.FRZ_STAT_more 0 else t

/-! ## Fences, override, interrupt pins -/

/-- Banks of common SRAM that the dump region touches (R469, R487). -/
def State.dumpBanks (s : State) : Nat :=
  let lo := 1024 * s.get RST.DUMP_PTR_base
  let hi := lo + 1024 * s.get RST.DUMP_LEN_kib
  (List.range 16).foldl (fun m n =>
    m + at_ (decide (lo < 0x10000000 + (n + 1) * 0x40000) && decide (0x10000000 + n * 0x40000 < hi) && decide (lo < hi)) n) 0

/-- A write of `CMEM_FENCE` (R487). -/
def State.fenceWrite (s : State) (v : Word) : State :=
  if bits v 0 16 &&& s.dumpBanks = 0 then s.set DBG.CMEM_FENCE_bank (bits v 0 16)
  else s.logErr DBG.base 0x42 DBG.CMEM_FENCE

/-- A write of `CHAR` (R496). -/
def State.charWrite (s : State) (v : Word) : State :=
  if bit v 0 ∧ s.otp.dbgClosed then s.logErr DBG.base 0x43 DBG.CHAR else s.set DBG.CHAR_lvl_ovr (bits v 0 1)

/-- A write of word k = 4n + w of `IRQN_SEL` (R489): the pin acts for its writer while that holds claim 51 + n (log 33). While it acts, a
write of another requester has no effect (R49). -/
def State.irqnSelWrite (s : State) (id : ReqId) (k : Nat) (v : Word) : State :=
  let n := k / 4
  if s.holds (s.irqnWriter.getD n 0) (51 + n) ∧ !s.holds id (51 + n) then s.logErr DBG.base 0x03 (DBG.IRQN_SEL k) else
  let t : State := { s.wr (DBG.IRQN_SEL k) v with irqnWriter := s.irqnWriter.set n id }
  if t.holds id (51 + n) then t else t.logErr DBG.base 0x03 (DBG.IRQN_SEL k)

/-- IRQ_N[n] is driven low (R489); otherwise it is high impedance. -/
def State.irqnLow (s : State) (n : Nat) : Bool :=
  s.holds (s.irqnWriter.getD n 0) (51 + n) && (List.range 128).any fun i =>
    (s.rd (DBG.IRQN_SEL (4 * n + i / 32))).getLsbD (i % 32) && s.pagePending (0x40000000 + 0x1000 * i)

/-! ## Supplies -/

/-- Every lane of every port in fault (R504; log 47). -/
def State.lanesDead (s : State) : State := (List.range 4).foldl (fun t q => t.portDead q) s

/-- The symbols of the running entry end as clock loss, cause 4 (R93, R144, R193). -/
def State.clockSyms (s : State) : State :=
  (s.rxSymMap (fun _ => true) fun y => y.fail 4 s.ct).txSymMap (·.checked) fun y => { y with cause := addCause y.cause 4 }

/-- A converter supply leaves its window (R193, R504): until the first symbol boundary after its return. -/
def State.railSilent (s : State) : State := ({ s with cnv := { s.cnv with railLost := true } }).clockSyms

/-- A rail leaves its window (R504). -/
def State.railOut (s : State) (r : Rail) : State :=
  if s.pwr.railsOut.contains r then s
  else
    let t : State := { s with pwr := { s.pwr with railsOut := r :: s.pwr.railsOut } }
    match r with
    | .vaon => t.coldReset 0
    | .vcore => t.vokFall
    | .vaux => t.prtUpdate
    | .vneg => t.prtTrip 26
    | .vcnvA => t.railSilent
    | .vcnvB => t.railSilent
    | .vln => t.lanesDead
    | .vlh => t.lanesDead
    | .vio => t

/-- A converter supply has returned (R193): at the first symbol boundary, with the timer stopped at once (R520; log 128). -/
def State.railBack (s : State) : State := if s.running then s else { s with cnv := { s.cnv with railLost := s.vcnvOut } }

/-- A rail is back inside its window (R504): its action ends. -/
def State.railIn (s : State) (r : Rail) : State :=
  if s.pwr.railsOut.contains r then
    let t : State := { s with pwr := { s.pwr with railsOut := s.pwr.railsOut.filter (· != r) } }
    match r with
    | .vcore => t.vokRise
    | .vaux => t.prtUpdate
    | .vneg => t.prtEnd 26
    | .vcnvA => t.railBack
    | .vcnvB => t.railBack
    | _ => t
  else s

/-! ## Commands -/

/-- Meaning of CMEM_FENCE_WRITE. -/
def execCmemFenceWrite (id : ReqId) (data : Word) (s : State) : Host.Outcome State Fault Refusal :=
  .next (s.writeCmd id DBG.CMEM_FENCE data (·.fenceWrite data))

/-- Meaning of FREEZE_NOW: a write of `FRZ_CMD`. -/
def execFreezeNow (id : ReqId) (data : Word) (s : State) : Host.Outcome State Fault Refusal :=
  .next (s.writeCmd id DBG.FRZ_CMD data (·.frzCmdWrite data))

/-- Meaning of FREEZE_CLEAR: a write of `FRZ_CMD`. -/
def execFreezeClear (id : ReqId) (data : Word) (s : State) : Host.Outcome State Fault Refusal :=
  .next (s.writeCmd id DBG.FRZ_CMD data (·.frzCmdWrite data))

/-- The device watchdog expires at its deadline (R452): the freeze completes, then the warm reset asserts (R492). -/
def State.wdogExpiry (s : State) : State :=
  match s.rst.wdog with
  | none => s
  | some t => ((s.atNow t).freeze 1).warmReset 6

/-- Meaning of DEVICE_WATCHDOG_EXPIRY. -/
def execDeviceWatchdogExpiry (s : State) : Host.Outcome State Fault Refusal := .next s.wdogExpiry

/-- Meaning of SUPPLY_OUT_OF_WINDOW. -/
def execSupplyOutOfWindow (rail : Rail) (s : State) : Host.Outcome State Fault Refusal := .next (s.railOut rail)

/-- Meaning of SUPPLY_IN_WINDOW. -/
def execSupplyInWindow (rail : Rail) (s : State) : Host.Outcome State Fault Refusal := .next (s.railIn rail)

end Sys2Proof.Machine
end

