-- ==== Sys2Proof/Machine/Thm.lean ====
section
/-!
DEFINITION. Temperatures (R256 to R273): the cross-check of readings, thresholds, the rate of rise, the throttle, the halt and the hold.
-/
namespace Sys2Proof.Machine

/-- Raw reading of site t. -/
def State.thmRaw (s : State) (t : Nat) : Int := signed (s.get (THM.TEMP_raw t)) 16
/-- Reported value of site t. -/
def State.thmRep (s : State) (t : Nat) : Int := signed (s.get (THM.TEMP_rep t)) 16
/-- The fused ceiling (R263). -/
def State.thmCeil (s : State) : Int := (s.otp.thermCeil : Int)

/-- Sites that are read now: all, or in Rest and Dormant the four at the die centre (R258). -/
def State.thmSites (s : State) : List Nat :=
  if s.pwr.sleep = .rest ∨ s.pwr.sleep = .dormant then [36, 37, 38, 39] else List.range 40

/-- The cross-check of site t (R260): reported value, consecutive deviant readings, whether it is newly marked; `susp` holds the
marks at the start of the update. -/
def State.crossCheck (s : State) (raw : Nat → Int) (susp : Nat) (t : Nat) : Int × Nat × Bool :=
  let us := (thmNbr t).filter fun u => !susp.testBit u
  let limit := s.get THM.XCHK_LIMIT_limit
  let cnt := s.thm.cnt.getD t 0
  if us.isEmpty ∨ limit = 0 ∨ !s.flag THM.CTRL_xchk_en then (raw t, cnt, false)
  else
    let mean := rhe ((us.map raw).foldl (· + ·) 0) us.length
    let dev := if (raw t - mean).natAbs > limit then cnt + 1 else 0
    let marked := susp.testBit t
    let new := decide (3 ≤ dev) && !marked
    (if marked || new then mean else raw t, dev, new)

/-- The raw reading of an oscillator count of site t (R257): on the line through its two fused points, rounded half to even and
saturated; equal fused counts give no line (log 107). -/
def Otp.reading (o : Otp) (t n : Nat) : Int :=
  let (n1, n2) := o.therm.getD t (0, 0)
  let (t1, t2) := o.thermT
  let d : Int := (n2 : Int) - n1
  let x := t1 * d + ((n : Int) - n1) * (t2 - t1)
  sat (if d = 0 then Config.thermFlat t n else if 0 < d then rhe x d.natAbs else rhe (-x) d.natAbs) 16

/-- The counts of an update are converted, stored and checked site by site (R257, R260); in Rest and Dormant the cross-check pauses
(R258). -/
def State.thmSense (s : State) (counts : List Nat) : State :=
  let sites := s.thmSites
  let raw (t : Nat) : Int := if sites.contains t then (match counts[t]? with | some n => s.otp.reading t n | none => s.thmRaw t) else s.thmRaw t
  let susp := s.rd64 THM.SUSPECT_LO
  let asleep := s.pwr.sleep = .rest ∨ s.pwr.sleep = .dormant
  sites.foldl (fun (t : State) u =>
    let r := if asleep then (raw u, s.thm.cnt.getD u 0, false) else s.crossCheck raw susp u
    let t := (t.set (THM.TEMP_raw u) (unsigned (raw u) 16)).set (THM.TEMP_rep u) (unsigned r.1 16)
    let t : State := { t with thm := { t.thm with cnt := t.thm.cnt.set u r.2.1 } }
    if r.2.2 then (t.wr64 THM.SUSPECT_LO (t.rd64 THM.SUSPECT_LO ||| 2 ^ u)).raise THM.base 2 else t) s

/-- The device temperature and its site (R262): the largest reported value, at the lowest site that has it. -/
def State.thmMax (s : State) : Int × Nat :=
  match s.thmSites with
  | [] => (0, 0)
  | t :: rest => rest.foldl (fun m u => if s.thmRep u > m.1 then (s.thmRep u, u) else m) (s.thmRep t, t)

/-- The device raises the throttle to a level (R269): event bit 4 where it rises. -/
def State.throttle (s : State) (k : Nat) : State :=
  if s.get THM.THR_CTRL_k < k then (s.set THM.THR_CTRL_k k).raise THM.base 4 else s

/-- The thresholds of R263, with the throttle of a hot device (R269). -/
def State.thmThresholds (s : State) (temp : Int) : State :=
  let al := decide (signed (s.get THM.ALARM_TEMP_temp) 16 ≤ temp)
  let hot := decide (signed (s.get THM.THR_TEMP_temp) 16 ≤ temp)
  let t := if al && !s.flag THM.STAT_alarm then s.raise THM.base 1 else s
  let t := if hot && !s.flag THM.STAT_hot then t.raise THM.base 4 else t
  let t := (t.setFlag THM.STAT_alarm al).setFlag THM.STAT_hot hot
  if hot && t.flag THM.CTRL_auto_hot then t.throttle (t.get THM.THR_CTRL_hot_k) else t

/-- Group g of R256: its sites. -/
def thmGroup (g : Nat) : List Nat :=
  (List.range 40).filter fun t =>
    g == (if t < 16 then 0 else if t < 24 then 1 else if t < 28 then 2 else if t < 34 then 3 else if t < 36 then 4 else 5)

/-- The value of group g: the largest reported value of its sites (R264). -/
def State.groupTemp (s : State) (g : Nat) : Int :=
  match thmGroup g with
  | [] => 0
  | t :: rest => rest.foldl (fun m u => max m (s.thmRep u)) (s.thmRep t)

/-- The temperature of external channel n from a result value, through its points (R265). -/
def State.extTemp (s : State) (n v : Nat) : Int :=
  let l (i : Nat) : Int := signed (s.get (THM.EXT_LUT_l n i)) 16
  let i := v / 4096
  l i + rhe ((l (i + 1) - l i) * (v % 4096 : Nat)) 4096

/-- The latest result of the Scaler channel of external channel n, unless none came in the last 16 readings (R265). -/
def State.extValue (s : State) (n : Nat) : Option Nat :=
  match s.thm.val.find? (s.get (THM.EXT_ch n)) with
  | some (v, c) => if s.thm.n - c ≤ 16 then some v else none
  | none => none

/-- Entry i of `RISE_LIM` of history k. -/
def riseIndex (k : Nat) : Nat := if k < 6 then k else k + 2

/-- The check of one rate-of-rise history (R264, R266, R269): its newest value joins, and from 266 values on Δ is shown and compared. -/
def State.riseCheck (s : State) (k : Nat) (v : Int) : State :=
  let h := (v :: s.thm.hist.getD k []).take 266
  let t : State := { s with thm := { s.thm with hist := s.thm.hist.set k h } }
  if h.length < 266 then t
  else
    let i := riseIndex k
    let d := ((h.take 16).foldl (· + ·) 0) - (((h.drop 250).take 16).foldl (· + ·) 0)
    let t := if -32768 ≤ d ∧ d ≤ 32767 then t.set (THM.RISE_RATE_delta i) (unsigned d 16)
      else (let r := t.free; r.2.set (THM.RISE_RATE_delta i) (r.1.toNat % 65536))
    let st : Fld := ⟨THM.RISE_STAT, i, 1⟩
    if (t.get (THM.RISE_LIM_lim i) : Int) < d then
      (if t.flag (THM.RISE_LIM_en i) && !t.flag st then
        let t := (t.set st 1).raise THM.base 3
        if t.flag THM.CTRL_auto_rise then t.throttle (min 15 (t.get THM.THR_CTRL_k + t.get THM.THR_CTRL_step)) else t
      else t)
    else t.set st 0

/-- External channel n at an update (R265): its temperature, or stale with its history restarted. -/
def State.extCheck (s : State) (n : Nat) : State :=
  let drop (t : State) : State := { t with thm := { t.thm with hist := t.thm.hist.set (6 + n) [] } }
  if !s.flag (THM.EXT_en n) then drop s
  else match s.extValue n with
    | none => drop (s.set (THM.EXT_TEMP_stale n) 1)
    | some v =>
      let x := s.extTemp n v
      let t := s.set (THM.EXT_TEMP_stale n) 0
      (t.set (THM.EXT_TEMP_temp n) (unsigned x 16)).riseCheck (6 + n) x

/-- The rate-of-rise checks of an update (R264): groups, then external channels. -/
def State.riseChecks (s : State) : State :=
  let t := (List.range 6).foldl (fun (t : State) g => t.riseCheck g (s.groupTemp g)) s
  (List.range 8).foldl State.extCheck t

/-- The thermal halt (R270), decided by a site. -/
def State.thermalHalt (s : State) (site : Nat) : State :=
  let t := (s.set THM.STAT_halt 1).prtUpdate.haltTimer
  let t := (t.slicesStop false).slicesStop true
  let t := ((if t.capture.isSome then t.capStop else t).safetyTake 42).safetyTake 43
  let t := (t.prtTrip 25).set THM.HALT_site site
  ((t.raise THM.base 5).nmiAll).freeze 2

/-- The hard hold (R272): 157 consecutive updates at 5 °C above the ceiling start a cold reset that stays (log 70). -/
def State.thmHold (s : State) (temp : Int) : State :=
  let n := if s.thmCeil + 80 ≤ temp then s.thm.above + 1 else 0
  let t : State := { s with thm := { s.thm with above := n } }
  if 157 ≤ n then t.coldReset 7 else t

/-- A window while a thermal hold lasts (R272): the four sites at the die centre are read directly. -/
def State.holdWindow (s : State) (counts : List Nat) : State :=
  let cool := [36, 37, 38, 39].all fun t => match counts[t]? with | some n => decide (s.otp.reading t n < 1760) | none => false
  { s with thm := { s.thm with under := if cool then s.thm.under + 1 else 0 } }

/-- The end of a window (R257, R258): without REFCLK none completes. -/
def State.thmUpdate (s : State) (counts : List Nat) : State :=
  if !s.refclk then s
  else if s.rst.held.contains 7 then s.holdWindow counts
  else if s.rst.next = some 0 then s
  else
    let s : State := { s with thm := { s.thm with n := s.thm.n + 1 } }
    let t := s.thmSense counts
    let m := t.thmMax
    let t := ((t.set THM.MAX_temp (unsigned m.1 16)).set THM.MAX_site m.2).thmThresholds m.1
    let t := if t.pwr.sleep = .rest ∨ t.pwr.sleep = .dormant then t else t.riseChecks
    let t := if t.thmCeil ≤ m.1 ∧ !t.halted then t.thermalHalt m.2 else t
    t.thmHold m.1

/-- The thermal hold ends after 16 consecutive cool windows (R272). -/
def State.thmRelease (s : State) : State :=
  if s.rst.held.contains 7 ∧ 16 ≤ s.thm.under then s.resetRelease 7 else s

/-- Writes of 1 to `SUSPECT` (R261): the marks and their counts clear. -/
def State.suspectClear (s : State) (v : Nat) : State :=
  let m := s.rd64 THM.SUSPECT_LO
  let t := s.wr64 THM.SUSPECT_LO (m - (m &&& (v % 2 ^ 40)))
  { t with thm := { t.thm with cnt := (List.range 40).map fun u => if (m &&& v).testBit u then 0 else s.thm.cnt.getD u 0 } }

/-- A write of `HALT` (R271). -/
def State.haltWrite (s : State) (v : Word) : State :=
  if !bit v 0 then s
  else if (List.range 40).all fun t => decide (s.thmRep t < s.thmCeil - 80) then
    (if s.halted then (((s.set THM.STAT_halt 0).prtEnd 25).safetyFree 42).safetyFree 43 else s)
  else s.logErr THM.base 0x40 THM.HALT

/-- A write of `ALARM_TEMP` or `THR_TEMP` (R263). -/
def State.tempWrite (s : State) (f : Fld) (v : Word) : State :=
  if s.thmCeil ≤ signed (bits v 0 16) 16 then s.logErr THM.base 0x05 f.addr else s.set f (bits v 0 16)

/-- A write of `RISE_LIM_i` (R273). -/
def State.riseLimWrite (s : State) (i : Nat) (v : Word) : State :=
  if (i = 6 ∨ i = 7) ∧ bit v 16 then s.logErr THM.base 0x41 (THM.RISE_LIM i)
  else (s.set (THM.RISE_LIM_lim i) (bits v 0 16)).set (THM.RISE_LIM_en i) (bits v 16 1)

/-- A write of `EXT_n` (R273); another channel restarts the history. -/
def State.extWrite (s : State) (n : Nat) (v : Word) : State :=
  if 47 < bits v 0 6 then s.logErr THM.base 0x41 (THM.EXT n)
  else
    let t := if s.get (THM.EXT_ch n) = bits v 0 6 then s else { s with thm := { s.thm with hist := s.thm.hist.set (6 + n) [] } }
    (t.set (THM.EXT_ch n) (bits v 0 6)).set (THM.EXT_en n) (bits v 8 1)

/-! ## Commands -/

/-- Meaning of THERMAL_READING_UPDATE: the oscillator counts of the 40 sites. -/
def execThermalReadingUpdate (counts : List Nat) (s : State) : Host.Outcome State Fault Refusal := .next (s.thmUpdate counts)

/-- Meaning of THERMAL_HOLD_RELEASE. -/
def execThermalHoldRelease (s : State) : Host.Outcome State Fault Refusal := .next s.thmRelease

/-- Meaning of HALT_CLEAR: a write of `THM.HALT`. -/
def execHaltClear (id : ReqId) (data : Word) (s : State) : Host.Outcome State Fault Refusal :=
  .next (s.writeCmd id THM.HALT data (·.haltWrite data))

end Sys2Proof.Machine
end

