-- ==== Sys2Proof/Machine/Writes.lean ====
section
/-!
DEFINITION. A write of a register (R9, R36, R41 to R45, R49): the header, the soft reset, wide values, the registers with rules of
their own page by page, and every other register by the access types of its fields.
-/
namespace Sys2Proof.Machine

/-! ## By access type (R9) -/

/-- A stored word after a write, field by field: RW replaces, W1C clears, W1S sets, RO and WO store nothing; RWL as RW while the page
is not locked (R44). -/
def mergeFields (fs : List FldRow) (locked : Bool) (old v : Nat) : Nat :=
  fs.foldl (fun n f =>
    let x := bitsOf v f.lo f.w
    let o := bitsOf old f.lo f.w
    match f.acc with
    | .rw => setBits n f.lo f.w x
    | .rwl => if locked then n else setBits n f.lo f.w x
    | .w1c => setBits n f.lo f.w (o - (o &&& x))
    | .w1s => setBits n f.lo f.w (o ||| x)
    | .ro => n
    | .wo => n) old

/-- A write of a register by the access types of its fields; a locked field is logged once (R32). -/
def State.typedWrite (s : State) (a : Nat) (v : Word) : State :=
  let fs := fieldsAt a
  let locked := s.flag (HDR.LOCK_locked (pageBase a))
  let t := s.wr a (BitVec.ofNat 32 (mergeFields fs locked (s.rd a).toNat v.toNat))
  if locked && fs.any (·.acc == .rwl) then t.logErr (pageBase a) 0x04 a else t

/-- The clear field of a count (R36). -/
def State.countsClear (s : State) (k : PageKind) (a : Nat) (v : Word) : State :=
  match countAt k (a % 0x1000) with
  | some r => if bit v r.clear then r.fields.foldl (fun (t : State) (f : Nat × Nat) => t.set ⟨a, f.1, f.2⟩ 0) s else s
  | none => s

/-- A register without rules of its own. -/
def State.plainWrite (s : State) (k : PageKind) (a : Nat) (v : Word) : State := (s.typedWrite a v).countsClear k a v

/-- A write to the control registers of a running feature takes effect for the holder of its claim only (R49). -/
def State.guarded (s : State) (id : ReqId) (n : Nat) (running : Bool) (a : Nat) (f : State → State) : State :=
  if running && !s.holds id n then s.logErr (pageBase a) 0x03 a else f s

/-! ## The header (R41 to R44, R521) -/

/-- The events a page defines (R521). -/
def eventMask : PageKind → BitVec 32
  | .sys => 0x3 | .rst => 0x7 | .pwr => 0x37F | .thm => 0x3F | .sec => 0x7 | .mem => 0x7F | .ftm => 0x3F | .clk => 0xF
  | .scl => 0x3F | .bia => 0xF | .prt => 0x7 | .par => 0xFF | .cas => 0xF | .std => 0x3 | .core => 0x1F | .ych => 0x1F
  | .bf => 0x1F | .bfg => 0x7 | .dpd => 0x3F | .txc => 0x7F | .rxc => 0x7F | .lane => 0xB | .port => 0x1FF | .pnl => 0x1F
  | .lnd => 0xF | .dbg => 0x3 | .hdr => 0x1 | .opt => 0x1 | .yrd => 0x1 | .mgt => 0x1

/-- What the state of a block does before its registers take their warm values (R42; log 34). -/
def State.softBefore (s : State) (k : PageKind) (n : Nat) : State :=
  match k with
  | .sys => (List.range 64).foldl (fun (t : State) c =>
      if t.owner c ≠ 0 ∧ !(16 ≤ c ∧ c < 32) ∧ !((c = 42 ∨ c = 43) ∧ t.halted ∧ t.owner c = 0xFF) then t.claimLost c else t) s
  | .pwr => (List.range 27).foldl (fun (t : State) d => if (t.get PWR.DOM_CTRL_off).testBit d then t.startWake d else t) s
  | .ftm => ((List.range 16).foldl (fun (t : State) e => t.lineStop e) ((List.range 3).foldl (fun (t : State) f => t.fesStop f) s.haltTimer))
  | .scl =>
    ((List.range 2).foldl (fun (t : State) x => (t.sclStop x).setScl x SclCh.reset) s).withdraw fun k _ => [1, 2].contains (s.get (YCH.CFG_periph k))
  | .bfg => s.fallbackWrite n 0
  | .std => s.convSet n 0 0
  | .txc => (s.slicesReset true).calStop
  | .rxc => s.slicesReset false
  | .port => (s.prbsStop n).portTo n 0
  | .pnl => (match s.link.session with | some i => s.sessionEnd i | none => s)
  | .lnd => s.capStop
  | .sec => (let t := s.secCut; { t with sec := { t.sec with challenge := none } })
  | _ => s

/-- What it does once they have. -/
def State.softAfter (s : State) (k : PageKind) (n : Nat) : State :=
  match k with
  | .rst => { s with rst := { s.rst with wdog := none } }
  | .thm => { s with thm := { Thm.reset with above := s.thm.above, under := s.thm.under } }
  | .ftm => ({ s with timer := { s.timer with pending := none, checking := none, badEntries := [], fesIdle := 0 } }).fecUpdate
  | .bia => ({ s with bias := List.replicate 96 ⟨0, none⟩ }).prtUpdate
  | .prt => ({ s with prtPaths := [] }).prtUpdate
  | .par => ({ s with pair := Pair.reset }).prtUpdate
  | .cas => { s with link := { s.link with downNext := none } }
  | .mem => { s with cru := ⟨0, none⟩ }
  | .std => { s with cnv := { s.cnv with eqAct := s.cnv.eqAct.filter fun (e : Nat × Word) => pageBase e.1 != STD.base n } }
  | .core => s.coreReset n
  | .ych => s.setChan n Chan.reset
  | .bf => { s with bf := { s.bf with sealing := none, rcmp := [] } }
  | .dpd =>
    let t := (List.range 8).foldl (fun (t : State) u => t.setDpd (8 * n + u) DpdPath.reset) s
    let t : State := { t with reload := t.reload.set n [] }
    (List.range 8).foldl (fun (t : State) st => t.set (DPD.CTRL_en st) 1) t
  | .txc => s.muteUpdate
  | .rxc => { s with rx := { s.rx with gstep := none, lvlWait := [] } }
  | .lane => s.setLst n { s.lst n with cycle := 0, viol := 0, commas := 0 }
  | .port => if s.portEn n then s.train n else s
  | _ => s

/-- The registers of a page from 0x040 on at their warm values. -/
def State.softRegs (s : State) (pg : Nat) : Store Word :=
  s.regs.filterMap fun (e : Nat × Word) =>
    if pg + 0x40 ≤ e.1 ∧ e.1 < pg + 0x1000 then
      (let v := s.warmValue e.1 e.2
       if v = coldWord s.otp e.1 then none else some (e.1, v))
    else some e

/-- The soft reset of a block (R42): its registers from 0x040 on take their warm values. -/
def State.softReset (s : State) (k : PageKind) (n pg : Nat) : State :=
  let tki := s.get PAR.STAT_tki
  let t := s.softBefore k n
  let t : State := { t with regs := t.softRegs pg }
  ((if k = .par then t.set PAR.STAT_tki tki else t).softAfter k n).refreshIfStopped

/-- A write of `BLK_CTRL` (R42): the enable as the block takes it, the wake permit, then the soft reset (log 78). Enable 0 in the BF page
with a slice armed or started makes the whole write one without effect (R171). -/
def State.blkCtrlWrite (s : State) (k : PageKind) (n pg : Nat) (v : Word) : State :=
  if k = .bf ∧ !bit v 0 ∧ (s.anyLive false ∨ s.anyLive true) then s.logErr BF.base 0x40 (HDR.BLK_CTRL BF.base) else
  let permit (t : State) : State := t.set (HDR.BLK_CTRL_wake_ok pg) (bits v 2 1)
  let t : State := match k with
    | .port => s.portBlkCtrl n v
    | .bf => permit (s.bfEnable (bit v 0))
    | .ftm => permit ((if bit v 0 then s else s.haltTimer).set (HDR.BLK_CTRL_enable pg) (bits v 0 1))
    | _ => permit (s.set (HDR.BLK_CTRL_enable pg) (bits v 0 1))
  if bit v 1 then t.softReset k n pg else t

/-- A write below offset 0x040. -/
def State.hdrWrite (s : State) (k : PageKind) (n pg off : Nat) (v : Word) : State :=
  let m := v &&& eventMask k
  if off = 0x08 then s.blkCtrlWrite k n pg v
  else if off = 0x10 then s.wr (pg + off) (s.rd (pg + off) &&& ~~~v)
  else if off = 0x14 then s.wr (pg + off) m
  else if off = 0x18 then s.wr (pg + off) (s.rd (pg + off) &&& ~~~v)
  else if off = 0x1C then (List.range 32).foldl (fun (t : State) e => if bit m e then t.raise pg e else t) s
  else if off = 0x20 then (if (pageClaims k n).isEmpty then s else s.set (HDR.CLAIM_sel pg) (bits v 0 6))
  else if off = 0x24 then
    (if bits v 0 16 = 0 then s
     else ((s.set (HDR.ERR_CODE_code pg) 0).set (HDR.ERR_CODE_count pg) 0).set (HDR.ERR_ADDR_addr pg) 0)
  else if off = 0x2C then (if v = 0x4C4B0001#32 then s.set (HDR.LOCK_locked pg) 1 else s)
  else s

/-! ## Wide values (R45) -/

/-- The offset is the LO half of a 64-bit value. -/
def wideLo (k : PageKind) (off : Nat) : Bool :=
  match k with
  | .sys => off == 0x48
  | .ftm => [0x60, 0x68].contains off
  | .clk => [0x208, 0x210].contains off
  | .scl => [0x70, 0x78].contains off
  | .std => [0x48, 0x50, 0x58].contains off || (decide (0x80 ≤ off) && decide (off < 0xC0) && off % 8 == 0)
  | .rxc => [0x58, 0x70, 0x88].contains off
  | .bf => off == 0x60
  | .txc => [0x58, 0x80, 0x98, 0xA0, 0xE0, 0x808].contains off
  | .lnd => [0x50, 0x60].contains off
  | .thm => off == 0x60
  | .port => [0x50, 0x90, 0x100, 0x108, 0x140, 0x148].contains off
  | .cas => off == 0x50
  | .core => [0x64, 0x6C].contains off
  | .yrd => off == 0x50
  | .pwr => off == 0x60
  | _ => false

/-- The offset is the HI half of a 64-bit value. -/
def wideHi (k : PageKind) (off : Nat) : Bool := decide (4 ≤ off) && wideLo k (off - 4)

/-- Some field at an address takes writes. -/
def writable (a : Nat) : Bool := (fieldsAt a).any fun (f : FldRow) => f.acc != .ro

/-- The whole value of a LO write (R45): the staged HI half, or with nothing staged HI as it reads now (log 32). -/
def State.wideValue (s : State) (id : ReqId) (a : Nat) (v : Word) : Nat :=
  2 ^ 32 * (match s.stage.find? id.toNat with | some h => h | none => s.view (a + 4)).toNat + v.toNat

/-- Both halves written by the access types of their fields. -/
def State.typedWrite64 (s : State) (a v : Nat) : State :=
  (s.typedWrite a (BitVec.ofNat 32 v)).typedWrite (a + 4) (BitVec.ofNat 32 (v / 2 ^ 32))

/-- What a whole 64-bit value does, register by register. -/
def State.wideApply (s : State) (id : ReqId) (k : PageKind) (n a v : Nat) : State :=
  match k with
  | .core => if a = CORE.INT_PEND_LO n then s.intPendClear n (BitVec.ofNat 64 v) else s.typedWrite64 a v
  | .thm => s.suspectClear v
  | .std =>
    if a = STD.OBS_CENTRE_LO n then s.guarded id (32 + n) (s.flag (STD.OBS_CTRL_en n)) a (·.sliceWordSet a v) else s.sliceWordSet a v
  | .rxc =>
    if a = RXC.SLICE_T_LO then s.sliceTSet false v
    else s.guarded id (s.get RXC.GSTEP_CTRL_line) (s.flag RXC.GSTEP_CTRL_en) a (·.typedWrite64 a v)
  | .txc =>
    if a = TXC.SLICE_T_LO then s.sliceTSet true v
    else if a = TXC.MUTE_PATH_LO then s.muteSet .pathLo v
    else if a = TXC.CAL_NCO_LO then s.calRegWrite id a (·.typedWrite64 a v)
    else s.typedWrite64 a v
  | .lnd => s.capWrite id a (·.typedWrite64 a v)
  | _ => s.typedWrite64 a v

/-- A refusal that a HI write meets before anything is staged (R49, R97, R124, R225). -/
def State.hiRefused (s : State) (id : ReqId) (k : PageKind) (n a : Nat) : Option State :=
  let no (page code : Nat) : Option State := some (s.logErr page code a)
  match k with
  | .rxc =>
    if a = RXC.SLICE_T_HI then (if s.holdsT false then no RXC.base 0x40 else none)
    else if a = RXC.GSTEP_ARM_HI ∧ s.flag RXC.GSTEP_CTRL_en ∧ !s.holds id (s.get RXC.GSTEP_CTRL_line) then no RXC.base 0x03 else none
  | .txc =>
    if a = TXC.SLICE_T_HI then (if s.holdsT true then no TXC.base 0x40 else none)
    else if a = TXC.CAL_NCO_HI ∧ s.flag TXC.CAL_CTRL_en ∧ !s.holds id 43 then no TXC.base 0x03 else none
  | .std => if a = STD.OBS_CENTRE_HI n ∧ s.flag (STD.OBS_CTRL_en n) ∧ !s.holds id (32 + n) then no (STD.base n) 0x03 else none
  | .lnd =>
    if s.flag LND.CAP_CTRL_en ∧ !s.holds id 42 then no LND.base 0x03 else if s.capture.isSome then no LND.base 0x40 else none
  | _ => none

/-- A write of the HI half: staged for the requester, no effect yet. -/
def State.hiWrite (s : State) (id : ReqId) (k : PageKind) (n a : Nat) (v : Word) : State :=
  match s.hiRefused id k n a with
    | some t => t
    | none => { s with stage := (s.stage.del id.toNat).ins id.toNat v }

/-- A write of the LO half: the whole value at one instant; of `CAP_T`, which is read-only, R223 logs one during a capture. -/
def State.loWrite (s : State) (id : ReqId) (k : PageKind) (n a : Nat) (v : Word) : State :=
  let t : State := { s with stage := s.stage.del id.toNat }
  if !writable a then (if k = .lnd then t.capWrite id a fun u => u else t)
  else (t.wideApply id k n a (s.wideValue id a v)).touch (a + 4)

/-! ## Registers with rules of their own -/

/-- A write of `EV_CFG_e` (R49, R73): the enable needs claim e; clearing it stops the line. -/
def State.evCfgWrite (s : State) (id : ReqId) (e : Nat) (v : Word) : State :=
  s.guarded id e (s.flag (FTM.EV_CFG_en e)) (FTM.EV_CFG e) fun t =>
    let u := (t.set (FTM.EV_CFG_pulse e) (bits v 1 1)).enableIf (t.holds id e) (FTM.EV_CFG_en e) (bits v 0 1)
    if bit v 0 then u else u.lineStop e

/-- A write of `FES_CFG_n` (R49, R80): the enable needs claim 48 + n. -/
def State.fesCfgWrite (s : State) (id : ReqId) (n : Nat) (v : Word) : State :=
  s.guarded id (48 + n) (s.flag (FTM.FES_CFG_en n)) (FTM.FES_CFG n) fun t =>
    let t : State := { t with timer := { t.timer with fesIdle := setBit t.timer.fesIdle n (bit v (FTM.FES_CFG_mode3 n).lo) } }
    let u := (t.wr (FTM.FES_CFG n) (v &&& 0xFFFF03FE#32)).set (FTM.FES_CFG_en n) (t.get (FTM.FES_CFG_en n))
    let u := u.enableIf (t.holds id (48 + n)) (FTM.FES_CFG_en n) (bits v 0 1)
    if bit v 0 then u else u.fesStop n

/-- A write on the FTM page. -/
def State.ftmWrite (s : State) (id : ReqId) (a off : Nat) (v : Word) : State :=
  if off = 0x40 then s.ftmCtrlWrite v
  else if off = 0x54 then s.commitWrite v
  else if 0x100 ≤ off ∧ off < 0x180 then
    (let e := (off - 0x100) / 8
     if off % 8 = 0 then s.evCfgWrite id e v else s.guarded id e (s.flag (FTM.EV_CFG_en e)) a (·.typedWrite a v))
  else if 0x180 ≤ off ∧ off < 0x200 then (s.typedWrite a v).fecMapWritten ((off - 0x180) / 4)
  else if 0x200 ≤ off ∧ off < 0x20C then s.fesCfgWrite id ((off - 0x200) / 4) v
  else if 0x400 ≤ off then
    (let n := (off - 0x400) / 512
     s.guarded id (48 + n) (s.flag (FTM.FES_CFG_en n)) a (·.typedWrite a v))
  else s.typedWrite a v

/-- A write of `RG_SLACK_WARN` (R27): a minimum that lies below the new limit, but not the old, raises event bit 9 (log 90). -/
def State.slackWarnWrite (s : State) (v : Word) : State :=
  let old := s.get PWR.RG_SLACK_WARN_limit
  let falls (m : Nat) : Bool := decide (m < bits v 0 16) && decide (old ≤ m)
  let t := s.set PWR.RG_SLACK_WARN_limit (bits v 0 16)
  if falls (s.get PWR.RG_SLACK_DAC_min) || falls (s.get PWR.RG_SLACK_PORT_min) then t.raise PWR.base 9 else t

/-- A write on the PWR page. -/
def State.pwrWrite (s : State) (a : Nat) (v : Word) : State :=
  if a = PWR.PL_CTRL then s.plCtrlWrite v
  else if a = PWR.SLEEP_CTRL then s.sleepCtrlWrite v
  else if a = PWR.DOM_CTRL then s.domCtrlWrite v
  else if a = PWR.RG_CTRL then s.rgClear v
  else if a = PWR.RG_SLACK_WARN then s.slackWarnWrite v
  else s.typedWrite a v

/-- A write on the RST page. -/
def State.rstWrite (s : State) (a : Nat) (v : Word) : State :=
  if a = RST.GAP then s.gapWrite v
  else if a = RST.BOOT_CMD then s.bootCmd v
  else if a = RST.WBOOT then s.wbootWrite v
  else if a = RST.SWRST then s.swrstWrite v
  else if a = RST.WDOG then s.wdogWrite v
  else if a = RST.WDOG_KICK then s.wdogKick v
  else if a = RST.DUMP_PTR then s.dumpPtrWrite v
  else if a = RST.DUMP_MARK then s.dumpMarkWrite v
  else s.typedWrite a v

/-- A write on the THM page. -/
def State.thmWrite (s : State) (a off : Nat) (v : Word) : State :=
  if a = THM.ALARM_TEMP then s.tempWrite THM.ALARM_TEMP_temp v
  else if a = THM.THR_TEMP then s.tempWrite THM.THR_TEMP_temp v
  else if a = THM.HALT then s.haltWrite v
  else if 0x300 ≤ off ∧ off < 0x340 then s.riseLimWrite ((off - 0x300) / 4) v
  else if 0x400 ≤ off ∧ off % 0x80 = 0 then s.extWrite ((off - 0x400) / 0x80) v
  else s.typedWrite a v

/-- A write on the SYS page; a pin that changes with it may raise event bit 1 (R53). -/
def State.sysWrite (s : State) (id : ReqId) (a off : Nat) (v : Word) : State :=
  let t : State :=
    if a = SYS.GPIO_DIR then s.gpioWrite id true v
    else if a = SYS.GPIO_OUT then s.gpioWrite id false v
    else if 0x100 ≤ off then s.claimWrite id ((off - 0x100) / 4) v
    else s.typedWrite a v
  if (s.gpioIn ^^^ t.gpioIn) &&& s.get SYS.GPIO_IRQ_en = 0 then t else t.raise SYS.base 1

/-- A write on the SCL page. -/
def State.sclWrite (s : State) (id : ReqId) (a off : Nat) (v : Word) : State :=
  let own (x : Nat) (f : State → State) : State := s.guarded id (40 + x) ((s.get SCL.CTRL_en_aen_b).testBit x) a f
  if a = SCL.CTRL then s.sclCtrlWrite id v
  else if a = SCL.RB_SEL then s.rbSelWrite v
  else if off = 0x50 ∨ off = 0x54 then own ((off - 0x50) / 4) (·.seqCfgWrite ((off - 0x50) / 4) v)
  else if off = 0x58 ∨ off = 0x5C then own ((off - 0x58) / 4) (·.resCfgWrite ((off - 0x58) / 4) v)
  else if 0xA0 ≤ off ∧ off < 0xB0 then own ((off - 0xA0) / 8) (·.typedWrite a v)
  else if 0xB0 ≤ off ∧ off < 0xC0 then own ((off - 0xB0) / 8) (·.typedWrite a v)
  else if 0x200 ≤ off ∧ off < 0x300 then own ((off - 0x200) / 128) (·.seqWrite ((off - 0x200) / 4) v)
  else if 0x300 ≤ off ∧ off < 0x380 then
    (let k := (off - 0x300) / 8
     if off % 8 = 0 then s.injWrite id k v else s.injDlyWrite id k v)
  else s.plainWrite .scl a v

/-- A write on the BIA page. -/
def State.biaWrite (s : State) (a off : Nat) (v : Word) : State :=
  if 0x100 ≤ off ∧ off < 0x700 then
    (let j := (off - 0x100) / 16
     if off % 16 = 0 then s.biasCfgWrite j v else if off % 16 = 4 then s.biasTargetWrite j v else s.typedWrite a v)
  else if 0x800 ≤ off ∧ off < 0x980 then s.biasLimWrite ((off - 0x800) / 4) v
  else s.typedWrite a v

/-- A write on the PRT page. -/
def State.prtWrite (s : State) (a off : Nat) (v : Word) : State :=
  if a = PRT.ACT_CLR then s.protClear v
  else if 0x100 ≤ off ∧ off < 0x170 then s.srcCfgWrite ((off - 0x100) / 4) v
  else if 0x200 ≤ off ∧ off < 0x240 then s.cmpWrite ((off - 0x200) / 4) v
  else s.plainWrite .prt a v

/-- A write on the PAR page. -/
def State.parWrite (s : State) (a off : Nat) (v : Word) : State :=
  if a = PAR.CFG then s.parCfgWrite v
  else if a = PAR.CTRL then s.parCtrlWrite v
  else if a = PAR.MIR_CFG then s.mirCfgWrite v
  else if 0x80 ≤ off ∧ off < 0xC0 then s.regionWrite ((off - 0x80) / 8) (off % 8 = 0) v
  else s.plainWrite .par a v

/-- A write on the CAS page. -/
def State.casWrite (s : State) (a : Nat) (v : Word) : State :=
  if a = CAS.CFG then s.casCfgWrite v
  else if a = CAS.DOWN_EN then s.downEnWrite v
  else if a = CAS.ORIENT then s.orientWrite v
  else s.plainWrite .cas a v

/-- A write on the page `STD n`. -/
def State.stdWrite (s : State) (id : ReqId) (n a off : Nat) (v : Word) : State :=
  if a = STD.CNV_CTRL n then s.cnvCtrlWrite n v
  else if a = STD.OBS_CTRL n then s.obsCtrlWrite id n v
  else if a = STD.EQ_COMMIT n then s.eqCommit n v
  else if 0x140 ≤ off ∧ off < 0x160 then s.dacFsWrite n ((off - 0x140) / 4) v
  else s.plainWrite .std a v

/-- A write on the page `CORE n`. -/
def State.corePageWrite (s : State) (id : ReqId) (n a off : Nat) (v : Word) : State :=
  if a = CORE.CTRL n then s.coreCtrlWrite n v
  else if a = CORE.START n then s.coreStartWrite n v
  else if a = CORE.DOORBELL n then s.doorbell id n v
  else if a = CORE.WDOG n then s.coreWdogWrite n v
  else if a = CORE.WDOG_KICK n then s.coreKick n v
  else if 0xA0 ≤ off ∧ off < 0xBC then s.coreRouteWrite n ((off - 0xA0) / 4) v
  else s.typedWrite a v

/-- A write on the page `YCH n`. -/
def State.ychWrite (s : State) (n a : Nat) (v : Word) : State :=
  if a = YCH.CFG n then s.ychCfgWrite n v
  else if a = YCH.CTRL n then s.ychCtrlWrite n v
  else if a = YCH.RING_BASE n then s.ychBaseWrite n v
  else if a = YCH.RING_SIZE n then s.ychSizeWrite n v
  else if a = YCH.PROD n then s.prodWrite n v
  else s.plainWrite .ych a v

/-- A write on the BF page. -/
def State.bfWrite (s : State) (a : Nat) (v : Word) : State :=
  if a = BF.MODE then s.bfModeWrite v
  else if a = BF.JOIN then s.joinWrite v
  else if a = BF.FDD_CFG then s.fddCfgWrite v
  else if a = BF.SEAL then s.sealWrite v
  else s.plainWrite .bf a v

/-- A write on the page `BFG n`. -/
def State.bfgWrite (s : State) (n a : Nat) (v : Word) : State :=
  if a = BFG.PORTS n then s.portsWrite n v
  else if a = BFG.SHIFT n then s.shiftWrite n v
  else if a = BFG.FALLBACK n then s.fallbackWrite n v
  else s.plainWrite .bfg a v

/-- A write on the page `DPD n`. -/
def State.dpdWrite (s : State) (n a off : Nat) (v : Word) : State :=
  if a = DPD.CTRL n then s.dpdEnable n v
  else if a = DPD.SWAP n then s.swapWrite n v
  else if a = DPD.TERMS n ∨ (0x100 ≤ off ∧ off < 0x2A0) then s.dpdTermsWrite a v
  else if 0xA0 ≤ off ∧ off < 0xC0 then
    (if bits v 0 5 < 8 ∨ 24 < bits v 0 5 then s.logErr (DPD.base n) 0x42 a else s.typedWrite a v)
  else if 0xE0 ≤ off ∧ off < 0x100 then s.thmInitWrite (8 * n + (off - 0xE0) / 4) v
  else s.plainWrite .dpd a v

/-- A write on the TXC page. -/
def State.txcWrite (s : State) (id : ReqId) (a off : Nat) (v : Word) : State :=
  if off < 0x50 then s.sliceCfgWrite true ((off - 0x40) / 4) v
  else if a = TXC.SLICE_CTRL then s.sliceCtrlWrite true v
  else if a = TXC.CFR_CTRL then s.cfrCtrlWrite v
  else if a = TXC.MUTE_ALL then s.muteSet .all v.toNat
  else if a = TXC.MUTE_STAND then s.muteSet .stand v.toNat
  else if 0x100 ≤ off ∧ off < 0x200 then s.envLimWrite ((off - 0x100) / 4) v
  else if a = TXC.CAL_CTRL then s.calCtrlWrite id v
  else if a = TXC.CAL_SEQ then s.calSeqWrite id v
  else if a = TXC.CAL_PLAY then s.calPlayWrite id v
  else s.plainWrite .txc a v

/-- A write on the RXC page. -/
def State.rxcWrite (s : State) (id : ReqId) (a off : Nat) (v : Word) : State :=
  if off < 0x50 then s.sliceCfgWrite false ((off - 0x40) / 4) v
  else if a = RXC.SLICE_CTRL then s.sliceCtrlWrite false v
  else if a = RXC.GSTEP_CTRL then s.gstepCtrlWrite id v
  else if 0x200 ≤ off ∧ off < 0x400 then
    s.guarded id (s.get RXC.GSTEP_CTRL_line) (s.flag RXC.GSTEP_CTRL_en) a (·.typedWrite a v)
  else s.plainWrite .rxc a v

/-- A write on the page `PORT n`. -/
def State.portWrite (s : State) (id : ReqId) (n a : Nat) (v : Word) : State :=
  if a = PORT.CFG n then s.portCfgWrite n v
  else if a = PORT.CTRL n then s.portCtrl n v
  else if a = PORT.PRBS_CTRL n then s.prbsCtrlWrite id n v
  else if a = PORT.PRBS_LANES n then s.prbsLanesWrite id n v
  else if a = PORT.PRBS_SEL n then s.guarded id (44 + n) (s.flag (PORT.PRBS_CTRL_en n)) a (·.typedWrite a v)
  else s.plainWrite .port a v

/-- A write on the DBG page. -/
def State.dbgWrite (s : State) (id : ReqId) (a off : Nat) (v : Word) : State :=
  if a = DBG.FRZ_CMD then s.frzCmdWrite v
  else if a = DBG.CMEM_FENCE then s.fenceWrite v
  else if a = DBG.CHAR then s.charWrite v
  else if 0x60 ≤ off ∧ off < 0xA0 then s.irqnSelWrite id ((off - 0x60) / 4) v
  else s.typedWrite a v

/-- A write of a register from offset 0x040 on that is no half of a wide value. -/
def State.bodyWrite (s : State) (id : ReqId) (k : PageKind) (n a off : Nat) (v : Word) : State :=
  match k with
  | .sys => s.sysWrite id a off v
  | .rst => s.rstWrite a v
  | .pwr => s.pwrWrite a v
  | .thm => s.thmWrite a off v
  | .sec => if a = SEC.CMD then s.secCmdWrite id v else if a = SEC.CMD_ADDR then s.cmdAddrWrite v else s.typedWrite a v
  | .ftm => s.ftmWrite id a off v
  | .clk => if a = CLK.PLL_CTRL then s.pllCtrlWrite v else if a = CLK.TSYNC_CTRL then s.tsyncModeWrite v else s.typedWrite a v
  | .scl => s.sclWrite id a off v
  | .bia => s.biaWrite a off v
  | .prt => s.prtWrite a off v
  | .par => s.parWrite a off v
  | .cas => s.casWrite a v
  | .std => s.stdWrite id n a off v
  | .core => s.corePageWrite id n a off v
  | .ych => s.ychWrite n a v
  | .bf => s.bfWrite a v
  | .bfg => s.bfgWrite n a v
  | .dpd => s.dpdWrite n a off v
  | .txc => s.txcWrite id a off v
  | .rxc => s.rxcWrite id a off v
  | .lane => if a = LANE.CFG n then s.laneCfgWrite n v else if a = LANE.TX_EQ n then s.txEqWrite n v else s.plainWrite .lane a v
  | .port => s.portWrite id n a v
  | .pnl => if a = PNL.FLOW_CMD then s.flowCmd v else s.plainWrite .pnl a v
  | .lnd =>
    if a = LND.CAP_CTRL then s.capCtrlWrite id v
    else if off < 0x68 ∨ (0x100 ≤ off ∧ off < 0x200) then s.capWrite id a (·.plainWrite .lnd a v)
    else s.plainWrite .lnd a v
  | .dbg => s.dbgWrite id a off v
  | k => s.plainWrite k a v

/-- A write of the register at an address by a requester. -/
def State.regWrite (s : State) (id : ReqId) (a : Nat) (v : Word) : State :=
  match pageAt a with
  | none => s
  | some (k, n) =>
    let off := a % 0x1000
    let t : State :=
      if (rowAt k off).isNone then s
      else if off < 0x40 then s.hdrWrite k n (pageBase a) off v
      else if wideHi k off then s.hiWrite id k n a v
      else if wideLo k off then s.loWrite id k n a v
      else s.bodyWrite id k n a off v
    let t := if deferredRegs.contains a then t.refreshIfStopped else t
    t.touch a

/-! ## Reads with an effect -/

/-- An adaptive tap has moved on since it was last looked at (R286): on an Active port, with the equaliser on and not frozen, it
holds a value the spec does not give (log 20). -/
def State.tapNow (s : State) (l n : Nat) : State :=
  let active : Bool := match s.laneOwner l with | some q => s.portState q = 2 | none => false
  if active ∧ s.flag (LANE.CFG_eq l) ∧ !s.flag (LANE.CFG_dfe_freeze l) then
    (let x := s.free
     x.2.set (LANE.DFE_TAP_tap l n) (x.1.toNat % 256))
  else s

/-- A read of the register at an address by a requester: a LO half captures the HI half for its requester (R45); the queues pop
(R168, R215), a random word is drawn (R484), and an adaptive tap reads as it stands (R286, log 20). -/
def State.regRead (s : State) (id : ReqId) (a : Nat) : State :=
  match pageAt a with
  | none => s.answer 0
  | some (k, n) =>
    let off := a % 0x1000
    if wideHi k off then
      (match s.shadow.find? id.toNat with
      | some h => s.answerW h
      | none => s.answerW (s.view a))
    else if wideLo k off then
      let s : State := if k = .port ∧ off = 0x90 ∧ s.flag (PORT.PRBS_CTRL_mode n) then s.prbsNow n (s.prbsSel n) else s
      let t : State := { s with shadow := (s.shadow.del id.toNat).ins id.toNat (s.view (a + 4)) }
      t.answerW (s.view a)
    else if a = BF.RCMP then s.rcmpPop
    else if k = .lane ∧ 0x60 ≤ off ∧ off < 0x90 then (s.tapNow n ((off - 0x60) / 4)).answerW ((s.tapNow n ((off - 0x60) / 4)).view a)
    else if k = .dpd ∧ a = DPD.RELOAD n then s.reloadPop n
    else if a = SEC.RNG_DATA then s.rngRead
    else s.answerW (s.view a)

end Sys2Proof.Machine
end

