-- ==== Sys2Proof/Machine/Bus.lean ====
section
/-!
DEFINITION. The bus: what one access of a requester does (R39, R54, R518), at registers and at memories; and the commands that are
such an access and nothing else.
-/
namespace Sys2Proof.Machine

/-- The size and alignment that an access may have (R39, R518). -/
def sizeOk (a size : Nat) (write : Bool) : Bool :=
  let four : Bool := size = 4 && a % 4 = 0
  let any : Bool := [1, 2, 4, 8].contains size && a % size = 0
  match memAt a with
  | some .rom => !write && any
  | some (.imem _) => any
  | some (.dmem _) => any
  | some .cmem => any
  | some .aon => any
  | some .weight => four
  | some .dpd => four
  | some .landing => four
  | some .flow => four
  | some .sched => four
  | none => four

/-- A read of a memory. -/
def State.memRead (s : State) (m : MemKind) (a size : Nat) : State :=
  match m with
  | .rom => s.answer (s.load a size)
  | .imem c => s.secdedRead c a size
  | .dmem c => s.secdedRead (8 + c) a size
  | .cmem => if s.fenced a then s.fenceErr a else s.secdedRead 16 a size
  | .aon => s.secdedRead 17 a size
  | .weight => s.weightRead a
  | .dpd => s.bankRead a
  | .landing => s.landingRead a
  | .flow => s.flowRead a
  | .sched => s.schedRead a

/-- A store to an address consumes a poisoned value: a register page or a detection-only memory (R392, R408, R418). -/
def storeConsumes (a : Nat) : Bool :=
  match memAt a with
  | some m => (secdedIndex m).isNone && m != .rom
  | none => (pageAt a).isSome

/-- A write of a memory: size, data and the poison mark of the data. -/
def State.memWrite (s : State) (m : MemKind) (a size v : Nat) (p : Bool) : State :=
  let w : Word := BitVec.ofNat 32 v
  match m with
  | .rom => s.done
  | .imem c => (s.imemWrite c a size v p).done
  | .dmem c => (s.secdedWrite (8 + c) a size v p).done
  | .cmem => if s.fenced a then s.fenceErr a else (s.secdedWrite 16 a size v p).done
  | .aon => (s.secdedWrite 17 a size v p).done
  | .weight => (s.weightWrite a w).done
  | .dpd => (s.bankWrite a w).done
  | .landing => (s.setParityWord a w).done
  | .flow => (s.flowWrite a w).done
  | .sched => (s.schedWrite a w).done

/-- A read of a memory by a requester; a poisoned word stops at a host (R418). -/
def State.memReadBy (s : State) (id : ReqId) (m : MemKind) (a size : Nat) : State :=
  let t := s.memRead m a size
  if (id = 1 ∨ id = 2) ∧ t.resp.poison then (t.logErr MEM.base 0x42 a).errResp false else t

/-- An access whose domain is on. -/
def State.perform (s : State) (acc : Access) : State :=
  let s := s.flowSettle
  let a := acc.addr.toNat
  match memAt a with
  | some m => if acc.write then (s.memWrite m a acc.size acc.data.toNat acc.poison).touch a else s.memReadBy acc.id m a acc.size
  | none => if acc.write then (s.regWrite acc.id a (acc.data.setWidth 32)).done else s.regRead acc.id a

/-- One access (R39, R54, R518): not decoded, of a wrong size, or performed under the rule of R54. -/
def State.bus (s : State) (acc : Access) : State :=
  let a := acc.addr.toNat
  match domOf a with
  | none => s.gatedBy acc 2 fun t => (t.logErr SYS.base 0x0A a).errResp false
  | some d =>
    if sizeOk a acc.size acc.write then s.gatedBy acc d (·.perform acc)
    else s.gatedBy acc (if d = 0 then 0 else 2) fun t => (t.logErr (pageOf a) 0x0B a).errResp false

/-- Finds an upset in the word of an address: 64 bits in a SECDED memory, 32 in a parity memory. -/
def State.found (s : State) (a : Nat) : Option Upset → State
  | none => s
  | some u => (match memAt a with
    | none => s
    | some m => s.hit (if (secdedIndex m).isSome then a - a % 8 else a - a % 4) u)

/-! ## Commands that are one access -/

/-- Address of a header register of page number n. -/
def pageReg (n : BitVec 8) (off : Nat) : Nat := 0x40000000 + 0x1000 * n.toNat + off

/-- Meaning of REGISTER_WRITE. -/
def execRegisterWrite (a : Access) (s : State) : Host.Outcome State Fault Refusal := .next (s.bus a)

/-- Meaning of COUNT_CLEAR. -/
def execCountClear (id : ReqId) (addr data : Word) (s : State) : Host.Outcome State Fault Refusal :=
  .next (s.bus (wrAcc id addr.toNat data))

/-- Meaning of ERR_CODE_CLEAR. -/
def execErrCodeClear (id : ReqId) (page : BitVec 8) (data : Word) (s : State) : Host.Outcome State Fault Refusal :=
  .next (s.bus (wrAcc id (pageReg page 0x24) data))

/-- Meaning of BLOCK_SOFT_RESET: a write of `BLK_CTRL`. -/
def execBlockSoftReset (id : ReqId) (page : BitVec 8) (data : Word) (s : State) : Host.Outcome State Fault Refusal :=
  .next (s.bus (wrAcc id (pageReg page 0x08) data))

/-- Meaning of PORT_ENABLE: a write of `PORT q .BLK_CTRL` (R42, R278). -/
def execPortEnable (id : ReqId) (q : Fin 4) (data : Word) (s : State) : Host.Outcome State Fault Refusal :=
  .next (s.bus (wrAcc id (HDR.BLK_CTRL (PORT.base q)) data))

/-- Meaning of PAGE_LOCK. -/
def execPageLock (id : ReqId) (page : BitVec 8) (data : Word) (s : State) : Host.Outcome State Fault Refusal :=
  .next (s.bus (wrAcc id (pageReg page 0x2C) data))

/-- Meaning of IRQ_SET. -/
def execIrqSet (id : ReqId) (page : BitVec 8) (data : Word) (s : State) : Host.Outcome State Fault Refusal :=
  .next (s.bus (wrAcc id (pageReg page 0x1C) data))

/-- Meaning of WIDE_READ_LO. -/
def execWideReadLo (id : ReqId) (addr : Word) (s : State) : Host.Outcome State Fault Refusal := .next (s.bus (rdAcc id addr.toNat))

/-- Meaning of WIDE_READ_HI. -/
def execWideReadHi (id : ReqId) (addr : Word) (s : State) : Host.Outcome State Fault Refusal := .next (s.bus (rdAcc id addr.toNat))

/-- Meaning of WIDE_WRITE_HI. -/
def execWideWriteHi (id : ReqId) (addr data : Word) (s : State) : Host.Outcome State Fault Refusal :=
  .next (s.bus (wrAcc id addr.toNat data))

/-- Meaning of WIDE_WRITE_LO. -/
def execWideWriteLo (id : ReqId) (addr data : Word) (s : State) : Host.Outcome State Fault Refusal :=
  .next (s.bus (wrAcc id addr.toNat data))

/-- Meaning of DOMAIN_WAKE_ON_ACCESS: an access to a block whose domain may be off. -/
def execDomainWakeOnAccess (a : Access) (s : State) : Host.Outcome State Fault Refusal := .next (s.bus a)

/-- Meaning of MEMORY_ACCESS: an access that may find an upset. -/
def execMemoryAccess (a : Access) (upset : Option Upset) (s : State) : Host.Outcome State Fault Refusal :=
  .next ((s.found a.addr.toNat upset).bus a)

/-- Meaning of LIST_COMMIT: a write of `NEXT_CTRL`. -/
def execListCommit (id : ReqId) (data : Word) (s : State) : Host.Outcome State Fault Refusal :=
  .next (s.bus (wrAcc id FTM.NEXT_CTRL data))

/-- Meaning of SCHEDULE_ENTRY_WRITE. -/
def execScheduleEntryWrite (id : ReqId) (word : Fin 4096) (data : Word) (s : State) : Host.Outcome State Fault Refusal :=
  .next (s.bus (wrAcc id (0x39000000 + 4 * word.val) data))

/-- Meaning of SCHEDULE_ENTRY_READ; the read may find an upset. -/
def execScheduleEntryRead (id : ReqId) (word : Fin 4096) (upset : Bool) (s : State) : Host.Outcome State Fault Refusal :=
  .next ((s.found (0x39000000 + 4 * word.val) (if upset then some .multi else none)).bus (rdAcc id (0x39000000 + 4 * word.val)))

/-- Meaning of FEC_RELEASE: a write of `FTM.CTRL`. -/
def execFecRelease (id : ReqId) (data : Word) (s : State) : Host.Outcome State Fault Refusal := .next (s.bus (wrAcc id FTM.CTRL data))

/-- Meaning of TIMER_RUN: a write of `FTM.CTRL`. -/
def execTimerRun (id : ReqId) (data : Word) (s : State) : Host.Outcome State Fault Refusal := .next (s.bus (wrAcc id FTM.CTRL data))

/-- Meaning of TIMER_STOP_REQUEST: a write of `FTM.CTRL`. -/
def execTimerStopRequest (id : ReqId) (data : Word) (s : State) : Host.Outcome State Fault Refusal :=
  .next (s.bus (wrAcc id FTM.CTRL data))

/-- Meaning of TSYNC_MODE_WRITE: a write of `TSYNC_CTRL`. -/
def execTsyncModeWrite (id : ReqId) (data : Word) (s : State) : Host.Outcome State Fault Refusal :=
  .next (s.bus (wrAcc id CLK.TSYNC_CTRL data))

/-- Meaning of SLICE_WORD_WRITE. -/
def execSliceWordWrite (id : ReqId) (addr data : Word) (s : State) : Host.Outcome State Fault Refusal :=
  .next (s.bus (wrAcc id addr.toNat data))

/-- Meaning of BF_ENABLE_WRITE: a write of `BF.BLK_CTRL`. -/
def execBfEnableWrite (id : ReqId) (data : Word) (s : State) : Host.Outcome State Fault Refusal :=
  .next (s.bus (wrAcc id (HDR.BLK_CTRL BF.base) data))

/-- Address of a mute register. -/
def muteAddr : MuteReg → Nat
  | .all => TXC.MUTE_ALL
  | .stand => TXC.MUTE_STAND
  | .pathLo => TXC.MUTE_PATH_LO
  | .pathHi => TXC.MUTE_PATH_HI

/-- Meaning of MUTE_REGISTER_WRITE. -/
def execMuteRegisterWrite (id : ReqId) (reg : MuteReg) (data : Word) (s : State) : Host.Outcome State Fault Refusal :=
  .next (s.bus (wrAcc id (muteAddr reg) data))

/-- Meaning of SUSPECT_CLEAR: a write of one half of `SUSPECT`. -/
def execSuspectClear (id : ReqId) (hi : Bool) (data : Word) (s : State) : Host.Outcome State Fault Refusal :=
  .next (s.bus (wrAcc id (if hi then THM.SUSPECT_HI else THM.SUSPECT_LO) data))

end Sys2Proof.Machine
end

