-- ==== Sys2Proof/Machine/CoreArith.lean ====
section
/-!
DEFINITION. The arithmetic of the M and S slots (R365, R379 to R381) and the address arithmetic of the L slot (R371, R372):
what an operation computes from the registers as a bundle reads them, with poison (R391).
-/
namespace Sys2Proof.Machine

/-- The header fields of a slot word (R365). -/
structure SlotHdr where
  cls : Nat
  sat : Bool
  guarded : Bool
  negate : Bool
  pred : Nat
  deriving DecidableEq, Repr

/-- The header of the slot whose 30 bits begin at a bit of the bundle (R364, R365). -/
def slotHdr (bundle lo : Nat) : SlotHdr :=
  ⟨bitsOf bundle (lo + 26) 4, bitsOf bundle (lo + 25) 1 = 1, bitsOf bundle (lo + 24) 1 = 1, bitsOf bundle (lo + 23) 1 = 1,
    bitsOf bundle (lo + 20) 3⟩

/-- The class of an M operation (R365). -/
def mClass : MOp → Nat
  | .nop => 0
  | .cmac .. => 1
  | .cmul .. => 2
  | .dmac .. => 3
  | .mag2 .. => 4
  | .pair .. => 5
  | .alu .. => 6
  | .logic .. => 7
  | .cmp .. => 8
  | .extract .. => 9
  | .clearAc .. => 9
  | .moveAc .. => 9
  | .extractIdx .. => 9
  | .searchInit .. => 0xA
  | .search .. => 0xA

/-- The class of an L operation; a load may be written as class 0x1 and a store as class 0x2 (R365). -/
def lClass : LOp → Nat
  | .nop => 0
  | .load .. => 1
  | .store .. => 2
  | .dualLoad .. => 3
  | .loadStore .. => 4
  | .ptr .. => 5
  | .ptrMo .. => 5
  | .ptrCl .. => 5
  | .special .. => 6

/-- The class of an S operation (R365). -/
def sClass : SOp → Nat
  | .nop => 0
  | .alu .. => 1
  | .imm .. => 2
  | .cmp .. => 3
  | .plogic .. => 3
  | .ptest .. => 3
  | .branch .. => 4
  | .call .. => 5
  | .ret => 5
  | .loop .. => 6
  | .loopG .. => 6
  | .di | .ei | .rti | .wait | .halt | .fence => 7

/-- A result narrowed to w bits: clamped under sat, else wrapped; and whether it was clamped (R379). -/
def narrow (useSat : Bool) (v : Int) (w : Nat) : Nat × Bool :=
  if useSat then (unsigned (sat v w) w, decide (sat v w ≠ v)) else (unsigned v w, false)

/-- The I half of an accumulator, signed in units of 2^−30 (R367). -/
def acI (a : BitVec 80) : Int := signed (bitsOf a.toNat 0 40) 40
/-- The Q half of an accumulator. -/
def acQ (a : BitVec 80) : Int := signed (bitsOf a.toNat 40 40) 40

/-- An accumulator from its two halves under the sat bit. -/
def mkAc (useSat : Bool) (i q : Int) : BitVec 80 × Bool :=
  let a := narrow useSat i 40
  let b := narrow useSat q 40
  (BitVec.ofNat 80 (a.1 + 2 ^ 40 * b.1), a.2 || b.2)

/-- What the operations of one slot produce: results with their latencies, a clamp (ist.sv), accumulator writes by class for
the chains of R375. -/
structure MEff where
  fl : List Flight
  sv : Bool
  ac : List (Nat × Nat × BitVec 80 × Bool)
  deriving DecidableEq, Repr

/-- No effect. -/
def MEff.none : MEff := ⟨[], false, []⟩

/-- One result into g register d. -/
def gOut (k : Core) (d : Nat) (lat : Nat) (v : Nat) (p sv : Bool) : MEff :=
  ⟨[⟨lat, .g (physReg k.rb d) (BitVec.ofNat 32 v), p⟩], sv, []⟩

/-- One result into accumulator n. -/
def acOut (cls n lat : Nat) (v : BitVec 80 × Bool) (p : Bool) : MEff :=
  ⟨[⟨lat, .ac n v.1, p⟩], v.2, [(cls, n, v.1, p)]⟩

/-- A complex g register. -/
def Core.cx (k : Core) (i : Nat) : Cx := Cx.ofWord (k.rg i)

/-- The pair ALU on one 16-bit part (R365). -/
def pairPart (fn : PairFn) (a b : Int) : Int :=
  match fn with
  | .add => a + b
  | .sub => a - b
  | .neg => -a
  | .abs => a.natAbs
  | .avg => (a + b) / 2 + (if (a + b) % 2 ≠ 0 ∧ Config.averageUp (a + b) then 1 else 0)

/-- An operation of the pair ALU reads its second operand. -/
def pairBinary : PairFn → Bool
  | .neg | .abs => false
  | _ => true
/-- An operation of the scalar ALU reads its second operand. -/
def aluBinary : AluFn → Bool
  | .neg | .abs => false
  | _ => true
/-- A logic operation reads its second operand. -/
def logicBinary : LogicFn → Bool
  | .not => false
  | _ => true
/-- A predicate operation reads its second operand. -/
def predBinary : PredFn → Bool
  | .not => false
  | _ => true

/-- Poison of a result in g registers x and, where the operation reads it, y (R391). -/
def Core.rgPs (k : Core) (x y : Nat) (binary : Bool) : Bool := k.rgP x || (binary && k.rgP y)

/-- The scalar ALU on signed 32-bit values (R365). -/
def aluVal (fn : AluFn) (a b : Int) : Int :=
  match fn with
  | .add => a + b
  | .sub => a - b
  | .neg => -a
  | .abs => a.natAbs

/-- Logic and shift (R365). -/
def logicVal (fn : LogicFn) (a b : Word) : Word :=
  match fn with
  | .and => a &&& b
  | .or => a ||| b
  | .xor => a ^^^ b
  | .not => ~~~a
  | .shl => if b.toNat < 32 then a <<< b.toNat else Config.wideShift 0 a b
  | .shr => if b.toNat < 32 then a >>> b.toNat else Config.wideShift 1 a b
  | .sar => if b.toNat < 32 then a.sshiftRight b.toNat else Config.wideShift 2 a b

/-- A comparison of two g registers. -/
def cmpVal (fn : CmpFn) (a b : Word) : Bool :=
  match fn with
  | .eq => a == b
  | .ne => a != b
  | .lt => a.slt b
  | .le => a.sle b
  | .ltu => a.ult b
  | .leu => a.ule b

/-- The accumulator an operation of a class continues (R375): the contribution M0 made in this bundle, else what an operation
of the same class wrote in the previous bundle, else the register. -/
def chainAc (k : Core) (m0 : List (Nat × Nat × BitVec 80 × Bool)) (cls n : Nat) : BitVec 80 × Bool :=
  match m0.find? (fun e => e.2.1 = n) with
  | some e => (e.2.2.1, e.2.2.2)
  | none => (match k.lastAc.find? (fun e => e.1 = cls ∧ e.2.1 = n) with
    | some e => (e.2.2.1, e.2.2.2)
    | none => (k.ac.get n 0, k.acP.get n false))

/-- A chain continues accumulator n for a class. -/
def chained (k : Core) (m0 : List (Nat × Nat × BitVec 80 × Bool)) (cls n : Nat) : Bool :=
  m0.any (fun e => e.2.1 = n) || k.lastAc.any (fun e => e.1 = cls ∧ e.2.1 = n)

/-- One element of a search (R381). -/
def searchStep (max : Bool) (st : Int × Nat × Nat) (v : Int) : Int × Nat × Nat :=
  let better : Bool := if max then decide (v > st.1) else decide (v < st.1)
  ((if better then v else st.1), (if better then st.2.2 else st.2.1), (st.2.2 + 1) % 65536)

/-- The search layout of an accumulator (R381). -/
def searchAc (st : Int × Nat × Nat) : BitVec 80 :=
  BitVec.ofNat 80 (unsigned st.1 40 + 2 ^ 40 * (st.2.1 % 65536) + 2 ^ 56 * (st.2.2 % 65536))

/-- What an M slot produces (R365, R379 to R381); `m0` is what M0 wrote when this is M1 (log 51). -/
def execM (k : Core) (useSat : Bool) (m0 : List (Nat × Nat × BitVec 80 × Bool)) : MOp → MEff
  | .nop => .none
  | .cmac ac x y sub conj clr =>
    let a := if clr then (0, false) else chainAc k m0 1 ac
    let p := (k.cx x).mul (if conj then (k.cx y).conj else k.cx y)
    let sg : Int := if sub then -1 else 1
    acOut 1 ac 3 (mkAc useSat (acI a.1 + sg * p.i) (acQ a.1 + sg * p.q)) (a.2 || k.rgP x || k.rgP y)
  | .cmul d x y conj =>
    let p := (k.cx x).mul (if conj then (k.cx y).conj else k.cx y)
    let i := narrow useSat (rhe p.i (2 ^ 15)) 16
    let q := narrow useSat (rhe p.q (2 ^ 15)) 16
    gOut k d 3 (i.1 + 2 ^ 16 * q.1) (k.rgP x || k.rgP y) (i.2 || q.2)
  | .dmac ac x y sub clr =>
    let a := if clr then (0, false) else chainAc k m0 3 ac
    let sg : Int := if sub then -1 else 1
    acOut 3 ac 3 (mkAc useSat (acI a.1 + sg * ((k.cx x).i * (k.cx y).i)) (acQ a.1 + sg * ((k.cx x).q * (k.cx y).q)))
      (a.2 || k.rgP x || k.rgP y)
  | .mag2 ac x =>
    let c := chained k m0 4 ac
    let a := if c then chainAc k m0 4 ac else (0, false)
    acOut 4 ac 3 (mkAc useSat (acI a.1 + (k.cx x).mag2) (if c then acQ a.1 else 0)) (a.2 || k.rgP x)
  | .pair fn d x y =>
    let i := narrow useSat (pairPart fn (k.cx x).i (k.cx y).i) 16
    let q := narrow useSat (pairPart fn (k.cx x).q (k.cx y).q) 16
    gOut k d 1 (i.1 + 2 ^ 16 * q.1) (k.rgPs x y (pairBinary fn)) (i.2 || q.2)
  | .alu fn d x y =>
    let v := narrow useSat (aluVal fn (k.rg x).toInt (k.rg y).toInt) 32
    gOut k d 1 v.1 (k.rgPs x y (aluBinary fn)) v.2
  | .logic fn d x y => gOut k d 1 (logicVal fn (k.rg x) (k.rg y)).toNat (k.rgPs x y (logicBinary fn)) false
  | .cmp fn p x y => ⟨[⟨1, .pd p (cmpVal fn (k.rg x) (k.rg y)), k.rgP x || k.rgP y⟩], false, []⟩
  | .extract d ac s =>
    let a := k.ac.get ac 0
    let i := narrow useSat (rhe (acI a) (2 ^ (15 + s.val))) 16
    let q := narrow useSat (rhe (acQ a) (2 ^ (15 + s.val))) 16
    gOut k d 2 (i.1 + 2 ^ 16 * q.1) (k.acP.get ac false) (i.2 || q.2)
  | .clearAc ac => acOut 9 ac 2 (0, false) false
  | .moveAc d ac => acOut 9 d 2 (k.ac.get ac 0, false) (k.acP.get ac false)
  | .extractIdx d ac value =>
    let a := k.ac.get ac 0
    if value then
      let v := narrow useSat (acI a) 32
      gOut k d 2 v.1 (k.acP.get ac false) v.2
    else gOut k d 2 (bitsOf a.toNat 40 16) (k.acP.get ac false) false
  | .searchInit ac max => acOut 0xA ac 2 (searchAc (if max then -(2 ^ 39) else 2 ^ 39 - 1, 0, 0), false) false
  | .search ac x max mag =>
    let a := chainAc k m0 0xA ac
    let st := (acI a.1, bitsOf a.1.toNat 40 16, bitsOf a.1.toNat 56 16)
    let st' := if mag then searchStep max st (k.cx x).mag2
      else searchStep max (searchStep max st ((k.cx x).i * 2 ^ 15)) ((k.cx x).q * 2 ^ 15)
    acOut 0xA ac 2 (searchAc st', false) (a.2 || k.rgP x)

/-- Post-modification of a pointer (R372). -/
def postMod (a : Nat) (m : Int) (k : Nat) : Nat :=
  let k := if 8 ≤ k ∧ k ≤ 18 then k else 0
  if k = 0 then unsigned (a + m) 32 else a - a % 2 ^ k + unsigned (a + m) k

/-- Bits [k−1:0] of v in reverse order. -/
def revBits : Nat → Nat → Nat
  | 0, _ => 0
  | k + 1, v => v % 2 * 2 ^ k + revBits k (v / 2)

/-- Bit-reversed post-modification (R372). -/
def postModRev (a : Nat) (m : Int) (k : Nat) : Nat :=
  let k := if 8 ≤ k ∧ k ≤ 18 then k else 0
  if k = 0 then unsigned (a + m) 32
  else a - a % 2 ^ k + revBits k ((revBits k (a % 2 ^ k) + revBits k (unsigned m k)) % 2 ^ k)

/-- A signed pointer offset register. -/
def Core.moI (k : Core) (n : Nat) : Int := (k.mo.get n 0).toInt

/-- The address an access forms, and whether a poisoned pointer or offset forms it (R371, R392). -/
def memAddr (k : Core) (m : MemOp) : Nat × Bool :=
  let a := (k.ap.get m.n 0).toNat
  let p := k.apP.get m.n false
  match m.mode with
  | .offset imm => (unsigned (a + imm.toInt * m.size) 32, p)
  | .indexed => (unsigned (a + k.moI m.n) 32, p || k.moP.get m.n false)
  | _ => (a, p)

/-- The pointer an access leaves (R371): its new value where the mode modifies it. -/
def ptrAfter (k : Core) (n : Nat) (mode : AddrMode) (size : Nat) : List Flight :=
  let a := (k.ap.get n 0).toNat
  let c := k.cl.get n 0
  let p := k.apP.get n false
  match mode with
  | .postReg => [⟨1, .ap n (BitVec.ofNat 32 (postMod a (k.moI n) c)), p || k.moP.get n false⟩]
  | .postImm imm => [⟨1, .ap n (BitVec.ofNat 32 (postMod a (imm.toInt * size) c)), p⟩]
  | .postRev => [⟨1, .ap n (BitVec.ofNat 32 (postModRev a (k.moI n) c)), p || k.moP.get n false⟩]
  | _ => []

/-- Whether a mode modifies its pointer. -/
def modifies : AddrMode → Bool
  | .postReg => true
  | .postImm _ => true
  | .postRev => true
  | _ => false

/-- The pointers an L operation post-modifies (R366). -/
def lModified : LOp → List Nat
  | .load m _ => if modifies m.mode then [m.n.val] else []
  | .store m _ => if modifies m.mode then [m.n.val] else []
  | .dualLoad a b _ _ => (if modifies a.mode then [a.n.val] else []) ++ (if modifies b.mode then [b.n.val] else [])
  | .loadStore a _ b _ => (if modifies a.mode then [a.n.val] else []) ++ (if modifies b.mode then [b.n.val] else [])
  | .ptr n mode => if modifies mode then [n.val] else []
  | _ => []

/-- The loads of an L operation with their destinations. -/
def lLoads : LOp → List (MemOp × Nat)
  | .load m d => [(m, d.val)]
  | .dualLoad a b d0 d1 => [(a, d0.val), (b, d1.val)]
  | .loadStore a d _ _ => [(a, d.val)]
  | _ => []

/-- The stores of an L operation with their sources. -/
def lStores : LOp → List (MemOp × Nat)
  | .store m x => [(m, x.val)]
  | .loadStore _ _ m x => [(m, x.val)]
  | _ => []

/-- A special register's value as a g register holds it, and its poison (R365, R370). -/
def readSp (k : Core) : SpReg → Word × Bool
  | .ap n => (k.ap.get n 0, k.apP.get n false)
  | .mo n => (k.mo.get n 0, k.moP.get n false)
  | .cl n => (BitVec.ofNat 32 (k.cl.get n 0), k.clP.get n false)
  | .pd => (k.pd.setWidth 32, k.pdP != 0)
  | .lc l => (BitVec.ofNat 32 (sel2 k.lc l), k.spP.get l false)
  | .lb l => (BitVec.ofNat 32 (sel2 k.lb l), k.spP.get (2 + l) false)
  | .le l => (BitVec.ofNat 32 (sel2 k.le l), k.spP.get (4 + l) false)
  | .rb => (BitVec.ofNat 32 k.rb, k.spP.get 6 false)
  | .ipc => (BitVec.ofNat 32 k.ipc, k.spP.get 7 false)
  | .ist => (k.ist, k.spP.get 8 false)

/-- The poison bit of a register (R367). -/
def poisonOf (k : Core) : TestReg → Bool
  | .g x => k.rgP x
  | .ac n => k.acP.get n false
  | .pd n => k.pdP.getLsbD n
  | .sp r => (readSp k r).2

/-- The results of a special move into a special register (R370, R374). -/
def writeSp (v : Word) (p : Bool) : SpReg → List Flight
  | .ap n => [⟨1, .ap n v, p⟩]
  | .mo n => [⟨1, .mo n v, p⟩]
  | .cl n => [⟨1, .cl n (bits v 0 5), p⟩]
  | .pd => (List.range 8).map fun n => ⟨1, .pd n (bit v n), p⟩
  | .lc l => [⟨1, .lc l (bits v 0 16), p⟩]
  | .lb l => [⟨1, .lb l (bits v 0 13), p⟩]
  | .le l => [⟨1, .le l (bits v 0 13), p⟩]
  | .rb => [⟨1, .rb (bits v 0 5), p⟩]
  | .ipc => [⟨1, .ipc (bits v 0 13), p⟩]
  | .ist => [⟨1, .ist (v &&& 0x1FFF01FF#32), p⟩]

/-- Moves whose destination consumes poison (R392): lc, lb, le, rb, cl and `ist`. -/
def spConsumes : SpReg → Bool
  | .cl _ => true
  | .lc _ => true
  | .lb _ => true
  | .le _ => true
  | .rb => true
  | .ist => true
  | _ => false

/-- Predicate logic of class S 0x3. -/
def predVal (fn : PredFn) (a b : Bool) : Bool :=
  match fn with
  | .and => a && b
  | .or => a || b
  | .xor => a != b
  | .not => !a

/-- The three registers that a loop setup of a level writes in bundle pc (R377). -/
def loopFlights (pc l len n : Nat) : List Flight :=
  [⟨1, .lb l ((pc + 1) % 8192), false⟩, ⟨1, .le l ((pc + len) % 8192), false⟩, ⟨1, .lc l n, false⟩]

/-- What an S slot writes to registers (classes 0x1 to 0x3, the link of a call, a loop setup: R365, R376, R377). -/
def execS (k : Core) (useSat : Bool) (pc : Nat) : SOp → MEff
  | .alu fn d x y =>
    let v := narrow useSat (aluVal fn (k.rg x).toInt (k.rg y).toInt) 32
    gOut k d 1 v.1 (k.rgPs x y (aluBinary fn)) v.2
  | .imm d v => gOut k d 1 v.toNat false false
  | .cmp fn p x y => ⟨[⟨1, .pd p (cmpVal fn (k.rg x) (k.rg y)), k.rgP x || k.rgP y⟩], false, []⟩
  | .plogic fn p x y =>
    ⟨[⟨1, .pd p (predVal fn (k.pd.getLsbD x) (k.pd.getLsbD y)), k.pdP.getLsbD x || (predBinary fn && k.pdP.getLsbD y)⟩], false, []⟩
  | .ptest p r => ⟨[⟨1, .pd p (poisonOf k r), false⟩], false, []⟩
  | .call _ => ⟨[⟨1, .g 31 (BitVec.ofNat 32 ((pc + 3) % 8192)), false⟩], false, []⟩
  | .loop l len n => ⟨loopFlights pc l len n.toNat, false, []⟩
  | .loopG l len x => ⟨loopFlights pc l len (bits (k.rg x) 0 16), false, []⟩
  | _ => .none

/-- The target of a branch, call or return that is taken (R376). -/
def branchTarget (k : Core) : SOp → Option Nat
  | .branch t none => some t.toNat
  | .branch t (some (p, neg)) => if k.pd.getLsbD p != neg then some t.toNat else none
  | .call t => some t.toNat
  | .ret => some (bits (k.rg 31) 0 13)
  | _ => none

/-- The operations that may not stand in a delay slot (R376). -/
def isControl : SOp → Bool
  | .branch .. => true
  | .call _ => true
  | .ret => true
  | .rti => true
  | .loop .. => true
  | .loopG .. => true
  | _ => false

end Sys2Proof.Machine
end

