-- ==== Sys2Proof/Machine/CoreIssue.lean ====
section
/-!
DEFINITION. The issue of a bundle (R359 to R393): fetch, illegal bundles, guards, consumption of poison, alignment, loads and
stores, delay slots, loops, rotation, system operations, exceptions; and the responses and acknowledgements a core waits for.
-/
namespace Sys2Proof.Machine

/-- IMEM address of bundle i of core c (R359). -/
def bundleAddr (c i : Nat) : Nat := 0x08000000 + c * 0x100000 + 16 * (i % 8192)

/-- An address in the DMEM window of core c (R358). -/
def ownDmem (c a : Nat) : Bool :=
  decide (0x08080000 + c * 0x100000 ≤ a) && decide (a < 0x080C0000 + c * 0x100000)

/-- The four slot headers of a bundle (R364). -/
def slotsOf (w : Nat) : SlotHdr × SlotHdr × SlotHdr × SlotHdr :=
  (slotHdr w 98, slotHdr w 68, slotHdr w 38, slotHdr w 8)

/-- A slot executes (R365). -/
def slotRuns (k : Core) (h : SlotHdr) : Bool := !h.guarded || (k.pd.getLsbD h.pred != h.negate)

/-- A slot's guard predicate is poisoned (R392). -/
def guardPoisoned (k : Core) (h : SlotHdr) : Bool := h.guarded && k.pdP.getLsbD h.pred

/-- The bundle is illegal (R366). -/
def illegalBundle (w : Nat) (l : LOp) : Bool :=
  let h := slotsOf w
  bitsOf w 0 2 != 0 || decide (h.1.cls > 0xA) || decide (h.2.1.cls > 0xA) || decide (h.2.2.1.cls > 6) ||
    decide (h.2.2.2.cls > 7) || !(lModified l).Nodup

/-- The slot that `EXC.slot` names for an illegal bundle: the first with an unlisted class; L, where an ap is modified twice; 0 for the
reserved header bits (R366; log 48). -/
def illegalSlot (w : Nat) (l : LOp) : Nat :=
  let h := slotsOf w
  if h.1.cls > 0xA then 0
  else if h.2.1.cls > 0xA then 1
  else if h.2.2.1.cls > 6 then 2
  else if h.2.2.2.cls > 7 then 3
  else if (lModified l).Nodup then 0 else 2

/-- The operand fields the command carries belong to the bundle in IMEM: class by class (log 26). -/
def opsMatch (w : Nat) (o : BundleOps) : Bool :=
  let h := slotsOf w
  h.1.cls == mClass o.m0 && h.2.1.cls == mClass o.m1 && h.2.2.1.cls == lClass o.l && h.2.2.2.cls == sClass o.s

/-- The first exception that the bundle raises before its accesses: cause, slot, data address (R366, R373, R376, R378, R392; log 48). -/
def issueExc (k : Core) (w : Nat) (o : BundleOps) : Option (Nat × Nat × Nat) :=
  let h := slotsOf w
  let hs := [h.1, h.2.1, h.2.2.1, h.2.2.2]
  let lRuns := slotRuns k h.2.2.1
  let sRuns := slotRuns k h.2.2.2
  let loads := if lRuns then lLoads o.l else []
  let stores := if lRuns then lStores o.l else []
  let acc := loads ++ stores
  if illegalBundle w o.l then some (1, illegalSlot w o.l, 0)
  else if k.branch.isSome ∧ isControl o.s then some (6, 3, 0)
  else match (List.range 4).find? (fun n => guardPoisoned k (hs.getD n h.1)) with
  | some n => some (2, n, 0)
  | none =>
    match acc.find? (fun m => (memAddr k m.1).2) with
    | some m => some (2, 2, (memAddr k m.1).1)
    | none =>
      match stores.find? (fun m => (k.rgP m.2 || (m.1.size = 8 && k.rgP (m.2 + 1))) && storeConsumes (memAddr k m.1).1) with
      | some m => some (2, 2, (memAddr k m.1).1)
      | none =>
        let spBad : Bool := match o.l with
          | .special false r g => lRuns && spConsumes r && k.rgP g
          | _ => false
        if spBad then some (2, 2, 0)
        else
          let sBad : Bool := match o.s with
            | .branch _ (some (p, _)) => sRuns && k.pdP.getLsbD p
            | .loopG _ _ x => sRuns && k.rgP x
            | _ => false
          if sBad then some (2, 3, 0)
          else match acc.find? (fun m => decide ((memAddr k m.1).1 % m.1.size ≠ 0)) with
          | some m => some (3, 2, (memAddr k m.1).1)
          | none =>
            let near (l : Nat) : Bool := sel2 k.lc l != 0 &&
              [0, 1, 2].any fun d => sel2 k.le l = (k.pc + d) % 8192
            if sRuns ∧ (branchTarget k o.s).isSome ∧ (near 0 ∨ near 1) then some (7, 3, 0) else none

/-- Core c takes an exception at the bundle it was to issue (R389); inside a handler it halts with events 4 and 1 (R390, R393; log 48).
The entry is no non-maskable interrupt (R385). -/
def State.coreException (s : State) (c cause slot addr : Nat) : State :=
  let k := (s.core c).drain
  if k.istBit 2 then
    let s := s.setCore c { k with mode := .halted, haltReq := false, remote := none, loaded := [], branch := none }
    let s := (((s.set (CORE.STAT_double c) 1).set (CORE.STAT_hpc c) k.pc).raise (CORE.base c) 4).raise (CORE.base c) 1
    s.freeze 0
  else
    let k := { k with ipc := k.pc, spP := k.spP.put 7 false false }
    let k := ((k.setIst 3 false).setIst 2 true)
    let k := ((k.setIst 1 (k.istBit 0)).setIst 0 false).setIst 8 false
    let inSlot := k.branch.isSome
    let k := match k.branch with
      | some (n, t) =>
        let k := k.setIst 5 true
        { k with ist := BitVec.ofNat 32 (setBits (setBits k.ist.toNat 6 2 n) 16 13 t) }
      | none => k
    let s := s.setCore c { k with mode := .running, pc := s.get (CORE.VEC_exc c), branch := none, remote := none, loaded := [] }
    let s := (s.set (CORE.EXC_cause c) cause).set (CORE.EXC_slot c) slot
    let s := ((s.setFlag (CORE.EXC_ds c) inSlot).set (CORE.EXC_pc c) k.ipc).set (CORE.EXC_ADDR_addr c) addr
    s.raise (CORE.base c) 2

/-- One load of core c (R361): its own DMEM at once, any other address over the bus. -/
def State.coreLoad (s : State) (c a size : Nat) (u : Option Upset) : State :=
  if ownDmem c a then (s.found a u).secdedRead (8 + c) a size
  else (s.found a u).bus ⟨BitVec.ofNat 8 (0x10 + c), false, BitVec.ofNat 32 a, size, 0, false⟩

/-- One store of core c (R363): posted; a store beyond its own DMEM is outstanding until acknowledged, but for one that resets the core
(R393). -/
def State.coreStore (s : State) (c a size v : Nat) (p : Bool) : State :=
  if ownDmem c a then (s.secdedWrite (8 + c) a size v p).touch a
  else
    let t := s.bus ⟨BitVec.ofNat 8 (0x10 + c), true, BitVec.ofNat 32 a, size, BitVec.ofNat 64 v, p⟩
    let k := t.core c
    if k = Core.reset then t else t.setCore c { k with stores := k.stores + 1 }

/-- What a load delivers (R371, R374, R391): sign or zero extended, a 64-bit load into gN and gN + 1. -/
def loadFlights (k : Core) (m : MemOp) (d : Nat) (r : Resp) : List Flight :=
  let v := r.data.toNat
  let w : Nat := if m.size = 1 ∨ m.size = 2 then
      (if m.sext then unsigned (signed (v % 2 ^ (8 * m.size)) (8 * m.size)) 32 else v % 2 ^ (8 * m.size))
    else v % 2 ^ 32
  ⟨4, .g (physReg k.rb d) (BitVec.ofNat 32 w), r.poison⟩ ::
    (if m.size = 8 then [⟨4, .g (physReg k.rb (d + 1)) (BitVec.ofNat 32 (v / 2 ^ 32)), r.poison⟩] else [])

/-- The loads of a bundle in order, with the responses that earlier tries have had: the state, and the response of each load, none
where its access waits for a domain (R54). No access is made twice. -/
def State.coreLoads (s : State) (c : Nat) (k : Core) (u : Option Upset) :
    List (MemOp × Nat) → List (Option Resp) → State × List (Option Resp)
  | [], _ => (s, [])
  | (m, _) :: t, h =>
    match h.headD none with
    | some r => let q := State.coreLoads s c k u t h.tail; (q.1, some r :: q.2)
    | none =>
      let s' := s.coreLoad c (memAddr k m).1 m.size u
      let waits : Bool := decide (s.stalled.length < s'.stalled.length)
      let q := State.coreLoads (if waits then { s' with stalled := s.stalled } else s') c k none t h.tail
      (q.1, (if waits then none else some s'.resp) :: q.2)

/-- What the loads of a bundle deliver once all have their response, and the first address that got an error response. -/
def loadResults (k : Core) : List ((MemOp × Nat) × Resp) → List Flight × Option Nat
  | [] => ([], none)
  | ((m, d), r) :: t =>
    let q := loadResults k t
    (loadFlights k m d r ++ q.1, if r.error then some (memAddr k m).1 else q.2)

/-- The stores of a bundle in order. -/
def State.coreStores (s : State) (c : Nat) (k : Core) : List (MemOp × Nat) → State
  | [] => s
  | (m, x) :: t =>
    let v := (k.rg x).toNat + (if m.size = 8 then 2 ^ 32 * (k.rg (x + 1)).toNat else 0)
    let p := k.rgP x || (m.size = 8 && k.rgP (x + 1))
    (s.coreStore c (memAddr k m).1 m.size v p).coreStores c k t

/-- The results an L slot writes besides its loads (R371, R374). -/
def lFlights (k : Core) : LOp → List Flight
  | .load m _ => ptrAfter k m.n m.mode m.size
  | .store m _ => ptrAfter k m.n m.mode m.size
  | .dualLoad a b _ _ => ptrAfter k a.n a.mode a.size ++ ptrAfter k b.n b.mode b.size
  | .loadStore a _ b _ => ptrAfter k a.n a.mode a.size ++ ptrAfter k b.n b.mode b.size
  | .ptr n mode => ptrAfter k n mode 1
  | .ptrMo n imm => [⟨1, .mo n (BitVec.ofInt 32 imm), false⟩]
  | .ptrCl n v => [⟨1, .cl n (v % 32), false⟩]
  | .special true r g => (let v := readSp k r; [⟨1, .g (physReg k.rb g) v.1, v.2⟩])
  | .special false r g => writeSp (k.rg g) (k.rgP g) r
  | .nop => []

/-- A taken branch to a target outside an active loop ends that loop (R377); bundle numbers wrap (R359). -/
def leaveLoops (k : Core) (t : Nat) : Core :=
  let off (l x : Nat) : Nat := (x + 8192 - sel2 k.lb l % 8192) % 8192
  let out (l : Nat) : Bool := sel2 k.lc l != 0 && decide (off l (sel2 k.le l) < off l t)
  let k := if out 0 then { k with lc := put2 k.lc 0 0 } else k
  if out 1 then { k with lc := put2 k.lc 1 0 } else k

/-- The end of bundle le of an active loop (R377): level 1 first; the second component is the next bundle when it iterates. -/
def loopEnd (k : Core) (pc : Nat) : Core × Option Nat :=
  let level (k : Core) (l : Nat) : Core × Option Nat × Bool :=
    if sel2 k.lc l ≠ 0 ∧ sel2 k.le l = pc then
      (if sel2 k.lc l ≥ 2 then ({ k with lc := put2 k.lc l (sel2 k.lc l - 1) }, some (sel2 k.lb l), true)
       else ({ k with lc := put2 k.lc l 0 }, none, true))
    else (k, none, false)
  let r := level k 1
  match r.2.1 with
  | some t => (r.1, some t)
  | none => let q := level r.1 0; (q.1, q.2.1)

/-- The bundle is the last bundle of an active loop (R368). -/
def atLoopEnd (k : Core) (pc : Nat) : Bool :=
  (k.lc.1 != 0 && k.le.1 = pc) || (k.lc.2 != 0 && k.le.2 = pc)

/-- A loop setup: body length, count (R377). -/
def loopSetup (k : Core) : SOp → Option (Nat × Nat)
  | .loop _ len n => some (len, n.toNat)
  | .loopG _ len x => some (len, bits (k.rg x) 0 16)
  | _ => none

/-- The system operation of a bundle on the core itself (R383 to R385, R393); `r` holds the registers as the bundle read them (R374). -/
def sysOp (r k : Core) : SOp → Core
  | .di => { k.setIst 0 false with di := true }
  | .ei => { k.setIst 0 true with di := false }
  | .wait => { k with mode := .waiting }
  | .halt => { k with haltReq := true }
  | .fence => if k.stores = 0 then k else { k with mode := .fencing }
  | .rti =>
    let k' := (k.setIst 0 (r.istBit 1)).setIst 2 (r.istBit 3)
    if r.istBit 5 then
      { k'.setIst 5 false with pc := r.ipc, branch := some (bits r.ist 6 2, bits r.ist 16 13) }
    else { k' with pc := r.ipc }
  | _ => k

/-- The registers of core c after a bundle has issued without an exception; `fl` are the results of its loads. A clamp of an M slot sets
`ist.sv` before a special move of the L slot lands in `ist`, one of the S slot after it (R375). -/
def Core.issued (k : Core) (w : Nat) (o : BundleOps) (fl : List Flight) : Core :=
  let h := slotsOf w
  let e0 := if slotRuns k h.1 then execM k h.1.sat [] o.m0 else .none
  let e1 := if slotRuns k h.2.1 then execM k h.2.1.sat e0.ac o.m1 else .none
  let lf := if slotRuns k h.2.2.1 then fl ++ lFlights k o.l else []
  let sRuns := slotRuns k h.2.2.2
  let es := if sRuns then execS k h.2.2.2.sat k.pc o.s else .none
  let tgt := if sRuns then branchTarget k o.s else none
  let setup := if sRuns then loopSetup k o.s else none
  let pc := k.pc
  let le := loopEnd k pc
  let rot := bitsOf w 3 5 != 0 && (bitsOf w 2 1 = 1 || atLoopEnd k pc)
  let next := match k.branch, le.2 with
    | some (1, t), _ => t
    | _, some t => t
    | _, none => pc + 1
  let k1 := { le.1 with
    flights := k.flights ++ e0.fl ++ e1.fl ++ lf ++ es.fl
    lastAc := e1.ac ++ e0.ac
    pc := next % 8192
    branch := match k.branch with
      | some (2, t) => some (1, t)
      | _ => none
    rb := if rot then (k.rb + bitsOf w 3 5) % 32 else k.rb }
  let k1 := if e0.sv || e1.sv then k1.setIst 4 true else k1
  let k1 := match tgt with
    | some t => { leaveLoops k1 t with branch := some (2, t) }
    | none => k1
  let k1 := match setup with
    | some (len, 0) => { k1 with pc := (pc + len + 1) % 8192 }.boundary.boundary.boundary
    | _ => k1.boundary
  let k1 := if es.sv then k1.setIst 4 true else k1
  if sRuns then sysOp k k1 o.s else k1

/-- Core c completes the issue of a bundle whose checks passed: loads, an access error, stores, then the registers. -/
def State.coreComplete (s : State) (c w : Nat) (o : BundleOps) : State :=
  let k := s.core c
  let runs := slotRuns k (slotsOf w).2.2.1
  let loads := if runs then lLoads o.l else []
  let r := s.coreLoads c k o.loadUpset loads k.loaded
  if r.2.any (·.isNone) then
    -- an access waits for its domain (R54): issue stays stopped, and the others keep their responses
    r.1.setCore c { r.1.core c with mode := .remote, remote := some { o with loadUpset := none }, loaded := r.2 }
  else
    let d := loadResults k (loads.zip (r.2.filterMap id))
    match d.2, s.flag (CORE.CTRL_aerr_exc c) with
    | some a, true => r.1.coreException c 4 2 a
    | _, _ =>
      let t := (r.1.setCore c { r.1.core c with mode := .remote }).coreStores c k (if runs then lStores o.l else [])
      let b := t.core c
      -- a store may have reached the core's own page: what it changed there stands
      let k' := ({ k with
        stores := b.stores, latched := b.latched, nmi := b.nmi, wdog := b.wdog
        haltReq := b.haltReq, mode := .running, remote := none, loaded := [] }).issued w o d.1
      if b = Core.reset then t
      else
        let t := t.setCore c k'
        if k'.haltReq ∧ k'.eligible ∧ !t.coreStalled c then t.coreHalt c else t

/-- A load of the bundle goes beyond the core's own DMEM (R361). -/
def needsBus (c : Nat) (k : Core) (w : Nat) (o : BundleOps) : Bool :=
  slotRuns k (slotsOf w).2.2.1 && (lLoads o.l).any fun m => !ownDmem c (memAddr k m.1).1

/-- Core c issues one bundle (R365), or halts at an eligible boundary (R393); nothing while an access of it waits (R361). -/
def State.coreIssue (s : State) (c : Nat) (o : BundleOps) : State :=
  let k := s.core c
  if k.mode ≠ .running ∨ !s.on (3 + c) ∨ s.coreStalled c then s
  else if k.haltReq ∧ k.eligible then s.coreHalt c
  else
    let a := bundleAddr c k.pc
    let s := ((s.found a o.fetchUpset).secdedCheck c a).secdedCheck c (a + 8)
    if s.poisoned a ∨ s.poisoned (a + 8) then s.coreException c 5 0 0
    else
      let w := s.load a 16
      if illegalBundle w o.l then s.coreException c 1 (illegalSlot w o.l) 0
      else if !opsMatch w o then s
      else match issueExc k w o with
      | some (cause, slot, addr) => s.coreException c cause slot addr
      | none =>
        if needsBus c k w o then s.setCore c { k with mode := .remote, remote := some o }
        else s.coreComplete c w o

/-- The response to a remote access of core c arrives, and issue resumes (R361). -/
def State.coreRespond (s : State) (c : Nat) : State :=
  let k := s.core c
  match k.mode, k.remote with
  | .remote, some o => s.coreComplete c (s.load (bundleAddr c k.pc) 16) o
  | _, _ => s

/-- The last outstanding store of core c is acknowledged (R363): issue resumes after a fence. Not while one waits for its domain. -/
def State.fenceDone (s : State) (c : Nat) : State :=
  if s.stalled.any fun (a : Access) => a.write && a.id.toNat == 0x10 + c then s
  else
  let k := s.core c
  let k := { k with stores := 0, mode := if k.mode = .fencing then .running else k.mode }
  let s := s.setCore c k
  if k.haltReq ∧ k.mode = .running ∧ k.eligible then s.coreHalt c else s

/-- Meaning of BUNDLE_ISSUE. -/
def execBundleIssue (c : Fin 8) (ops : BundleOps) (s : State) : Host.Outcome State Fault Refusal := .next (s.coreIssue c ops)

/-- Meaning of CORE_ACCESS_RESPONSE. -/
def execCoreAccessResponse (c : Fin 8) (s : State) : Host.Outcome State Fault Refusal := .next (s.coreRespond c)

/-- Meaning of FENCE_COMPLETE. -/
def execFenceComplete (c : Fin 8) (s : State) : Host.Outcome State Fault Refusal := .next (s.fenceDone c)

end Sys2Proof.Machine
end

