-- ==== Sys2Proof/Machine/Yarder.lean ====
section
/-!
DEFINITION. The Yarder engine (R396 to R411): the fetch and check of a descriptor, domain references, priorities, bursts and
beats.
-/
namespace Sys2Proof.Machine

/-- An access of channel k to a word: requester 0x40 + k (R396). -/
def State.chanRead (s : State) (k a : Nat) : State := s.bus ⟨BitVec.ofNat 8 (0x40 + k), false, BitVec.ofNat 32 a, 4, 0, false⟩

/-- Channel k reads the eight words of the descriptor at its consumer index (R398, R401): the words, whether one is poison-marked, whether a
read got an error response. -/
def State.descWords (s : State) (k : Nat) : State × List Word × Bool × Bool :=
  (List.range 8).foldl (fun (r : State × List Word × Bool × Bool) w =>
    let t := r.1.chanRead k (s.descAddr k + 4 * w)
    (t, r.2.1 ++ [t.resp.data.setWidth 32], r.2.2.1 || t.resp.poison, r.2.2.2 || t.resp.error)) (s, [], false, false)

/-- A descriptor from its words (R398). -/
def descOf (l : List Word) : Desc :=
  let w3 := l.getD 3 0
  { src := (l.getD 0 0).toNat, dst := (l.getD 1 0).toNat, len := (l.getD 2 0).toNat
    srcMode := bits w3 0 2, dstMode := bits w3 2 2, srcWrap := bits w3 4 5, dstWrap := bits w3 9 5
    burst := bits w3 14 6 + 1, srcReq := bit w3 20, dstReq := bit w3 21, crcApp := bit w3 22, irq := bit w3 23 }

/-- A side of a descriptor is well formed (R399). -/
def sideOk (a mode wrap : Nat) (req : Bool) : Bool :=
  (if req then mode == 1 else a % 4 == 0) && decide (mode < 3) && (mode != 2 || (decide (8 ≤ wrap) && decide (wrap ≤ 24)))

/-- The checks of R399 that end a descriptor with status 0x10; w3: its word 3. -/
def State.descBad (s : State) (k : Nat) (d : Desc) (w3 : Word) : Bool :=
  d.len == 0 || decide (d.len > 2 ^ 24) || d.len % 4 != 0 || !sideOk d.src d.srcMode d.srcWrap d.srcReq ||
    !sideOk d.dst d.dstMode d.dstWrap d.dstReq || (d.srcReq && d.dstReq) ||
    ((d.srcReq || d.dstReq) && s.get (YCH.CFG_periph k) == 0) || bits w3 24 8 != 0

/-- The memories and pages of the map with their domains (R37, R42, R519). -/
def domSpans : List (Nat × Nat × Nat) :=
  [(0, 0x20000, 1), (0x10000000, 0x10400000, 11), (0x18000000, 0x18040000, 0), (0x20000000, 0x20800000, 13),
    (0x30000000, 0x30280000, 12), (0x34000000, 0x34007800, 2), (0x38000000, 0x38005000, 2), (0x39000000, 0x39004000, 2)] ++
  ((List.range 8).flatMap fun c =>
    [(0x08000000 + 0x100000 * c, 0x08020000 + 0x100000 * c, 3 + c), (0x08080000 + 0x100000 * c, 0x080C0000 + 0x100000 * c, 3 + c)]) ++
  ((List.range 0x72).flatMap fun n => match pageOfNumber n with
    | some (k, i) =>
      let d := domOfPage k i
      let a := 0x40000000 + 0x1000 * n
      [(a, a + 0x40, if d = 0 then 0 else 2), (a + 0x40, a + 0x1000, d)]
    | none => [])

/-- The ranges from lo up to hi that a side of n bytes touches (R400): one word, a run, or what a circular side covers of its block. -/
def sideRanges (a n mode k : Nat) : List (Nat × Nat) :=
  if mode = 1 then [(a, a + 4)]
  else if mode = 0 then [(a, a + n)]
  else
    let lo := a - a % 2 ^ k
    if 2 ^ k ≤ n then [(lo, lo + 2 ^ k)]
    else if a + n ≤ lo + 2 ^ k then [(a, a + n)]
    else [(a, lo + 2 ^ k), (lo, a + n - 2 ^ k)]

/-- Where a range meets the spans of the map: the first address in each, with its domain. -/
def rangePlaces (r : Nat × Nat) : List (Nat × Nat) :=
  domSpans.filterMap fun (x : Nat × Nat × Nat) => if r.1 < x.2.1 ∧ x.1 < r.2 then some (max r.1 x.1, x.2.2) else none

/-- The places of a descriptor's ranges, its appended CRC among them (R404, R410). -/
def Desc.places (d : Desc) : List (Nat × Nat) :=
  ((if d.srcReq then [] else sideRanges d.src d.len d.srcMode d.srcWrap) ++
    (if d.dstReq then [] else sideRanges d.dst (if d.crcApp then d.len + 4 else d.len) d.dstMode d.dstWrap)).flatMap rangePlaces

/-- Starts the wake of every domain of a mask that is off (R54, R410). -/
def State.wakeAll (s : State) (m : BitVec 27) : State :=
  (List.range 27).foldl (fun t d => if m.getLsbD d ∧ !t.on d then t.startWake d else t) s

/-- Channel k has its descriptor: it takes its references and wakes their domains under R54; one that may not be woken fails (R410). -/
def State.descTake (s : State) (k : Nat) (d : Desc) : State :=
  let l := d.places
  let m := l.foldl (fun (m : BitVec 27) x => setBit m x.2 true) (domMask (s.descAddr k))
  let t := (s.setChan k { Chan.reset with desc := some d, refs := m }).set (YCH.POS_bytes k) 0
  match l.find? fun x => !t.on x.2 && !t.wakeOk x.1 x.2 with
  | some x => (t.logErr (pageOf x.1) 0x01 x.1).descEnd k 0x11
  | none => t.wakeAll m

/-- Channel k fetches the descriptor at its consumer index and checks it (R399, R403, R410): it takes a reference on the domain of the ring,
which is woken first. -/
def State.descFetch (s : State) (k : Nat) : State :=
  if !s.mayFetch k then s
  else
    let a := s.descAddr k
    let s := s.setChan k { s.chan k with refs := domMask a }
    if domMask a &&& ~~~s.pwr.domOn ≠ 0 then
      (if s.wakeOk a ((domOf a).getD 2) then s.wakeAll (domMask a) else (s.logErr (pageOf a) 0x01 a).descEnd k 0x11)
    else
      let r := s.descWords k
      if r.2.2.2 then r.1.descEnd k 0x11
      else if r.2.2.1 then r.1.descEnd k 0x12
      else
        let d := descOf r.2.1
        if r.1.descBad k d (r.2.1.getD 3 0) then r.1.descEnd k 0x10 else r.1.descTake k d

/-- The wake of domain d fails: the descriptors that wait for it end with status 0x11 (R410). -/
def State.chansTimeout (s : State) (d : Nat) : State :=
  (List.range 32).foldl (fun (t : State) k =>
    if !(t.chan k).paused ∧ (t.chanWaits k).getLsbD d then t.descEnd k 0x11 else t) s

/-- The next address of a side (R400). -/
def nextAddr (a mode k : Nat) : Nat :=
  if mode = 1 then a else if mode = 0 then (a + 4) % 2 ^ 32 else a - a % 2 ^ k + (a + 4) % 2 ^ k

/-- Channel k is the one served last at its priority. -/
def State.served (s : State) (k : Nat) : State := { s with yLast := s.yLast.set (s.get (YCH.CFG_prio k)) k }

/-- The channel that gets the next beat (R405): the highest priority; among equals the one in progress to the end of its burst, else the next
in ascending k counted round from the last served at that priority (log 112). -/
def State.winner (s : State) : Option Nat :=
  let ready := (List.range 32).filter s.chanReady
  let top := ready.foldl (fun m k => max m (s.get (YCH.CFG_prio k))) 0
  let best := ready.filter fun k => s.get (YCH.CFG_prio k) = top
  let last := s.yLast.getD top 0
  if best.contains last ∧ 0 < (s.chan last).left then some last
  else match best.find? (fun k => decide (k > last)) with
  | some k => some k
  | none => best.head?

/-- A burst of channel k starts once it wins the engine (R405, R406). -/
def State.burstStart (s : State) (k : Nat) : State :=
  let c := s.chan k
  if s.winner = some k ∧ c.left = 0 then (s.setChan k { c with left := c.nextBurst }).served k else s

/-- The word a beat reads: the word, its poison; none where an error response ends the descriptor (R406, R408). -/
def State.beatRead (s : State) (k : Nat) (d : Desc) : State × Option (Word × Bool) :=
  if d.srcReq then
    let missing (t : State) : State × Option (Word × Bool) :=
      (t.setChan k { t.chan k with underrun := true }, some (0xFFFFFFFF#32, false))
    if (s.chan k).short then missing s
    else match s.periphPop k with
    | (t, some v) => (t, some v)
    | (t, none) => missing (t.withdraw fun j _ => j == k)
  else
    let t := s.chanRead k d.src
    if t.resp.error then (t, none)
    else
      let c := t.chan k
      (t.setChan k { c with detect := c.detect || t.resp.detect }, some (t.resp.data.setWidth 32, t.resp.poison))

/-- The write of a beat: none where it completes, else the status that ends the descriptor (R408). What a destination that has
withdrawn misses is discarded (R406). -/
def State.beatWrite (s : State) (k : Nat) (d : Desc) (w : Word) (p : Bool) : State × Option Nat :=
  if d.dstReq then
    (if (s.chan k).withdrawn then (s, none)
     else if p then (s, some 0x12)
     else match s.periphPush k w with
     | (t, true) => (t, none)
     | (t, false) => (let c := t.chan k; (t.setChan k { c with withdrawn := true }, none)))
  else if p ∧ storeConsumes d.dst then (s, some 0x12)
  else
    let t := { s with logged := false }.bus ⟨BitVec.ofNat 8 (0x40 + k), true, BitVec.ofNat 32 d.dst, 4, w.setWidth 64, p⟩
    if t.resp.error ∨ t.logged then (t, some 0x11) else (t, none)

/-- The status of a descriptor whose every beat is done (R408). -/
def Chan.okStatus (c : Chan) : Nat :=
  if c.withdrawn then 0x03 else if c.underrun then 0x01 else if c.detect then 0x02 else 0x00

/-- A beat is complete: `BEATS` counts it (R413). -/
def State.beatDone (s : State) : State := s.wr64 YRD.BEATS_LO (min (s.rd64 YRD.BEATS_LO + 1) (2 ^ 64 - 1))

/-- The further beat that appends the CRC (R404), and the write-back. -/
def State.crcBeat (s : State) (k : Nat) (d : Desc) : State :=
  let c := s.chan k
  match s.beatWrite k d (c.crc ^^^ 0xFFFFFFFF#32) false with
  | (t, some st) => t.descEnd k st
  | (t, none) => t.beatDone.descEnd k (t.chan k).okStatus

/-- One word has been written (R400, R404): the address, the counts and the CRC follow. -/
def State.wordMoved (s : State) (k : Nat) (d : Desc) (w : Word) : State :=
  let c := s.chan k
  let c : Chan := { c with
    desc := some { d with dst := nextAddr d.dst d.dstMode d.dstWrap }
    done := c.done + 1
    moved := if c.withdrawn then c.moved else c.moved + 4
    crc := if c.withdrawn then c.crc else crc32cWord c.crc w }
  ((s.setChan k c).set (YCH.POS_bytes k) c.moved).beatDone

/-- The staging buffer is written out (R396), word by word; a write that fails ends the descriptor, the words before it stand (R408). After
a read that got an error response (`cut`) the descriptor ends. At the end of the burst an abort acts, and at the end of the descriptor its
write-back; an appended CRC is still to come. -/
def State.stageOut (s : State) (k : Nat) (cut : Bool) : List (Word × Bool) → State
  | [] =>
    let c := { s.chan k with stage := [], short := false }
    let t := s.setChan k c
    if cut then t.descEnd k 0x11
    else if c.abort then t.descEnd k 0x14
    else if c.remaining = 0 ∧ !(c.desc.any fun d => d.crcApp) then t.descEnd k c.okStatus
    else t
  | (w, p) :: rest =>
    match (s.chan k).desc with
    | none => s
    | some d =>
      match s.beatWrite k d w p with
      | (t, some st) => t.descEnd k st
      | (t, none) => (t.wordMoved k d w).stageOut k cut rest

/-- One beat of channel k (R396, R400, R404, R408): it reads a word into the staging buffer, and the last beat of a burst writes the
buffer out (log 136). -/
def State.beat (s : State) (k : Nat) : State :=
  match (s.chan k).desc with
  | none => s
  | some d =>
    let s := (s.served k).set YRD.ACTIVE_k k
    if (s.chan k).left = 0 then s.crcBeat k d
    else match s.beatRead k d with
    | (t, none) => t.stageOut k true (t.chan k).stage
    | (t, some v) =>
      let c := t.chan k
      let c : Chan := { c with
        desc := some { d with src := nextAddr d.src d.srcMode d.srcWrap }
        left := c.left - 1, stage := c.stage ++ [v] }
      let t := t.setChan k c
      if c.left = 0 then t.stageOut k false c.stage else t

/-- The engine completes one beat of the winning channel; a burst that has not started starts with it (R405). The flows that channels
move are looked up first (R309). -/
def State.engineBeat (s : State) : State :=
  let s := s.flowsLook
  match s.winner with
  | none => s
  | some k => ((if (s.chan k).left = 0 then s.burstStart k else s)).beat k

/-- Meaning of DESCRIPTOR_FETCH. -/
def execDescriptorFetch (k : Fin 32) (s : State) : Host.Outcome State Fault Refusal := .next (s.descFetch k)

/-- Meaning of YARDER_BURST_START. -/
def execYarderBurstStart (k : Fin 32) (s : State) : Host.Outcome State Fault Refusal := .next (s.flowsLook.burstStart k)

/-- Meaning of YARDER_BEAT. -/
def execYarderBeat (s : State) : Host.Outcome State Fault Refusal := .next s.engineBeat

end Sys2Proof.Machine
end

