-- ==== Sys2Proof/Machine/Jobs.lean ====
section
/-!
DEFINITION. Work that several accesses make up, and that waits for domains: frames of the management port (R55 to R61), management
requests of the link (R324 to R327), and the accesses that stall for a domain (R54).
-/
namespace Sys2Proof.Machine

/-! ## Frames of the management port (R57 to R60) -/

/-- The requester ID of the management port (R40). -/
def mgtId : ReqId := 1
/-- The requester ID of management flows (R40). -/
def mgmtId : ReqId := 2

/-- Read accesses of n words from an address. -/
def readAccs (id : ReqId) (a n : Nat) : List Access := (List.range n).map fun i => rdAcc id (a + 4 * i)

/-- Write accesses of words, given as bytes, from an address. -/
def writeAccs (id : ReqId) (a n : Nat) (b : List Byte) : List Access :=
  (List.range n).map fun i => wrAcc id (a + 4 * i) (BitVec.ofNat 32 (beNat ((b.drop (4 * i)).take 4)))

/-- What a frame asks for: accesses, a cold or a warm reset, or nothing, being a frame error with the `ERR_ADDR` it leaves. -/
inductive Frame where
  | accs (read : Bool) (l : List Access)
  | reset (cold : Bool)
  | bad (addr : Nat)
  deriving DecidableEq, Repr

/-- A frame's opcode and the bytes after the command byte (R57, R59, R60). -/
def frameOf (broadcast : Bool) (op : Nat) (b : List Byte) : Frame :=
  let a := beNat (b.take 4)
  let n := beNat ((b.drop 4).take 1) + 1
  let bad := Frame.bad (if 1 ≤ op ∧ op ≤ 4 ∧ 4 ≤ b.length then a else 0)
  if op = 1 then (if b.length < 4 ∨ broadcast then bad else .accs true (readAccs mgtId a 1))
  else if op = 2 then (if b.length < 8 then bad else .accs false (writeAccs mgtId a 1 (b.drop 4)))
  else if op = 3 then (if b.length < 5 ∨ broadcast then bad else .accs true (readAccs mgtId a n))
  else if op = 4 then (if b.length < 5 + 4 * n then bad else .accs false (writeAccs mgtId a n (b.drop 5)))
  else if op = 8 ∨ op = 9 then (if b.take 2 = [0x6B#8, 0x94#8] then .reset (op = 8) else bad)
  else bad

/-- The port goes on with the accesses of its frames, in order, until one stalls or none is left (R58). -/
def State.mgtGo (s : State) : Nat → State
  | 0 => s
  | n + 1 =>
    match s.mgt.before, s.mgt.todo with
    | a :: rest, _ =>
      let t := s.bus a
      if s.stalled.length < t.stalled.length then t else ({ t with mgt := { t.mgt with before := rest } }).mgtGo n
    | [], a :: rest =>
      let t := s.bus a
      if s.stalled.length < t.stalled.length then t
      else ({ t with mgt := { t.mgt with
          todo := rest
          words := if t.mgt.read then t.mgt.words ++ [t.resp.data.setWidth 32] else t.mgt.words
          err := t.mgt.err || t.resp.error
          domOff := t.mgt.domOff || (t.resp.error && t.resp.domOff) } }).mgtGo n
    | [], [] => s

/-- Runs what the port has to do. -/
def State.mgtRun (s : State) : State := s.mgtGo (s.mgt.before.length + s.mgt.todo.length)

/-- A frame is performed. Accesses of an earlier frame that are still to come keep their place before it. -/
def State.mgtFrame (s : State) (bytes : List Byte) : State :=
  match bytes with
  | [] => s
  | cmd :: rest =>
    let broadcast : Bool := cmd.toNat / 16 = 0xF
    match frameOf broadcast (cmd.toNat % 16) rest with
    | .bad a => s.logErr MGT.base 0x0C a
    | .reset true => s.coldReset 3
    | .reset false => s.warmReset 4
    | .accs read l =>
      let waits := s.mgt.before ++ s.mgt.todo
      let t : State := { s with mgt := { s.mgt with
        before := waits, busy := true, reply := !broadcast, read := read, todo := l, words := [], err := false, domOff := false
        mdo := !broadcast } }
      if waits.isEmpty then t.mgtRun else t

/-- The frame is a reset with its confirmation bytes: it acts at the rising edge of MCS_N, in every state (R59). -/
def isReset (bytes : List Byte) : Bool :=
  match bytes with
  | cmd :: rest => (match frameOf (decide (cmd.toNat / 16 = 0xF)) (cmd.toNat % 16) rest with | .reset _ => true | _ => false)
  | [] => false

/-- The device answers a frame on MDO (R56, R57, R60): one with accesses, and no broadcast. -/
def isAnswered (bytes : List Byte) : Bool :=
  match bytes with
  | cmd :: rest => !decide (cmd.toNat / 16 = 0xF) &&
      (match frameOf false (cmd.toNat % 16) rest with | .accs _ _ => true | _ => false)
  | [] => false

/-- A frame begins: the one before it is over, and what it has not answered stays unanswered (R56, R59). -/
def State.mgtSelect (s : State) : State := { s with mgt := { s.mgt with reply := false, mdo := false, out := [], live := false } }

/-- The byte on MDO between the host's last byte and the marker: a wait byte where the device drives, else the pull-up's 0xFF (R56, R58). -/
def State.mdoByte (s : State) : Byte := if s.mgt.mdo then 0x00 else 0xFF

/-- The device is up: frames are performed. -/
def State.mgtUp (s : State) : Bool := s.pwr.sleep = .run || s.pwr.sleep = .idle

/-- A frame has arrived (R57, R61): another device's is ignored; a match wakes the device, and a device in Rest or Dormant keeps the
frame until it is up. -/
def State.mgtArrive (s : State) (bytes : List Byte) : State :=
  match bytes with
  | [] => s.mgtSelect
  | cmd :: _ =>
    let target := cmd.toNat / 16
    let s := s.mgtSelect
    if target ≠ s.rst.madr.toNat ∧ target ≠ 0xF then s
    else
      let t := s.wakeSource 0
      if isReset bytes ∨ (s.mgtUp ∧ s.mgt.held.isEmpty) then t.mgtFrame bytes
      else { t with mgt := { t.mgt with held := t.mgt.held ++ [bytes], mdo := isAnswered bytes, live := isAnswered bytes } }

/-- The frames that waited for the device are performed once it is up: FAB is on (R61). MDO answers the last of them, where no later frame
has begun (R56). -/
def State.mgtHeld (s : State) : State :=
  if s.mgtUp ∧ s.on 2 ∧ !s.mgt.held.isEmpty then
    let t := s.mgt.held.foldl State.mgtFrame { s with mgt := { s.mgt with held := [] } }
    { t with mgt := { t.mgt with live := false, reply := t.mgt.reply && s.mgt.live, mdo := t.mgt.mdo && s.mgt.live } }
  else s

/-- The reply to a frame whose accesses have all completed, to the frame's end (R56, R58): a wait byte and as many more as the host has
clocked, the marker, the data, the status byte, and 0xFF for what it clocks after (log 88). -/
def State.mgtMarker (s : State) (waits after : Nat) : State :=
  if s.mgt.busy ∧ s.mgt.before.isEmpty ∧ s.mgt.todo.isEmpty then
    { s with mgt := { s.mgt with
      busy := false
      reply := false
      mdo := false
      out := if s.mgt.reply then
          List.replicate (waits + 1) 0x00#8 ++ [0xA5#8] ++ (s.mgt.words.flatMap fun w => beBytes 4 w.toNat) ++
            beBytes 1 ((if s.mgt.err then 1 else 0) + (if s.mgt.domOff then 2 else 0)) ++ List.replicate after 0xFF#8
        else [] } }
  else s

/-- A frame of an opcode with its bytes. -/
def mgtBytes (target : BitVec 4) (op : Nat) (rest : List Byte) : List Byte := BitVec.ofNat 8 (16 * target.toNat + op) :: rest

/-! ## Management requests of the link (R324 to R327) -/

/-- The steps of a request's payload (R324), with fuel: an unknown opcode or a cut operation is malformed and the last. -/
def mgmtSteps : Nat → List Byte → List MStep
  | 0, _ => []
  | _ + 1, [] => []
  | n + 1, b =>
    let head := (b ++ [0, 0, 0]).take 4
    let body := b.drop 4
    let op := beNat (b.take 1)
    let w := beNat ((b.drop 1).take 1) + 1
    let a := beNat (body.take 4)
    let bad : List MStep := [.head head, .malformed]
    let op' (len : Nat) (l : List MStep) : List MStep :=
      if b.length < 4 + len then bad else .head head :: (l ++ mgmtSteps n (body.drop len))
    if op = 0x01 then op' 4 ((readAccs mgmtId a 1).map .acc)
    else if op = 0x02 then op' 8 ((writeAccs mgmtId a 1 (body.drop 4)).map .acc)
    else if op = 0x03 then op' 4 ((readAccs mgmtId a w).map .acc)
    else if op = 0x04 then op' (4 + 4 * w) ((writeAccs mgmtId a w (body.drop 4)).map .acc)
    else if op = 0x08 then op' 4 [.refused]
    else if op = 0x09 then op' 4 [.reset (body.take 4)]
    else if op = 0x20 then op' 0 [.challenge]
    else if op = 0x21 then op' 7892 [.auth (body.take 7892)]
    else if op = 0x22 then op' 0 [.close]
    else bad

/-- A session of a flow ends; a challenge of the flow stays. -/
def State.sessionOver (s : State) (i : Nat) : State :=
  if s.link.session = some i then (({ s with link := { s.link with session := none } }).wr PNL.SESS_STAT
    (s.rd PNL.SESS_STAT &&& 0xFF000000#32)).raise PNL.base 3
  else s

/-- A refused operation: status bit 2. -/
def MgmtJob.refuse (j : MgmtJob) : MgmtJob := { j with status := j.status ||| 4#8 }

/-- The record in progress is complete. -/
def MgmtJob.close (j : MgmtJob) : MgmtJob :=
  if j.head.isEmpty then j else { j with recs := j.recs ++ [j.head ++ [j.status, 0, 0, 0] ++ j.data], head := [], status := 0, data := [] }

/-- A challenge (R326, R484): it ends a session of its flow and replaces an earlier one. -/
def State.mgmtChallenge (s : State) (j : MgmtJob) : State × MgmtJob :=
  if !s.flag SEC.RNG_STAT_ok then (s.logErr SEC.base 0x42 SEC.RNG_STAT, j.refuse)
  else
    let t := s.sessionOver j.idx
    let r := t.randomBytes 8
    ({ r.2 with link := { r.2.link with chal := some (j.idx, r.1, r.2.now) } }, { j with data := r.1 })

/-- An authenticate (R326): it uses up the challenge of its flow. -/
def State.mgmtAuth (s : State) (j : MgmtJob) (body : List Byte) : State × MgmtJob :=
  let other : Bool := match s.link.session with | some i => decide (i ≠ j.idx) | none => false
  let f := s.flow j.idx
  if other then (s, j.refuse)
  else match s.link.chal with
  | some (i, nonce, at_) =>
    if i ≠ j.idx then (s, j.refuse)
    else
      let t : State := { s with link := { s.link with chal := none } }
      let n := beNat (body.take 1)
      let k := s.otp.slot n
      let pk := (body.drop 4).take 32
      let ok := decide (s.now ≤ at_ + usCt 100000) && decide (n < 4) && k.may 1 && sha256 pk == k.hash &&
        slhVerify pk (nonce ++ beBytes 2 f.fid ++ beBytes 1 f.port) (body.drop 36)
      if ok then
        ((({ t with link := { t.link with session := some j.idx } }).wr PNL.SESS_STAT
          ((t.rd PNL.SESS_STAT &&& 0xFF000000#32) ||| BitVec.ofNat 32 (1 + 16 * f.fid + 65536 * f.port))).raise PNL.base 3, j)
      else (t, j.refuse)
  | none => (s, j.refuse)

/-- A warm reset over the link (R327; log 85). -/
def State.mgmtReset (s : State) (j : MgmtJob) (body : List Byte) : State × MgmtJob :=
  let no (code : Nat) : State × MgmtJob := ((s.logErr PNL.base code 0).raise PNL.base 4, j.refuse)
  if !s.otp.rstOk then no 0x46
  else if s.link.session ≠ some j.idx then no 0x45
  else if body ≠ [0x6B#8, 0x94#8, 0, 0] then no 0x46
  else (s, { j with reset := true, todo := [] })

/-- A response packet leaves on the flow that the request's entry names (R325); the last one carries flag bit 10. -/
def State.mgmtSend (s : State) (i : Nat) (payload : List Byte) (last : Bool) : State :=
  let r := (s.flow i).arg % 1024
  let s := if s.flowBad r then s.flowDetect r else s
  let f := s.flow r
  if r < 640 ∧ f.en ∧ f.egress ∧ f.ty = 3 then
    s.pushOut (ringPort s.reversedNow f.port) ⟨r, f.fid, 3, none, none, 0, 0, if last then 1024 else 0, payload, s.ct, none⟩
  else s

/-- Records packed into payloads of at most 8,192 bytes, in order (R325). -/
def packRecs : List (List Byte) → List Byte → List (List Byte)
  | [], cur => [cur]
  | r :: t, cur => if 8192 < cur.length + r.length then cur :: packRecs t r else packRecs t (cur ++ r)

/-- The request at the head is done: its responses leave; an accepted reset is under way (R327). -/
def State.mgmtEnd (s : State) (j : MgmtJob) : State :=
  let l := packRecs j.close.recs []
  let t := (l.zip (List.range l.length)).foldl (fun (t : State) x => t.mgmtSend j.idx x.1 (x.2 + 1 = l.length)) s
  let t : State := { t with mgmt := t.mgmt.drop 1 }
  if j.reset then { t with link := { t.link with resetAt := some ((s.flow j.idx).arg % 1024, t.now + usCt 100) } } else t

/-- Replaces the request at the head. -/
def State.setJob (s : State) (j : MgmtJob) : State := { s with mgmt := j :: s.mgmt.drop 1 }

/-- Management requests are performed in order until an access stalls (R324): n bounds the steps. -/
def State.mgmtGo (s : State) : Nat → State
  | 0 => s
  | n + 1 =>
    match s.mgmt with
    | [] => s
    | j :: _ =>
      (match j.todo with
      | [] => (s.mgmtEnd j).mgmtGo n
      | x :: rest =>
        let j' : MgmtJob := { j with todo := rest }
        (match x with
        | .head b => (s.setJob { j'.close with head := b, status := 0, data := [] }).mgmtGo n
        | .acc a =>
          let t := s.bus a
          if s.stalled.length < t.stalled.length then t
          else if t.mgmt.head? ≠ some j then t.mgmtGo n
          else
            let st : BitVec 8 := (if t.resp.error then 1#8 else 0#8) ||| (if t.resp.error && t.resp.domOff then 2#8 else 0#8)
            (t.setJob { j' with
              status := j.status ||| st
              data := if a.write then j.data else j.data ++ beBytes 4 (t.resp.data.setWidth 32).toNat }).mgmtGo n
        | .challenge => let r := s.mgmtChallenge j'; (r.1.setJob r.2).mgmtGo n
        | .auth b => let r := s.mgmtAuth j' b; (r.1.setJob r.2).mgmtGo n
        | .close => ((s.sessionOver j.idx).setJob j').mgmtGo n
        | .reset b => let r := s.mgmtReset j' b; (r.1.setJob r.2).mgmtGo n
        | .refused => (s.setJob j'.refuse).mgmtGo n
        | .malformed => (s.setJob { j' with status := j'.status ||| 8#8, todo := [] }).mgmtGo n))

/-- Runs the management requests that wait. -/
def State.mgmtRun (s : State) : State := s.mgmtGo ((s.mgmt.map fun (j : MgmtJob) => j.todo.length + 1).foldl (· + ·) 0)

/-- A request arrives; it starts at once where none is in progress. -/
def State.mgmtArrive (s : State) (i : Nat) (payload : List Byte) : State :=
  let j : MgmtJob := ⟨i, mgmtSteps (payload.length + 1) payload, [], [], 0, [], false⟩
  let t : State := { s with mgmt := s.mgmt ++ [j] }
  if s.mgmt.isEmpty then t.mgmtRun else t

/-! ## Stalled accesses (R54) -/

/-- The next access of the management port. -/
def State.mgtNext (s : State) : Option Access := (s.mgt.before ++ s.mgt.todo).head?

/-- The access at which the management requests wait. -/
def State.mgmtNext (s : State) : Option Access :=
  match s.mgmt with
  | j :: _ => (match j.todo with | .acc a :: _ => some a | _ => none)
  | [] => none

/-- A stalled access is made again; the frame or request that it belongs to goes on after it. -/
def State.retry (s : State) (a : Access) : State :=
  if s.mgtNext = some a then s.mgtRun
  else if s.mgmtNext = some a then s.mgmtRun
  else s.bus a

/-- The stalled accesses that a test picks are made again, in arrival order; the others keep waiting before them. -/
def State.retryStalled (s : State) (p : Access → Bool) : State :=
  (s.stalled.filter p).foldl State.retry { s with stalled := s.stalled.filter fun a => !p a }

/-- A domain reports ready, and the accesses that stalled complete (R54); frames that waited for the device follow (R61). -/
def State.domainReady (s : State) (d : Nat) : State := ((s.domainUp d).retryStalled fun _ => true).mgtHeld

/-- The domain that an access concerns; of one that nothing decodes or of a wrong size, that of the error response. -/
def accDomain (acc : Access) : Nat :=
  let a := acc.addr.toNat
  match domOf a with
  | none => 2
  | some d => if sizeOk a acc.size acc.write then d else if d = 0 then 0 else 2

/-- Core c waits for a load that concerns domain d. -/
def State.coreWaits (s : State) (c d : Nat) : Bool :=
  let k := s.core c
  k.mode == .remote && (match k.remote with
  | some o => slotRuns k (slotsOf (s.load (bundleAddr c k.pc) 16)).2.2.1 &&
      (lLoads o.l).any fun m =>
        let a := (memAddr k m.1).1
        !ownDmem c a && accDomain ⟨BitVec.ofNat 8 (0x10 + c), false, BitVec.ofNat 32 a, m.1.size, 0, false⟩ == d
  | none => false)

/-- A wake of domain d is not complete within 2 ms: the accesses and the descriptors that wait for it end (R54, R410). -/
def State.wakeTimeout (s : State) (d : Nat) : State :=
  if s.on d ∧ s.pwr.sleep ≠ .rest ∧ s.pwr.sleep ≠ .dormant then s
  else
    let t := ({ s with timedOut := some d }).retryStalled fun a => accDomain a == d
    let t := ((List.range 8).foldl (fun (t : State) c => if t.coreWaits c d then t.coreRespond c else t) t).chansTimeout d
    { t with timedOut := none }

/-! ## Commands -/

/-- Meaning of MGT_READ. -/
def execMgtRead (target : BitVec 4) (addr : Word) (s : State) : Host.Outcome State Fault Refusal :=
  .next (s.mgtArrive (mgtBytes target 1 (beBytes 4 addr.toNat)))

/-- Meaning of MGT_WRITE. -/
def execMgtWrite (target : BitVec 4) (addr data : Word) (s : State) : Host.Outcome State Fault Refusal :=
  .next (s.mgtArrive (mgtBytes target 2 (beBytes 4 addr.toNat ++ beBytes 4 data.toNat)))

/-- Meaning of MGT_READ_BURST. -/
def execMgtReadBurst (target : BitVec 4) (addr : Word) (n : Byte) (s : State) : Host.Outcome State Fault Refusal :=
  .next (s.mgtArrive (mgtBytes target 3 (beBytes 4 addr.toNat ++ [n])))

/-- Meaning of MGT_WRITE_BURST: N is the count of words minus 1. -/
def execMgtWriteBurst (target : BitVec 4) (addr : Word) (words : List Word) (s : State) : Host.Outcome State Fault Refusal :=
  .next (s.mgtArrive (mgtBytes target 4
    (beBytes 4 addr.toNat ++ beBytes 1 (words.length - 1) ++ words.flatMap fun w => beBytes 4 w.toNat)))

/-- Meaning of MGT_COLD_RESET. -/
def execMgtColdReset (target : BitVec 4) (c0 c1 : Byte) (s : State) : Host.Outcome State Fault Refusal :=
  .next (s.mgtArrive (mgtBytes target 8 [c0, c1]))

/-- Meaning of MGT_WARM_RESET. -/
def execMgtWarmReset (target : BitVec 4) (c0 c1 : Byte) (s : State) : Host.Outcome State Fault Refusal :=
  .next (s.mgtArrive (mgtBytes target 9 [c0, c1]))

/-- Meaning of MGT_FRAME_CUT: a frame of the bytes that have arrived at the rising edge of MCS_N. -/
def execMgtFrameCut (bytes : List Byte) (s : State) : Host.Outcome State Fault Refusal := .next (s.mgtArrive bytes)

/-- Meaning of MGT_MARKER. -/
def execMgtMarker (waits after : Nat) (s : State) : Host.Outcome State Fault Refusal := .next (s.mgtMarker waits after)

/-- Meaning of MGT_ADDRESS_MATCH_WAKE: a frame as the receiver takes it in a sleep state. -/
def execMgtAddressMatchWake (cmd : Byte) (rest : List Byte) (s : State) : Host.Outcome State Fault Refusal :=
  .next (s.mgtArrive (cmd :: rest))

/-- Meaning of DOMAIN_READY. -/
def execDomainReady (d : Fin 27) (s : State) : Host.Outcome State Fault Refusal := .next (s.domainReady d)

/-- Meaning of WAKE_ACCESS_TIMEOUT. -/
def execWakeAccessTimeout (d : Fin 27) (s : State) : Host.Outcome State Fault Refusal := .next (s.wakeTimeout d)

end Sys2Proof.Machine
end

