-- ==== Sys2Proof/Machine/Mirror.lean ====
section
/-!
DEFINITION. The mirror engine of a pair (R349 to R353) and the takeover's register image (R354).
-/
namespace Sys2Proof.Machine

/-! ## Granules (R349) -/

/-- Number of granules. -/
def State.granules (s : State) : Nat := 2946 + ((List.range 8).map fun i => s.get (PAR.REG_LEN_kib i)).foldl (· + ·) 0

/-- Where granule n of the regions lies. -/
def State.regionAddr (s : State) : Nat → Nat → Nat
  | 0, _ => 0
  | k + 1, n => let r := s.region (7 - k); if n < r.2 / 1024 then r.1 + 1024 * n else s.regionAddr k (n - r.2 / 1024)

/-- The address of a granule of memory; the lower ones are the register image. -/
def State.granuleAddr (s : State) (g : Nat) : Nat :=
  if g < 2624 then 0x30000000 + 1024 * (g - 64)
  else if g < 2654 then 0x34000000 + 1024 * (g - 2624)
  else if g < 2674 then 0x38000000 + 1024 * (g - 2654)
  else if g < 2690 then 0x39000000 + 1024 * (g - 2674)
  else if g < 2946 then 0x18000000 + 1024 * (g - 2690)
  else s.regionAddr 8 (g - 2946)

/-- The retained fields of a register word, as a mask. -/
def keptMask (a : Nat) : Word :=
  (fieldsAt a).foldl (fun m (f : FldRow) => if f.keep then m ||| BitVec.ofNat 32 ((2 ^ f.w - 1) * 2 ^ f.lo) else m) 0

/-- The two mark bits of a memory word: parity failed, poisoned (R350). -/
def State.markOf (s : State) (a : Nat) : Nat :=
  match memAt a with
  | some m => if (secdedIndex m).isSome then (if s.poisoned a then 2 else 0) else if s.parityBad a then 1 else 0
  | none => 0

/-- The words of a granule with their marks, as it is read for sending; a SECDED word is checked by the read (R415; log 77),
and a fenced bank answers with its error (R487; log 111). -/
def State.granuleRead (s : State) (g : Nat) : State × List (Word × Nat) :=
  if g < 64 then
    (s, (List.range 256).map fun k => match keptRegs[256 * g + k]? with
      | some a => (s.rd a &&& keptMask a, 0)
      | none => (0, 0))
  else
    let a := s.granuleAddr g
    let t := s.engineCheck a 1024
    (t, (List.range 256).map fun k =>
      let w := a + 4 * k
      if t.fenced w then (0xDEAD0BAD#32, 0) else (t.word w, t.markOf w))

/-! ## Packets (R350) -/

/-- The head of a MIRROR payload. -/
def State.mirrorHead (s : State) (kind : Nat) (marks : Bool) (g : Nat) : List Byte :=
  beBytes 1 kind ++ beBytes 1 (s.get PAR.STAT_sync + (if s.pairRole = 2 then 2 else 0) + (if marks then 4 else 0) + 8 * s.get PAR.CFG_rank) ++
    beBytes 2 g ++ [0, 0, 0, 0]

/-- A MIRROR packet joins the queue of its port; a heartbeat comes before whatever waits there (R353). -/
def State.mirrorSend (s : State) (first : Bool) (payload : List Byte) : State :=
  let i := s.get PAR.MIR_CFG_tx
  let s := if s.link.alloc.contains i ∧ s.flowBad i then s.flowDetect i else s
  let f := s.flow i
  if !(s.link.alloc.contains i && f.en && f.egress && f.ty == 5) then s
  else
    let q := ringPort s.reversedNow f.port
    let p : OutPkt := ⟨i, f.fid, 5, none, none, 0, 0, 0, payload, s.ct, none⟩
    if first ∧ s.portUp q then { s with link := { s.link with out := s.link.out.set q (p :: s.link.out.getD q []) } }
    else s.pushOut q p

/-- Two mark bits per word, the lowest word in the lowest bits. -/
def markBytes (l : List (Word × Nat)) : List Byte :=
  (List.range 64).map fun b => BitVec.ofNat 8 ((List.range 4).foldl (fun v j => v + (l.getD (4 * b + j) (0, 0)).2 * 4 ^ j) 0)

/-- A granule is read and sent: its dirty bit clears, and it awaits its acknowledge (R351). -/
def State.granuleSend (s : State) (g : Nat) : State :=
  let r := s.granuleRead g
  let marks := r.2.any (·.2 != 0)
  let body := (r.2.flatMap fun w => (List.range 4).map fun i => BitVec.ofNat 8 (w.1.toNat / 256 ^ i)) ++ (if marks then markBytes r.2 else [])
  let t := r.1
  let t : State := { t with pair := { t.pair with dirty := t.pair.dirty.del g, unacked := (t.pair.unacked.del g).ins g t.now } }
  t.mirrorSend false (t.mirrorHead 2 marks g ++ body)

/-! ## Sync (R351) -/

/-- The device is the active one of an enabled pair. -/
def State.mirrors (s : State) : Bool := s.flag PAR.CFG_en && s.pairRole = 2

/-- The initial pass is acknowledged, and sync rises where nothing has stayed dirty too long. -/
def State.syncCheck (s : State) : State :=
  (if s.pair.pass.isNone ∧ s.pair.passAck.isEmpty then s.set PAR.STAT_init_done 1 else s).syncRise

/-- The oldest dirty granule has stayed dirty for more than 1 ms. -/
def State.syncLost (s : State) : State :=
  match s.oldestDirty with
  | some t =>
    if s.mirrors ∧ s.flag PAR.STAT_sync then
      (let u := s.atNow (t + usCt 1000 + 1)
       (u.set PAR.STAT_sync 0).raise PAR.base 1)
    else s
  | none => s

/-! ## The engine's next packet (R351) -/

/-- The sealed contexts and the active banks (R350). -/
def State.mirrorRecord (s : State) : BitVec 160 × BitVec 64 :=
  ((List.range 160).foldl (fun m x => setBit m x (!(s.wctx x).isOpen)) 0,
   (List.range 64).foldl (fun m p => setBit m p ((s.dpdPath p).active = 1)) 0)

/-- Bits of a vector as bytes, bit 0 lowest in the first byte. -/
def bitBytes (n v : Nat) : List Byte := (List.range n).map fun i => BitVec.ofNat 8 (v / 256 ^ i)

/-- A step of the initial pass: paced by `MIR_CFG.pace`. -/
def State.passSend (s : State) (g : Nat) : State :=
  let t := s.atNow (s.pair.passAt + usCt (8 * s.get PAR.MIR_CFG_pace))
  let t : State := { t with pair := { t.pair with
    pass := if g + 1 < t.granules then some (g + 1) else none
    passAt := t.now
    passAck := t.pair.passAck.filter (· ≠ g) ++ [g] } }
  t.granuleSend g

/-- The mirror engine sends its next packet: a granule of the initial pass; else the lowest dirty granule; else the state record where
it has changed. -/
def State.mirrorNext (s : State) : State :=
  if !s.mirrors then s
  else match s.pair.pass with
  | some g => s.passSend g
  | none => (match s.pair.dirty with
    | (g, _) :: _ => (s.granuleSend g).syncCheck
    | [] =>
      let r := s.mirrorRecord
      if s.pair.recSent = some r then s
      else
        ({ s with pair := { s.pair with recSent := some r } }).mirrorSend false
          (s.mirrorHead 4 false 0 ++ bitBytes 20 r.1.toNat ++ bitBytes 8 r.2.toNat))

/-- The granule that has waited longest for its acknowledge. -/
def State.oldestSent (s : State) : Option (Nat × Nat) :=
  s.pair.unacked.foldl (fun (m : Option (Nat × Nat)) e => match m with
    | some x => if e.2 < x.2 then some e else some x
    | none => some e) none

/-- It is resent 100 µs after it was sent. -/
def State.mirrorResend (s : State) : State :=
  if !s.mirrors then s
  else match s.oldestSent with
  | some (g, t) => (s.atNow (t + usCt 100)).granuleSend g
  | none => s

/-- A heartbeat leaves at the next multiple of 12,288 BT (R353). -/
def State.heartbeat (s : State) : State :=
  if !s.flag PAR.CFG_en then s
  else
    let b := s.pair.hbTx + 12288
    let t := s.atBt (b : Nat)
    let t : State := { t with pair := { t.pair with hbTx := b } }
    t.mirrorSend true (t.mirrorHead 1 false 0 ++ beBytes 8 t.ct ++ beBytes 2 t.pair.dirty.length ++ List.replicate 6 0)

/-! ## The receiving side (R352, R353) -/

/-- The requester ID of the pair partner (R40). -/
def pairId : ReqId := 0x30

/-- A write on the partner's behalf: false where the target refuses it. -/
def State.pairWrite (s : State) (acc : Access) : State × Bool :=
  let t := ({ s with logged := false }).bus acc
  (t, !t.logged)

/-- A unit of a granule stands as the partner has it: data of 4 or 8 bytes at an address, with its mark. -/
def State.unitSame (s : State) (a size v mark : Nat) : Bool := s.load a size = v && s.markOf a = mark

/-- A unit is written where it differs; the second component says whether it then stands: not where the target refuses the write, keeps
a part of it, or does not have its domain on yet. A marked word takes its mark. -/
def State.unitWrite (s : State) (a size v mark : Nat) : State × Bool :=
  let acc : Access := ⟨pairId, true, BitVec.ofNat 32 a, size, BitVec.ofNat 64 v, decide (mark = 2)⟩
  if s.unitSame a size v mark then (s, true)
  else if s.stalled.contains acc then (s, false)
  else
    let r := s.pairWrite acc
    let t := if r.2 ∧ mark = 1 ∧ !r.1.stalled.contains acc then r.1.hit a .multi else r.1
    (t, t.unitSame a size v mark)

/-- The units of a granule at an address: 64-bit words of a SECDED memory, 32-bit words of another. -/
def granuleUnits (a : Nat) (l : List (Word × Nat)) : List (Nat × Wide × Nat) :=
  let secded : Bool := ((memAt a).bind secdedIndex).isSome
  if secded then (List.range 128).map fun k =>
    let x := l.getD (2 * k) (0, 0)
    let y := l.getD (2 * k + 1) (0, 0)
    (a + 8 * k, BitVec.ofNat 64 (x.1.toNat + 2 ^ 32 * y.1.toNat), max x.2 y.2)
  else (List.range 256).map fun k => let x := l.getD k (0, 0); (a + 4 * k, x.1.setWidth 64, x.2)

/-- Size of a unit at an address. -/
def unitSize (a : Nat) : Nat := if ((memAt a).bind secdedIndex).isSome then 8 else 4

/-- Units written in order: the state, and those refused. -/
def State.unitsWrite (s : State) : List (Nat × Wide × Nat) → State × List (Nat × Wide × Nat)
  | [] => (s, [])
  | u :: t =>
    let r := s.unitWrite u.1 (unitSize u.1) u.2.1.toNat u.2.2
    let q := r.1.unitsWrite t
    (q.1, if r.2 then q.2 else u :: q.2)

/-- An acknowledge of a granule. -/
def State.mirrorAck (s : State) (g : Nat) : State := s.mirrorSend false (s.mirrorHead 3 false g)

/-- A granule arrives (R352): the image is kept for a takeover, memory is written at once. -/
def State.granuleArrive (s : State) (g : Nat) (l : List (Word × Nat)) : State :=
  if g < 64 then
    ({ s with pair := { s.pair with image := (s.pair.image.filter fun (e : Nat × List (Word × Nat)) => e.1 != g) ++ [(g, l)] } }).mirrorAck g
  else if s.granules ≤ g then s
  else
    let s : State := { s with pair := { s.pair with hold := s.pair.hold.filter fun (e : Nat × Wide × Nat) => decide (s.granuleOf e.1 ≠ some g) } }
    let r := s.unitsWrite (granuleUnits (s.granuleAddr g) l)
    let t : State := { r.1 with pair := { r.1.pair with hold := r.1.pair.hold ++ r.2 } }
    if r.2.isEmpty then t.mirrorAck g else t

/-- A state record is applied as far as it goes (R352); it stays wanted until the device agrees with it. -/
def State.recordApply (s : State) : State :=
  match s.pair.recWant with
  | none => s
  | some (sealed, banks) =>
    let want := (List.range 160).filter fun x => sealed.getLsbD x && (s.wctx x).isOpen
    let t := match want.find? fun x => !s.referenced x && s.bf.sealing.isNone with
      | some x => (s.pairWrite (wrAcc pairId BF.SEAL (BitVec.ofNat 32 x))).1
      | none => s
    let bank (p : Nat) : Nat := if banks.getLsbD p then 1 else 0
    let t := (List.range 64).foldl (fun (t : State) p =>
      let x := t.dpdPath p
      if x.active = bank p ∨ x.held.isSome ∨ x.fade.isSome then t else t.swapRequest p (bank p) 16) t
    if want.isEmpty ∧ (List.range 64).all fun p => (t.dpdPath p).active = bank p then { t with pair := { t.pair with recWant := none } } else t

/-- What a standby could not apply is tried again at an entry start (R352); a granule that now stands is acknowledged. -/
def State.mirrorRetry (s : State) : State :=
  let held := s.pair.hold
  if held.isEmpty then s.recordApply
  else
    let r := ({ s with pair := { s.pair with hold := [] } }).unitsWrite held
    let t : State := { r.1 with pair := { r.1.pair with hold := r.2 } }
    let gs := (held.filterMap fun u => t.granuleOf u.1).eraseDups
    (gs.foldl (fun (t : State) g => if r.2.any fun u => t.granuleOf u.1 = some g then t else t.mirrorAck g) t).recordApply

/-- A heartbeat arrives (R353, R355); a standby takes over the sync state of the active device. -/
def State.heartbeatIn (s : State) (flags : Nat) : State :=
  let t : State := { s with pair := { s.pair with hbRx := some s.bt } }
  let t := t.set PAR.STAT_missed 0
  let same : Bool := bitsOf flags 3 1 = t.get PAR.CFG_rank
  let t := t.setFlag PAR.STAT_rank_err same
  let t := if same then t.raise PAR.base 7 else t
  let sync := bitsOf flags 0 1
  if t.pairRole = 2 ∨ bitsOf flags 1 1 = 0 ∨ t.get PAR.STAT_sync = sync then t
  else (t.set PAR.STAT_sync sync).raise PAR.base (if sync = 1 then 2 else 1)

/-- The words of a granule's body, with the marks that follow where flag bit 2 is set. -/
def bodyWords (b : List Byte) (marks : Bool) : List (Word × Nat) :=
  (List.range 256).map fun k =>
    (BitVec.ofNat 32 (((b.drop (4 * k)).take 4).foldr (fun (x : Byte) a => x.toNat + 256 * a) 0),
     if marks then ((b.drop (1024 + k / 4)).headD 0).toNat / 4 ^ (k % 4) % 4 else 0)

/-- Bytes as a number, the first lowest. -/
def lowFirst (b : List Byte) : Nat := b.foldr (fun (x : Byte) a => x.toNat + 256 * a) 0

/-- A MIRROR packet of entry i (R350): only the entry that `MIR_CFG.rx` names, of an enabled pair. -/
def State.mirrorPacket (s : State) (i : Nat) (b : List Byte) : State :=
  if !s.flag PAR.CFG_en ∨ i ≠ s.get PAR.MIR_CFG_rx ∨ b.length < 8 then s
  else
    let kind := beNat (b.take 1)
    let flags := beNat ((b.drop 1).take 1)
    let g := beNat ((b.drop 2).take 2)
    let body := b.drop 8
    let marks := bitsOf flags 2 1 = 1
    if kind = 1 ∧ body.length = 16 then s.heartbeatIn flags
    else if kind = 2 ∧ s.pairRole ≠ 2 ∧ body.length = (if marks then 1088 else 1024) then s.granuleArrive g (bodyWords body marks)
    else if kind = 3 ∧ s.mirrors then
      ({ s with pair := { s.pair with unacked := s.pair.unacked.del g, passAck := s.pair.passAck.filter (· ≠ g) } }).syncCheck
    else if kind = 4 ∧ s.pairRole ≠ 2 ∧ body.length = 28 then
      ({ s with pair := { s.pair with
        recWant := some (BitVec.ofNat 160 (lowFirst (body.take 20)), BitVec.ofNat 64 (lowFirst (body.drop 20))) } }).recordApply
    else s

/-! ## The takeover's image (R354, step 6) -/

/-- The retained fields of a register that a write changes. -/
def imageFields (a : Nat) : List FldRow := (fieldsAt a).filter fun (f : FldRow) => f.keep && (f.acc == .rw || f.acc == .rwl)

/-- A register word with the image's retained fields: other plain fields stay, and no bit that a write of 1 acts on is written. -/
def imageWord (a : Nat) (own img : Word) : Word :=
  (fieldsAt a).foldl (fun (v : Word) (f : FldRow) =>
    let m := BitVec.ofNat 32 ((2 ^ f.w - 1) * 2 ^ f.lo)
    if f.acc == .rw || f.acc == .rwl then v ||| ((if f.keep then img else own) &&& m) else v) 0

/-- Fields of a register in which the image differs. -/
def State.imageDiff (s : State) (a : Nat) (v : Word) : Nat :=
  ((imageFields a).filter fun (f : FldRow) => bits (s.rd a) f.lo f.w != bits v f.lo f.w).length

/-- One register of the image is applied, after the upper half of a wide value (R45); its differing fields count where they are
refused. -/
def State.imageApply (s : State) (a : Nat) (v : Word) (hi : Option Word) : State :=
  let n := s.imageDiff a v + (match hi with | some h => s.imageDiff (a + 4) h | none => 0)
  if n = 0 then s
  else
    let t := match hi with
      | some h => (s.pairWrite (wrAcc pairId (a + 4) (imageWord (a + 4) (s.rd (a + 4)) h))).1
      | none => s
    let r := t.pairWrite (wrAcc pairId a (imageWord a (t.rd a) v))
    if r.2 then r.1 else r.1.count PAR.COUNTS_img_ref n

/-- The register image with the addresses of its words, in page order. -/
def State.imageList (s : State) : List (Nat × Word) :=
  (s.pair.image.flatMap fun e => (e.2.zip (List.range 256)).filterMap fun x =>
    (keptRegs[256 * e.1 + x.2]?).map fun a => (a, x.1.1)).mergeSort fun x y => decide (x.1 ≤ y.1)

/-- The register at an address is the lower half of a wide value. -/
def isWideLo (a : Nat) : Bool :=
  match pageAt a with
  | some (k, _) => wideLo k (a % 0x1000)
  | none => false

/-- The image is applied in page order. -/
def State.imageAll (s : State) : State :=
  let l := s.imageList
  (l.filter fun x => !isWideLo (x.1 - 4)).foldl (fun (t : State) x =>
    t.imageApply x.1 x.2 (if isWideLo x.1 then (l.find? fun y => y.1 = x.1 + 4).map (·.2) else none)) s

/-- 20 µs with TKI low are over (R354, steps 4 to 6): TKO rises, the bias pins leave high impedance, the image is applied. -/
def State.guardEnd (s : State) : State :=
  match s.pair.take with
  | .guard t =>
    let u := (s.atNow (t + usCt 20)).set PAR.STAT_tko 1
    let u : State := { u with pair := { u.pair with take := .settle u.now } }
    (u.pairHold true false).imageAll
  | _ => s

/-! ## Commands -/

/-- Meaning of MIRROR_GRANULE_SEND. -/
def execMirrorGranuleSend (s : State) : Host.Outcome State Fault Refusal := .next s.mirrorNext

/-- Meaning of MIRROR_RESEND_TIMEOUT. -/
def execMirrorResendTimeout (s : State) : Host.Outcome State Fault Refusal := .next s.mirrorResend

/-- Meaning of MIRROR_SYNC_LOST. -/
def execMirrorSyncLost (s : State) : Host.Outcome State Fault Refusal := .next s.syncLost

/-- Meaning of HEARTBEAT_SEND. -/
def execHeartbeatSend (s : State) : Host.Outcome State Fault Refusal := .next s.heartbeat

/-- Meaning of TAKEOVER_GUARD_EXPIRY. -/
def execTakeoverGuardExpiry (s : State) : Host.Outcome State Fault Refusal := .next s.guardEnd

/-- Meaning of TKI_RISE: for a pair it is also wake source 4 (R446). -/
def execTkiRise (s : State) : Host.Outcome State Fault Refusal :=
  .next (let pair : Bool := s.flag PAR.CFG_en || s.pwr.pairEn
         let t := s.tkiRise
         if pair then t.wakeSource 4 else t)

end Sys2Proof.Machine
end

