-- ==== Sys2Proof/Machine/Entry.lean ====
section
/-!
DEFINITION. What the frame timer's events do across the blocks: fetch and start of an entry (R62, R65, R520), the list check, event
lines and their consumers (R73 to R75), the front-end serial masters, TSYNC (R85), and loss of the converter clock (R93).
-/
namespace Sys2Proof.Machine

/-! ## Fetch -/

/-- A word of the entry to be fetched has an upset. -/
def State.fetchUpset (s : State) (u : Option (Fin 4)) : State :=
  match u, s.nextFetch with
  | some k, some (l, pos, _) => s.hit (schedAddr (l.base + pos) k.val) .multi
  | _, _ => s

/-- The next entry is fetched (R65): the timer, the contexts (R156, R159), the banks of scheduled swaps (R206). -/
def State.entryFetch (s : State) (u : Option (Fin 4)) : State :=
  if s.nextFetch.isNone then s
  else
    let t := (s.fetchUpset u).timerFetch
    match t.timer.fetched with
    | some e => (t.bfFetch e).dpdFetch e
    | none => t

/-! ## Start -/

/-- Unscheduled packets whose instant has passed are discarded (R319): at most n. -/
def State.unschedDue (s : State) : Nat → State
  | 0 => s
  | n + 1 => (match s.unscheduled with
    | some (_, t) => if t ≤ (s.ct : Int) then s.unschedDiscard.unschedDue n else s
    | none => s)

/-- The first symbol boundary after lock ends a clock loss, and that after a rail's return its silence (R93, R193, R504). -/
def State.clockBack (s : State) : State :=
  { s with cnv := { s.cnv with
    lost := s.cnv.lost && !s.flag CLK.PLL_STAT_locked
    railLost := s.vcnvOut } }

/-- A run of transmitting entries starts or ends (R179). -/
def State.runEdge (s : State) (old : Option Entry) (e : Entry) : State :=
  let was : Bool := match old with | some o => s.isTx o | none => false
  if s.isTx e ∧ !was then s.runStart (64 * e.startBt)
  else if was ∧ !s.isTx e then s.runEnd (64 * e.startBt)
  else s

/-- Predistortion at the start of a transmitting entry: the active banks load at the start of a run and of a frame inside one (R211). -/
def State.dpdEdge (s : State) (old : Option Entry) (e : Entry) : State :=
  let was : Bool := match old with | some o => s.isTx o | none => false
  if s.isTx e then s.dpdStart (!was || e.pos == 0) else s

/-- The first entry start of Idle sends the lanes to Quiet (R444). -/
def State.idleLanes (s : State) (e : Entry) : State :=
  if e.idle ∧ s.pwr.sleep = .idle ∧ !s.pwr.quieted then s.quietPorts else s

/-- The fetched entry starts (R62): symbols of the entry before it end, deferred settings take effect (R520), its own begin. -/
def State.entryBegin (s : State) (e : Entry) : State :=
  let old := s.timer.cur
  let t := ((s.atBt e.startBt).unschedDue s.staged.length).combineOver
  let t := (t.txSymEnd e.startBt).timerStart
  let t := t.clockBack.refreshEff.casEntry e
  let t := ((t.eqEntry.slicesEntry e).bfStart e.startBt).gateSwitch old e
  let t := ((t.rxEntry e).egEntry e).muteEntry
  let t := (((t.runEdge old e).dpdEdge old e).txSymsStart e).txRedo e
  (t.timePackets e).capTick.mirrorRetry.idleLanes e

/-- An entry starts, or the timer stops at the frame end (R84). -/
def State.entryStart (s : State) : State :=
  match s.timer.fetched with
  | some e => s.entryBegin e
  | none =>
    let t := s.timerStart
    if s.running ∧ !t.running then (t.gateStop s.timer.cur).afterStop.clockBack.capTick else t

/-! ## Event lines -/

/-- What a rising edge of line e does at its consumers: cores (R382), Landing (R221), calibration transmitter (R112), gain steps
(R141), Scaler (R244). -/
def State.lineRise (s : State) (e : Nat) : State :=
  let t := s.latchAll e
  let t := if t.flag LND.CAP_CTRL_en ∧ t.get LND.CAP_CTRL_line = e then t.capEdge t.ct else t
  let t := if t.flag TXC.CAL_CTRL_en ∧ t.get TXC.CAL_CTRL_line = e then t.calStart else t
  let t := if t.flag RXC.GSTEP_CTRL_en ∧ t.get RXC.GSTEP_CTRL_line = e then t.gstepEdge t.ct else t
  t.sclEdge e

/-- A computed edge of line e happens. -/
def State.eventEdge (s : State) (e : Nat) (rise : Bool) : State :=
  let r := s.lineEdge e rise
  if r.2 ∧ rise then r.1.lineRise e else r.1

/-! ## Clock loss (R93) -/

/-- The converter PLL loses lock. -/
def State.lockLost (s : State) : State :=
  if s.refclk ∧ s.flag CLK.PLL_STAT_locked then s.pllLockLoss.clockSyms else s

/-- REFCLK is found absent: as for a loss of lock, and the timer stops at once (R79). -/
def State.refclkLost (s : State) : State := if s.refclk then s.refclkLoss.clockSyms.haltTimer else s

/-! ## Commands -/

/-- Meaning of ENTRY_FETCH; a word of the entry may be found upset. -/
def execEntryFetch (upset : Option (Fin 4)) (s : State) : Host.Outcome State Fault Refusal := .next (s.entryFetch upset)

/-- Meaning of ENTRY_START. -/
def execEntryStart (s : State) : Host.Outcome State Fault Refusal := .next s.entryStart

/-- Meaning of LIST_CHECK_DONE. -/
def execListCheckDone (s : State) : Host.Outcome State Fault Refusal := .next s.checkDone

/-- Meaning of EVENT_LINE_EDGE. -/
def execEventLineEdge (e : Fin 16) (rise : Bool) (s : State) : Host.Outcome State Fault Refusal := .next (s.eventEdge e rise)

/-- Meaning of FES_TRANSACTION_START. -/
def execFesTransactionStart (n : Fin 3) (s : State) : Host.Outcome State Fault Refusal := .next (s.fesStart n)

/-- Meaning of FES_TRANSACTION_DONE. -/
def execFesTransactionDone (n : Fin 3) (rx : Word) (s : State) : Host.Outcome State Fault Refusal := .next (s.fesDone n rx)

/-- Meaning of TSYNC_EDGE. -/
def execTsyncEdge (s : State) : Host.Outcome State Fault Refusal := .next s.tsyncEdge

/-- Meaning of TSYNC_FALLING_EDGE: TSYNC_OUT falls with the input pulse (R85). -/
def execTsyncFallingEdge (s : State) : Host.Outcome State Fault Refusal :=
  .next { s with timer := { s.timer with tsyncOut := false } }

/-- Meaning of PLL_LOCK_LOSS. -/
def execPllLockLoss (s : State) : Host.Outcome State Fault Refusal := .next s.lockLost

/-- Meaning of REFCLK_LOSS. -/
def execRefclkLoss (s : State) : Host.Outcome State Fault Refusal := .next s.refclkLost

end Sys2Proof.Machine
end

