-- ==== Sys2Proof/Machine/Cruiser.lean ====
section
/-!
DEFINITION. The Cruiser (R422 to R424): what it reads and when.
-/
namespace Sys2Proof.Machine

/-- A 32-bit word of a detection-only memory fails (R423). -/
def State.cruDetect (s : State) (m : MemKind) (a : Nat) : State :=
  if !s.parityBad a then s
  else match m with
  | .weight => s.markRow ((a - 0x30000000) / 0x4000) ((a - 0x30000000) / 0x100 % 64) 2
  | .dpd => (let b := (a - 0x34000000) / 240; s.markBank (b / 2) (b % 2) 1)
  | .landing => s.landingDetect a
  | .flow => s.flowDetect ((a - 0x38000000) / 32)
  | .sched => s.recordBad ((a - 0x39000000) / 16)
  | _ => s

/-- The Cruiser reads the 64-bit word at an address (R423). -/
def State.cruRead (s : State) (a : Nat) : State :=
  match memAt a with
  | some m => (match secdedIndex m with
    | some i => s.secdedCheck i a
    | none => (s.cruDetect m a).cruDetect m (a + 4))
  | none => s

/-- The Cruiser is paused: not enabled, FAB off, or FAB has acknowledged a prepare (R424, R442). -/
def State.cruStill (s : State) : Bool :=
  !s.flag MEM.CRU_CTRL_en || !s.on 2 || (match s.pwr.hand with
  | some h => decide (2 ≤ h.target) && !h.todo.contains .fab
  | none => false)

/-- Intervals of 8 ns in CT, rounded up. -/
def cruCt (n : Nat) : Nat := (n * 8 * 786432 + 99999) / 100000

/-- One step of the walk (R422): the next word is read one interval after the last, or at once; the word may be found upset (log 86). -/
def State.cruStep (s : State) (u : Option Upset) : State :=
  if s.cruStill then s
  else
    let t := s.atNow (s.cru.last + cruCt (s.get MEM.CRU_CTRL_ivl + 1))
    let t : State := { t with cru := { t.cru with last := t.now } }
    let mask := match t.cru.walk with | some (m, _, _) => m | none => t.rd MEM.CRU_MASK
    let place := match t.cru.walk with | some (_, n, a) => t.cruAt mask n a | none => t.cruPartFrom mask 0
    match place with
    | none => t.cruPut mask none
    | some (n, a) =>
      let t := (t.found a u).cruRead a
      t.cruPut mask (t.cruAt mask n (a + 8))

/-- Meaning of CRUISER_STEP. -/
def execCruiserStep (upset : Option Upset) (s : State) : Host.Outcome State Fault Refusal := .next (s.cruStep upset)

end Sys2Proof.Machine
end

