-- ==== Sys2Proof/Machine/Gates.lean ====
section
/-!
DEFINITION. The egress gates of the ports, and the deficits of every gate (R18, R22 to R27, R144, R421).
-/
namespace Sys2Proof.Machine

/-- The egress flow of a symbol or a made packet leaves by port q. -/
def State.leavesBy (s : State) (q port : Nat) : Bool := ringPort s.reversedNow port = q

/-- The uplink symbols that the gate of port q has samples of: the ready instant of the next packet of each flow, with the symbol's start. -/
def State.gateNext (s : State) (q : Nat) : List (Int × Nat) :=
  let up : Int := if s.role = 0 then 0 else s.heightCt
  (s.link.prog.filter fun x => s.leavesBy q x.cfg.port).map (fun x => (s.egReady x + up, x.startBt)) ++
    s.link.sums.filterMap fun (p : OutPkt) => if s.leavesBy q (s.flow p.idx).port then p.start.map fun b => ((p.ready : Int), b) else none

/-- What port q's gate has recorded of an uplink symbol. -/
def State.gateSym (s : State) (q start : Nat) : GateSym :=
  (s.link.gateSyms.find? fun g => g.q = q && g.startBt = start).getD ⟨q, start, false, false⟩

/-- Records it. -/
def State.setGateSym (s : State) (g : GateSym) : State :=
  { s with link := { s.link with gateSyms := g :: s.link.gateSyms.filter fun x => !(x.q = g.q && x.startBt = g.startBt) } }

/-- The symbol whose sample port q's gate releases next: the one whose packet is ready first, deficient or not. -/
def State.gateHead (s : State) (q : Nat) : Option Nat := (earliest (s.gateNext q)).map (·.2)

/-- The symbol that a sample is missed of: the one whose packet is ready first among those not yet deficient on port q (R24, R26). -/
def State.gateMiss (s : State) (q : Nat) : Option Nat :=
  (earliest ((s.gateNext q).filter fun x => !(s.gateSym q x.2).late)).map (·.2)

/-- Flags with a cause of R144. -/
def failFlags (cause flags : Nat) : Nat := flags / 16 * 16 + 1 + 2 * addCause (flags / 2 % 8) cause

/-- An uplink symbol fails at port q from the first sample that has not left (R23, R144): what has been computed of it and waits is zero and
carries the cause. -/
def State.portFail (s : State) (q start cause : Nat) : State :=
  let mark (t : State) (g from_ : Nat) : State :=
    t.rxMark (fun y => (y.g = g || (t.joined g && y.g = g + 2)) && y.startBt = start) fun y => y.fail cause (64 * from_)
  let here (x : EgSym) : Bool := s.leavesBy q x.cfg.port && x.startBt = start
  let made (p : OutPkt) : Bool := s.leavesBy q (s.flow p.idx).port && p.start = some start
  let t := (s.link.prog.filter here).foldl (fun t x => mark t x.cfg.g (pktTime start x.next x.cfg.blocks (t.flowRate x.cfg))) s
  let t := (s.link.sums.filter made).foldl (fun (t : State) p => mark t (s.flow p.idx).g (p.symtime.getD start)) t
  { t with link := { t.link with
    prog := t.link.prog.map fun x => if here x then { x with zero := some (min (x.next * x.cfg.samples) (x.zero.getD (x.next * x.cfg.samples))),
                                                                          cause := addCause x.cause cause } else x
    sums := t.link.sums.map fun (p : OutPkt) =>
      if made p then { p with payload := List.replicate p.payload.length 0, flags := failFlags cause p.flags } else p } }

/-- The egress gate of port q releases a sample: of the symbol whose packet is ready first (R18, R27, R421). -/
def State.portRelease (s : State) (q slack : Nat) (upset : Bool) : State :=
  match s.gateHead q with
  | none => s
  | some b =>
    let g := s.gateSym q b
    let t := if upset && !g.lost then
        (((s.count MEM.DET_RG_COUNT_count 1).raise MEM.base 6).portFail q b 3).setGateSym { g with lost := true }
      else s
    if g.late || g.lost || upset || s.clockDown then t else t.slackMin PWR.RG_SLACK_PORT_min slack

/-- A rate gate releases a sample. -/
def State.gateRelease (s : State) (g : Gate) (slack : Nat) (upset : Bool) : State :=
  match g with
  | .dac p => s.dacRelease p slack upset
  | .cal => s.calRelease slack upset
  | .port q => s.portRelease q slack upset

/-- The registers and events of a deficit in the symbol that starts at a BT (R26, R27): of two whose first late samples have one release
instant, the record keeps the one of the DAC gate, and within a class that of the lower index (log 46). -/
def State.deficitRecord (s : State) (index cls start : Nat) : State :=
  let t := (s.count PWR.RG_DEF_COUNT_count 1).raise PWR.base 8
  let first := decide (t.tx.defAt = t.ct) && decide (128 * cls + index < 128 * t.get PWR.RG_DEF_LAST_class + t.get PWR.RG_DEF_LAST_index)
  let t : State := if t.flag PWR.RG_DEF_LAST_valid && !first then t else
    { (((t.set PWR.RG_DEF_LAST_index index).set PWR.RG_DEF_LAST_class cls).set PWR.RG_DEF_LAST_valid 1).set PWR.RG_DEF_TIME_symtime start with
      tx := { t.tx with defAt := t.ct } }
  t.slackMin (if cls = 0 then PWR.RG_SLACK_DAC_min else PWR.RG_SLACK_PORT_min) 0

/-- RATE_DEFICIT (R23 to R26): in a scheduled symbol, once per gate and symbol, and not while a clock loss lasts. The calibration
transmitter's gate reports in the entries in which a play runs, of whatever kind (log 130). -/
def State.deficit (s : State) (g : Gate) : State :=
  if s.clockDown then s
  else match g with
  | .dac p =>
    let x := s.txPath p
    if s.dacHeld p s.ct ∨ x.deficit then s
    else
      let t := (s.capPre.setTxPath p { x with deficit := true }).txSymMap (fun _ => true) fun (y : TxSym) => { y with cause := addCause y.cause 1 }
      t.capTick.deficitRecord p 0 s.symStart
  | .cal =>
    if s.cnv.play.isNone ∨ s.cnv.calLate ∨ s.calHeld then s
    else ({ s with cnv := { s.cnv with calLate := true } }).deficitRecord 64 0 s.symStart
  | .port q => (match s.gateMiss q with
    | none => s
    | some b => ((s.portFail q b 1).setGateSym { s.gateSym q b with late := true }).deficitRecord q 1 b)

/-! ## Commands -/

/-- Meaning of RATE_GATE_RELEASE. -/
def execRateGateRelease (gate : Gate) (slack : Nat) (upset : Bool) (s : State) : Host.Outcome State Fault Refusal :=
  .next (s.gateRelease gate slack upset)

/-- Meaning of RATE_DEFICIT. -/
def execRateDeficit (gate : Gate) (s : State) : Host.Outcome State Fault Refusal := .next (s.deficit gate)

end Sys2Proof.Machine
end

