-- ==== Sys2Proof/Machine/Ingress.lean ====
section
/-!
DEFINITION. The ingress of the Punor link: what a received packet does (R308, R318 to R323, R335), and the ends of management
challenges and link resets (R326, R327).
-/
namespace Sys2Proof.Machine

/-- Lane of port q that carries byte p of a packet (R279), with the lanes in reverse where training found them so (R283). -/
def State.byteLane (s : State) (q p : Nat) : Nat :=
  let v := p % s.portWidth q
  baseLane q + (if s.flag (PORT.STAT_reversed q) then s.portWidth q - 1 - v else v)

/-- The error characters of a packet count as code violations of their lanes (R275, R295). -/
def State.errorChars (s : State) (q : Nat) (errs : List Nat) : State :=
  (List.range (s.portWidth q)).foldl (fun (t : State) i =>
    t.violations (baseLane q + i) (errs.filter fun p => s.byteLane q p = baseLane q + i).length) s

/-- Check 1 of R308. -/
def headerOk (b : List Byte) (errs : List Nat) : Bool :=
  decide (16 ≤ b.length) && decide ((crc16 (b.take 14)).toNat = beNat ((b.drop 14).take 2)) && errs.all (fun p => decide (16 ≤ p)) &&
    decide ((headerOf b).ty ≤ 6) && decide ((headerOf b).len ≤ 8192)

/-- Check 4 of R308: length, no error character, trailing CRC (R302). -/
def crcOk (b : List Byte) (errs : List Nat) : Bool :=
  let n := (headerOf b).len + 16
  errs.isEmpty && decide (b.length = n + 4) && decide ((crc32c (b.take n)).toNat = beNat (b.drop n))

/-- The enabled ingress entry of a packet on a port (check 2 of R308). -/
def State.ingressFlow (s : State) (q : Nat) (h : Header) : Option Nat :=
  s.enabledFlows.find? fun i =>
    let f := s.flow i
    !f.egress && !f.bad && decide (f.fid = h.fid) && decide (f.ty = h.ty) && decide (ringPort s.reversedNow f.port = q)

/-- A repeated packet leaves port p (R335, R321): with hop one up; one that is not whole is cut short with K30.7 (R308). -/
def State.repeatOn (s : State) (p : Nat) (h : Header) (payload : List Byte) (whole : Bool) : State :=
  if !s.portUp p then s.count (PORT.QUIET_DROP_COUNT_count p) 1
  else
    let b := packet { h with hop := h.hop + 1 } payload
    let t := if whole then s.pktCount64 p (PORT.TX_PKT_LO p) else s
    t.launch p false (t.slotSpan p false (slotFrom (t.colFrom p t.ct)) payload.length).1 none (if whole then b else b.take (16 + payload.length)) (!whole)

/-- The sequence check (R320): H takes the number of a packet that passes. -/
def State.seqOk (s : State) (i : Nat) (seq : Nat) : Bool :=
  let w := s.word (flowAddr i 4)
  let d := (seq + 65536 - bits w 0 16) % 65536
  !bit w 16 || (decide (1 ≤ d) && decide (d ≤ 32768))

/-- A stale packet: the count of the port and that of the entry. -/
def State.stale (s : State) (q i : Nat) : State := (s.linkCount q (PORT.STALE_COUNT_count q)).flowCount i 7 0

/-- An early packet. -/
def State.early (s : State) (q i : Nat) : State := (s.linkCount q (PORT.EARLY_COUNT_count q)).flowCount i 6 16

/-- A packet has passed R308. -/
def State.received (s : State) (q : Nat) : State := s.pktCount64 q (PORT.RX_PKT_LO q)

/-- A sample packet (R318, R319): early, late, a duplicate, or staged with its decoded samples (R312); one that is not used here is kept
without samples and takes no slot. One that names no symbol is staged until it is discarded and is not counted as received (log 44). -/
def State.stagePacket (s : State) (q i : Nat) (h : Header) (payload : List Byte) : State :=
  let f := s.flow i
  let bt := s.fullBt h.symtime
  let late : Bool := match s.lateCt f bt with | some t => decide (t ≤ (s.ct : Int)) | none => false
  if (s.ct : Int) < s.dueCt f bt - 64 * f.win then s.early q i
  else if late then (s.linkCount q (PORT.LATE_COUNT_count q)).flowCount i 6 0
  else if s.staged.any fun x => x.idx = i && !x.off && x.symtime = h.symtime then s.stale q i
  else if f.used ∧ f.slots ≤ s.slotsUsed i then s.early q i
  else
    let r := if f.used then decPayload f.fmt f.blocks f.np f.block payload else ([], 0)
    let t := (List.range r.2).foldl (fun (t : State) _ => t.linkCount q (PORT.FMT_ERR_COUNT_count q)) s
    let x : Staged := ⟨i, f.v0, f.blocks, f.g, decide (f.ty = 1), h.symtime, r.1, h.flags, decide (0 < r.2) && decide (f.ty = 1), s.ct, false⟩
    let t : State := { t with staged := t.staged ++ [x] }
    if s.scheduled f bt then t.received q else t

/-- A TIME packet (R322): the device time of its start column's arrival is that of the command. -/
def State.timePacket (s : State) (q : Nat) (payload : List Byte) : State :=
  (((s.wr64 (PORT.TIME_SENT_LO q) (beNat payload)).wr64 (PORT.TIME_ARR_LO q) s.ct).raise (PORT.base q) 8).received q

/-- A CTRL or DIAG packet enters its buffer, where it finds room (R323; log 41). -/
def State.bufferPacket (s : State) (q i : Nat) (b : List Byte) : State :=
  let img := b.take (16 + (headerOf b).len)
  let img := img ++ List.replicate ((4 - img.length % 4) % 4) 0
  let old := flowBuf s.link.rxBuf i
  if flowBufSize < old.length + img.length then s.linkCount q (PORT.OVF_COUNT_count q)
  else ({ s with link := { s.link with rxBuf := flowBufSet s.link.rxBuf i (old ++ img) } }).received q

/-- What a packet does by its type, after checks 1 to 6. -/
def State.acceptPacket (s : State) (q i : Nat) (h : Header) (b : List Byte) : State :=
  let f := s.flow i
  let payload := (b.drop 16).take h.len
  match f.ty with
  | 0 => s.stagePacket q i h payload
  | 1 => s.stagePacket q i h payload
  | 3 => (s.received q).mgmtArrive i payload
  | 4 => s.timePacket q payload
  | 5 => (s.received q).mirrorPacket i payload
  | _ => s.bufferPacket q i b

/-- A packet of entry i whose header is good (checks 3 to 7 of R308); the repetition starts before its CRC (R335). -/
def State.flowPacket (s : State) (q i : Nat) (h : Header) (b : List Byte) (errs : List Nat) : State :=
  if 255 ≤ h.hop then s.linkCount q (PORT.HOP_DROP_COUNT_count q)
  else
    let f := s.flow i
    let ok := crcOk b errs
    let s := if f.ty = 0 then
        (s.repPorts f s.reversedNow).foldl (fun (t : State) p => t.repeatOn p h ((b.drop 16).take h.len) ok) s
      else s
    if !ok then s.linkCount q (PORT.CRC_ERR_COUNT_count q)
    else if !s.seqOk i h.seq then s.stale q i
    else
      let s := s.setSeq i h.seq true
      let want := if f.isSample then f.bytes else if f.ty = 4 then 8 else h.len
      if h.len ≠ want then s.linkCount q (PORT.FMT_ERR_COUNT_count q) else s.acceptPacket q i h b

/-- A received packet (R308): nothing on a port that is not Active; an entry that fails its check at the lookup is disabled (R309; log
74). -/
def State.packetIn (s : State) (q : Nat) (b : List Byte) (errs : List Nat) : State :=
  let s := s.flowSettle
  if !s.portUp q then s
  else
    let s := s.errorChars q errs
    if !s.portUp q then s
    else if !headerOk b errs then s.linkCount q (PORT.HDR_ERR_COUNT_count q)
    else
      let h := headerOf b
      match s.ingressFlow q h with
      | none => s.linkCount q (PORT.UNKNOWN_COUNT_count q)
      | some i =>
        if s.flowBad i then (s.flowDetect i).linkCount q (PORT.UNKNOWN_COUNT_count q) else s.flowPacket q i h b errs

/-- A challenge expires 100 ms after its issue (R326). -/
def State.mgmtExpiry (s : State) : State :=
  match s.link.chal with
  | some (_, _, t) => (let u := s.atNow (t + usCt 100000); { u with link := { u.link with chal := none } })
  | none => s

/-- An accepted link reset begins (R327): after the end column of its request's last response, or 100 µs after its acceptance (log 127).
-/
def State.linkReset (s : State) : State :=
  match s.link.resetAt with
  | some (_, t) => (s.atNow t).warmReset 5
  | none => s

/-! ## Commands -/

/-- Meaning of PACKET_RECEIVED. -/
def execPacketReceived (q : Fin 4) (bytes : List Byte) (errs : List Nat) (s : State) : Host.Outcome State Fault Refusal :=
  .next (s.packetIn q bytes errs)

/-- Meaning of MGMT_CHALLENGE_EXPIRY. -/
def execMgmtChallengeExpiry (s : State) : Host.Outcome State Fault Refusal := .next s.mgmtExpiry

/-- Meaning of LINK_RESET_START. -/
def execLinkResetStart (s : State) : Host.Outcome State Fault Refusal := .next s.linkReset

end Sys2Proof.Machine
end

