-- ==== Sys2Proof/Machine/Pins.lean ====
section
/-!
DEFINITION. The pins as the device drives them (R53, R56, R78, R239, R347, R434, R460 to R463, R489), and boundary scan over the digital
ones (R497, R498).
-/
namespace Sys2Proof.Machine

/-- What a digital pin does: driven low or high, high impedance, on its pull-down. -/
inductive PinDrive where | low | high | hiZ | pullDown
  deriving DecidableEq, Repr

/-- The digital pins that the device can drive (R515). -/
inductive DigPin where
  | gpio (n : Fin 16)
  | fec (f : Fin 32)
  | fesCsN (n : Fin 3)
  | fesCk (n : Fin 3)
  | fesDo (n : Fin 3)
  | mdo
  | irqN (n : Fin 4)
  | stat (i : Fin 3)
  | vid (i : Fin 8)
  | tko
  | peerRstN
  | tsyncOut
  | qspiCsN
  | qspiCk
  | qspiIo (i : Fin 4)
  deriving DecidableEq, Repr

/-- A pin driven to a level. -/
def PinDrive.of (b : Bool) : PinDrive := if b then .high else .low

/-- A number for each digital pin, by which its boundary cell is told from the others (log 10). -/
def DigPin.number : DigPin → Nat
  | .gpio n => n
  | .fec f => 16 + f
  | .fesCsN n => 48 + n
  | .fesCk n => 51 + n
  | .fesDo n => 54 + n
  | .mdo => 57
  | .irqN n => 58 + n
  | .stat i => 62 + i
  | .vid i => 65 + i
  | .tko => 73
  | .peerRstN => 74
  | .tsyncOut => 75
  | .qspiCsN => 76
  | .qspiCk => 77
  | .qspiIo i => 78 + i

/-- A pin that is high impedance until AON is released after power-on, and in option fault (R460, R462). -/
def State.parked (s : State) (d : PinDrive) : PinDrive := if !s.rst.aonUp || s.rst.optFault then .hiZ else d

/-- A pin that is undriven until AON is released after power-on (R462). -/
def State.undriven (s : State) (d : PinDrive) : PinDrive := if s.rst.aonUp then d else .hiZ

/-- A digital pin as the block itself drives it (log 134). -/
def State.pinOwn (s : State) (p : DigPin) : PinDrive :=
  match p with
  | .gpio n => s.parked (if (s.get SYS.GPIO_DIR_out).testBit n then .of ((s.get SYS.GPIO_OUT_lvl).testBit n) else .hiZ)
  | .fec f => if s.timer.fecPulldown then .pullDown else .of (s.timer.fecLevel.getLsbD f)
  | .fesCsN n => s.parked (.of (s.fesPins n).1)
  | .fesCk n => s.parked (.of (s.fesPins n).2.1)
  | .fesDo n => s.parked (.of (s.fesPins n).2.2)
  | .mdo => if s.rst.aonUp && s.mgt.mdo then .low else .hiZ
  | .irqN n => if s.rst.aonUp && s.irqnLow n then .low else .hiZ
  | .stat i => if !s.rst.aonUp && !s.railOk .vio then .hiZ else .of (s.statCode.testBit i)
  | .vid i => s.undriven (.of (s.vid.testBit i))
  | .tko => s.undriven (.of (s.flag PAR.STAT_tko))
  | .peerRstN => s.undriven (.of s.pair.peerRst.isNone)
  | .tsyncOut => .of s.timer.tsyncOut
  | .qspiCsN => s.parked .high
  | .qspiCk => s.parked .low
  | .qspiIo _ => .hiZ

/-- The identity register of the boundary-scan port (R497): stepping 1 for B0, part number 0x6400, the manufacturer, 1. -/
def jtagIdcode : Word := 0x1#4 ++ 0x6400#16 ++ Config.jtagMaker ++ 1#1

/-- The instruction that acts (R498): EXTEST, CLAMP and HIGHZ only in boot hold, at any other time BYPASS. -/
def State.jtagActs (s : State) : JtagOp :=
  if [JtagOp.extest, .clamp, .highz].contains s.jtag ∧ s.statCode ≠ 7 then .bypass else s.jtag

/-- A digital pin (R498): EXTEST and CLAMP drive it from its boundary cell, HIGHZ releases it. -/
def State.pinOut (s : State) (p : DigPin) : PinDrive :=
  match s.jtagActs with
  | .extest => .of (Config.boundaryCell s.cells p.number)
  | .clamp => .of (Config.boundaryCell s.cells p.number)
  | .highz => .hiZ
  | _ => s.pinOwn p

/-- What a bias pin does: driven at the code in force, held at its rest rail by the clamp, passive (10 kΩ to the rest rail), high impedance. -/
inductive BiasDrive where
  | code (v : Nat)
  | clamp
  | passive
  | hiZ
  deriving DecidableEq, Repr

/-- Bias pin j (R236, R238, R239, R460, R462). A standby and a device that has lost mastership release every pin; ordinary pins are high
impedance before the first release of AON, without VAUX and in Dormant; safe-bank pins are passive without VAUX or VNEG. -/
def State.biasPin (s : State) (j : Nat) : BiasDrive :=
  if s.pair.hiz then .hiZ
  else if isSafe j then
    (if !s.railOk .vaux || !s.railOk .vneg then (if s.rst.aonUp && !s.rst.optFault then .clamp else .passive)
     else if !s.rst.aonUp || s.pwr.sleep = .dormant || s.flag (BIA.CODE_clamp j) then .clamp
     else .code (s.get (BIA.CODE_code j)))
  else if !s.rst.aonUp || (s.rst.optFault && !s.railOk .vaux) || s.pwr.sleep = .dormant then .hiZ
  else .code (s.get (BIA.CODE_code j))

/-- Meaning of JTAG_INSTRUCTION (R497, R498): the instruction that the port holds; IDCODE answers with the identity register; SAMPLE/PRELOAD
and EXTEST scan the boundary cells, which hold from then on what the port has shifted in (log 10). An opcode
that R497 does not list acts as BYPASS while debug is closed; else it is a private test instruction, whose effect the spec does not
give. -/
def execJtagInstruction (ir : JtagOp) (s : State) : Host.Outcome State Fault Refusal :=
  match ir with
  | .other => if s.otp.dbgClosed then .next { s with jtag := .bypass } else .refused .privateTestInstruction
  | .extest => .next { s with jtag := .extest, cells := s.cells + 1 }
  | .clamp => .next { s with jtag := .clamp }
  | .highz => .next { s with jtag := .highz }
  | .bypass => .next { s with jtag := .bypass }
  | .idcode => .next { s.answerW jtagIdcode with jtag := .idcode }
  | .sample => .next { s with jtag := .sample, cells := s.cells + 1 }
  | .preload => .next { s with jtag := .preload, cells := s.cells + 1 }

end Sys2Proof.Machine
end

