-- ==== Sys2Proof/Machine/Dispatch.lean ====
section
/-! DEFINITION. The dispatch of the commands to their meanings: one arm per row of the table of operations and events. -/

namespace Sys2Proof.Machine

def exec (i : Instr) (s : State) : Host.Outcome State Fault Refusal :=
  match i with
  | .registerWrite a => Sys2Proof.Machine.execRegisterWrite a s
  | .countClear id addr data => Sys2Proof.Machine.execCountClear id addr data s
  | .errCodeClear id page data => Sys2Proof.Machine.execErrCodeClear id page data s
  | .blockSoftReset id page data => Sys2Proof.Machine.execBlockSoftReset id page data s
  | .pageLock id page data => Sys2Proof.Machine.execPageLock id page data s
  | .irqSet id page data => Sys2Proof.Machine.execIrqSet id page data s
  | .wideReadLo id addr => Sys2Proof.Machine.execWideReadLo id addr s
  | .wideReadHi id addr => Sys2Proof.Machine.execWideReadHi id addr s
  | .wideWriteHi id addr data => Sys2Proof.Machine.execWideWriteHi id addr data s
  | .wideWriteLo id addr data => Sys2Proof.Machine.execWideWriteLo id addr data s
  | .claimWrite id n data => Sys2Proof.Machine.execClaimWrite id n data s
  | .gpioWrite id dir data => Sys2Proof.Machine.execGpioWrite id dir data s
  | .gpioInputChange n level => Sys2Proof.Machine.execGpioInputChange n level s
  | .domainWakeOnAccess a => Sys2Proof.Machine.execDomainWakeOnAccess a s
  | .domainReady d => Sys2Proof.Machine.execDomainReady d s
  | .wakeAccessTimeout d => Sys2Proof.Machine.execWakeAccessTimeout d s
  | .mgtRead target addr => Sys2Proof.Machine.execMgtRead target addr s
  | .mgtWrite target addr data => Sys2Proof.Machine.execMgtWrite target addr data s
  | .mgtReadBurst target addr n => Sys2Proof.Machine.execMgtReadBurst target addr n s
  | .mgtWriteBurst target addr words => Sys2Proof.Machine.execMgtWriteBurst target addr words s
  | .mgtColdReset target c0 c1 => Sys2Proof.Machine.execMgtColdReset target c0 c1 s
  | .mgtWarmReset target c0 c1 => Sys2Proof.Machine.execMgtWarmReset target c0 c1 s
  | .mgtFrameCut bytes => Sys2Proof.Machine.execMgtFrameCut bytes s
  | .mgtMarker waits after => Sys2Proof.Machine.execMgtMarker waits after s
  | .mgtAddressMatchWake cmd rest => Sys2Proof.Machine.execMgtAddressMatchWake cmd rest s
  | .entryFetch upset => Sys2Proof.Machine.execEntryFetch upset s
  | .entryStart => Sys2Proof.Machine.execEntryStart s
  | .standUngate st => Sys2Proof.Machine.execStandUngate st s
  | .listCommit id data => Sys2Proof.Machine.execListCommit id data s
  | .listCheckDone => Sys2Proof.Machine.execListCheckDone s
  | .scheduleEntryWrite id word data => Sys2Proof.Machine.execScheduleEntryWrite id word data s
  | .scheduleEntryRead id word upset => Sys2Proof.Machine.execScheduleEntryRead id word upset s
  | .eventLineEdge e rise => Sys2Proof.Machine.execEventLineEdge e rise s
  | .fecRelease id data => Sys2Proof.Machine.execFecRelease id data s
  | .fesTransactionStart n => Sys2Proof.Machine.execFesTransactionStart n s
  | .fesTransactionDone n rx => Sys2Proof.Machine.execFesTransactionDone n rx s
  | .timerRun id data => Sys2Proof.Machine.execTimerRun id data s
  | .timerStopRequest id data => Sys2Proof.Machine.execTimerStopRequest id data s
  | .tsyncModeWrite id data => Sys2Proof.Machine.execTsyncModeWrite id data s
  | .tsyncEdge => Sys2Proof.Machine.execTsyncEdge s
  | .pllEnableWrite id data => Sys2Proof.Machine.execPllEnableWrite id data s
  | .pllLocked => Sys2Proof.Machine.execPllLocked s
  | .halfRateWrite id data => Sys2Proof.Machine.execHalfRateWrite id data s
  | .pllLockLoss => Sys2Proof.Machine.execPllLockLoss s
  | .refclkLoss => Sys2Proof.Machine.execRefclkLoss s
  | .refclkReturn => Sys2Proof.Machine.execRefclkReturn s
  | .sliceWordWrite id addr data => Sys2Proof.Machine.execSliceWordWrite id addr data s
  | .cnvCtrlWrite id st data => Sys2Proof.Machine.execCnvCtrlWrite id st data s
  | .adcSample conv code => Sys2Proof.Machine.execAdcSample conv code s
  | .eqCommit id st data => Sys2Proof.Machine.execEqCommit id st data s
  | .calGo id data => Sys2Proof.Machine.execCalGo id data s
  | .calPlayEnd => Sys2Proof.Machine.execCalPlayEnd s
  | .sliceStart id tx data => Sys2Proof.Machine.execSliceStart id tx data s
  | .sliceCheckDone tx k => Sys2Proof.Machine.execSliceCheckDone tx k s
  | .sliceStartInstant tx k => Sys2Proof.Machine.execSliceStartInstant tx k s
  | .sliceStop id tx data => Sys2Proof.Machine.execSliceStop id tx data s
  | .levelMonitorUpdate => Sys2Proof.Machine.execLevelMonitorUpdate s
  | .gstepApply => Sys2Proof.Machine.execGstepApply s
  | .portsWrite id g data => Sys2Proof.Machine.execPortsWrite id g data s
  | .joinWrite id data => Sys2Proof.Machine.execJoinWrite id data s
  | .bfModeWrite id data => Sys2Proof.Machine.execBfModeWrite id data s
  | .bfEnableWrite id data => Sys2Proof.Machine.execBfEnableWrite id data s
  | .weightWrite id word data => Sys2Proof.Machine.execWeightWrite id word data s
  | .weightRead id word upset => Sys2Proof.Machine.execWeightRead id word upset s
  | .contextSeal id data => Sys2Proof.Machine.execContextSeal id data s
  | .sealComplete => Sys2Proof.Machine.execSealComplete s
  | .rcmpPop id => Sys2Proof.Machine.execRcmpPop id s
  | .fallbackWrite id g data => Sys2Proof.Machine.execFallbackWrite id g data s
  | .txReleaseStart g upset => Sys2Proof.Machine.execTxReleaseStart g upset s
  | .txSample p => Sys2Proof.Machine.execTxSample p s
  | .rateGateRelease gate slack upset => Sys2Proof.Machine.execRateGateRelease gate slack upset s
  | .rateDeficit gate => Sys2Proof.Machine.execRateDeficit gate s
  | .rgClear id data => Sys2Proof.Machine.execRgClear id data s
  | .muteRegisterWrite id reg data => Sys2Proof.Machine.execMuteRegisterWrite id reg data s
  | .dpdSwapRequest id st data => Sys2Proof.Machine.execDpdSwapRequest id st data s
  | .dpdFadeDone p => Sys2Proof.Machine.execDpdFadeDone p s
  | .dpdPendingFadeStart p => Sys2Proof.Machine.execDpdPendingFadeStart p s
  | .dpdEnableWrite id st data => Sys2Proof.Machine.execDpdEnableWrite id st data s
  | .dpdTermsWrite id addr data => Sys2Proof.Machine.execDpdTermsWrite id addr data s
  | .dpdBankWrite id word data => Sys2Proof.Machine.execDpdBankWrite id word data s
  | .dpdBankRead id word upset => Sys2Proof.Machine.execDpdBankRead id word upset s
  | .dpdReloadPop id st => Sys2Proof.Machine.execDpdReloadPop id st s
  | .thermalStateLoad id p data => Sys2Proof.Machine.execThermalStateLoad id p data s
  | .captureArm id data => Sys2Proof.Machine.execCaptureArm id data s
  | .captureGo id data => Sys2Proof.Machine.execCaptureGo id data s
  | .captureDone => Sys2Proof.Machine.execCaptureDone s
  | .landingRead id word upset => Sys2Proof.Machine.execLandingRead id word upset s
  | .biasTargetWrite id j data => Sys2Proof.Machine.execBiasTargetWrite id j data s
  | .auxTickSlew => Sys2Proof.Machine.execAuxTickSlew s
  | .spanChangeStart id j data => Sys2Proof.Machine.execSpanChangeStart id j data s
  | .spanSettleExpiry j => Sys2Proof.Machine.execSpanSettleExpiry j s
  | .scalerPassStart x => Sys2Proof.Machine.execScalerPassStart x s
  | .scalerConversionDone x code => Sys2Proof.Machine.execScalerConversionDone x code s
  | .injectedDue x => Sys2Proof.Machine.execInjectedDue x s
  | .scalerCalRequest id data => Sys2Proof.Machine.execScalerCalRequest id data s
  | .scalerCalStart x => Sys2Proof.Machine.execScalerCalStart x s
  | .scalerCalDone x r0 r1 => Sys2Proof.Machine.execScalerCalDone x r0 r1 s
  | .comparatorTrip m level => Sys2Proof.Machine.execComparatorTrip m level s
  | .protectionClear id data => Sys2Proof.Machine.execProtectionClear id data s
  | .thermalReadingUpdate counts => Sys2Proof.Machine.execThermalReadingUpdate counts s
  | .thermalHoldRelease => Sys2Proof.Machine.execThermalHoldRelease s
  | .suspectClear id hi data => Sys2Proof.Machine.execSuspectClear id hi data s
  | .haltClear id data => Sys2Proof.Machine.execHaltClear id data s
  | .portEnable id q data => Sys2Proof.Machine.execPortEnable id q data s
  | .trainingComplete q order farQ => Sys2Proof.Machine.execTrainingComplete q order farQ s
  | .trainingTimeout q => Sys2Proof.Machine.execTrainingTimeout q s
  | .trainingSequenceReceived q => Sys2Proof.Machine.execTrainingSequenceReceived q s
  | .portRetrain id q data => Sys2Proof.Machine.execPortRetrain id q data s
  | .portQuiet id q data => Sys2Proof.Machine.execPortQuiet id q data s
  | .quietNoticeReceived q => Sys2Proof.Machine.execQuietNoticeReceived q s
  | .portActive id q data => Sys2Proof.Machine.execPortActive id q data s
  | .portTimed id q data => Sys2Proof.Machine.execPortTimed id q data s
  | .portTimedExit q => Sys2Proof.Machine.execPortTimedExit q s
  | .quietSignalDetect q => Sys2Proof.Machine.execQuietSignalDetect q s
  | .portDeep id q data => Sys2Proof.Machine.execPortDeep id q data s
  | .laneFault l cause => Sys2Proof.Machine.execLaneFault l cause s
  | .prbsEnable id q data => Sys2Proof.Machine.execPrbsEnable id q data s
  | .prbsInject id q data => Sys2Proof.Machine.execPrbsInject id q data s
  | .eyeUpdate l height => Sys2Proof.Machine.execEyeUpdate l height s
  | .packetReceived q bytes errs => Sys2Proof.Machine.execPacketReceived q bytes errs s
  | .unscheduledDiscard => Sys2Proof.Machine.execUnscheduledDiscard s
  | .packetEgressReady q => Sys2Proof.Machine.execPacketEgressReady q s
  | .flowAllocate id data => Sys2Proof.Machine.execFlowAllocate id data s
  | .flowEnable id data => Sys2Proof.Machine.execFlowEnable id data s
  | .flowDisable id data => Sys2Proof.Machine.execFlowDisable id data s
  | .flowFree id data => Sys2Proof.Machine.execFlowFree id data s
  | .flowClear id data => Sys2Proof.Machine.execFlowClear id data s
  | .flowTableWrite id word data => Sys2Proof.Machine.execFlowTableWrite id word data s
  | .flowTableRead id word upset => Sys2Proof.Machine.execFlowTableRead id word upset s
  | .mgmtChallengeExpiry => Sys2Proof.Machine.execMgmtChallengeExpiry s
  | .linkResetStart => Sys2Proof.Machine.execLinkResetStart s
  | .combineInstant g upset => Sys2Proof.Machine.execCombineInstant g upset s
  | .pairEnable id data => Sys2Proof.Machine.execPairEnable id data s
  | .pairResync id data => Sys2Proof.Machine.execPairResync id data s
  | .mirrorGranuleSend => Sys2Proof.Machine.execMirrorGranuleSend s
  | .mirrorResendTimeout => Sys2Proof.Machine.execMirrorResendTimeout s
  | .heartbeatSend => Sys2Proof.Machine.execHeartbeatSend s
  | .heartbeatMissed => Sys2Proof.Machine.execHeartbeatMissed s
  | .pairTake id data => Sys2Proof.Machine.execPairTake id data s
  | .takeoverTkiLow => Sys2Proof.Machine.execTakeoverTkiLow s
  | .takeoverTkiTimeout => Sys2Proof.Machine.execTakeoverTkiTimeout s
  | .takeoverGuardExpiry => Sys2Proof.Machine.execTakeoverGuardExpiry s
  | .takeoverSettleExpiry => Sys2Proof.Machine.execTakeoverSettleExpiry s
  | .peerResetPulseEnd => Sys2Proof.Machine.execPeerResetPulseEnd s
  | .pairYield id data => Sys2Proof.Machine.execPairYield id data s
  | .tkiRise => Sys2Proof.Machine.execTkiRise s
  | .bundleIssue c ops => Sys2Proof.Machine.execBundleIssue c ops s
  | .fenceComplete c => Sys2Proof.Machine.execFenceComplete c s
  | .waitWake c => Sys2Proof.Machine.execWaitWake c s
  | .coreAccessResponse c => Sys2Proof.Machine.execCoreAccessResponse c s
  | .interruptEntry c => Sys2Proof.Machine.execInterruptEntry c s
  | .nmiEntry c => Sys2Proof.Machine.execNmiEntry c s
  | .doorbell id c data => Sys2Proof.Machine.execDoorbell id c data s
  | .coreRun id c data => Sys2Proof.Machine.execCoreRun id c data s
  | .coreHaltRequest id c data => Sys2Proof.Machine.execCoreHaltRequest id c data s
  | .coreWatchdogKick id c data => Sys2Proof.Machine.execCoreWatchdogKick id c data s
  | .coreWatchdogExpiry c => Sys2Proof.Machine.execCoreWatchdogExpiry c s
  | .imemWrite id c word data => Sys2Proof.Machine.execImemWrite id c word data s
  | .yarderEnable id k data => Sys2Proof.Machine.execYarderEnable id k data s
  | .yarderProdWrite id k data => Sys2Proof.Machine.execYarderProdWrite id k data s
  | .descriptorFetch k => Sys2Proof.Machine.execDescriptorFetch k s
  | .yarderBurstStart k => Sys2Proof.Machine.execYarderBurstStart k s
  | .yarderBeat => Sys2Proof.Machine.execYarderBeat s
  | .yarderResume id k data => Sys2Proof.Machine.execYarderResume id k data s
  | .yarderAbort id k data => Sys2Proof.Machine.execYarderAbort id k data s
  | .memoryAccess a upset => Sys2Proof.Machine.execMemoryAccess a upset s
  | .cruiserStep upset => Sys2Proof.Machine.execCruiserStep upset s
  | .levelChangeRequest id data => Sys2Proof.Machine.execLevelChangeRequest id data s
  | .vidStep => Sys2Proof.Machine.execVidStep s
  | .vokRise => Sys2Proof.Machine.execVokRise s
  | .vokTimeout => Sys2Proof.Machine.execVokTimeout s
  | .vokFall => Sys2Proof.Machine.execVokFall s
  | .sleepIdleRequest id data => Sys2Proof.Machine.execSleepIdleRequest id data s
  | .sleepRestRequest id data => Sys2Proof.Machine.execSleepRestRequest id data s
  | .sleepDormantRequest id data => Sys2Proof.Machine.execSleepDormantRequest id data s
  | .sleepRunRequest id data => Sys2Proof.Machine.execSleepRunRequest id data s
  | .prepareAnswer => Sys2Proof.Machine.execPrepareAnswer s
  | .prepareTimeout => Sys2Proof.Machine.execPrepareTimeout s
  | .sleepCommit => Sys2Proof.Machine.execSleepCommit s
  | .domainOffRequest id data => Sys2Proof.Machine.execDomainOffRequest id data s
  | .domainOnRequest id data => Sys2Proof.Machine.execDomainOnRequest id data s
  | .wakeNLow => Sys2Proof.Machine.execWakeNLow s
  | .wakeTimer => Sys2Proof.Machine.execWakeTimer s
  | .powerOnReset => Sys2Proof.Machine.execPowerOnReset s
  | .rstNLow => Sys2Proof.Machine.execRstNLow s
  | .wrstNLow => Sys2Proof.Machine.execWrstNLow s
  | .peerRstiNLow => Sys2Proof.Machine.execPeerRstiNLow s
  | .resetPinRelease pin => Sys2Proof.Machine.execResetPinRelease pin s
  | .softwareReset id data => Sys2Proof.Machine.execSoftwareReset id data s
  | .deviceWatchdogKick id data => Sys2Proof.Machine.execDeviceWatchdogKick id data s
  | .deviceWatchdogExpiry => Sys2Proof.Machine.execDeviceWatchdogExpiry s
  | .releaseStep => Sys2Proof.Machine.execReleaseStep s
  | .optionLoadDone crcOk => Sys2Proof.Machine.execOptionLoadDone crcOk s
  | .resetVokTimeout => Sys2Proof.Machine.execResetVokTimeout s
  | .resetVokRetry => Sys2Proof.Machine.execResetVokRetry s
  | .bootGo id data => Sys2Proof.Machine.execBootGo id data s
  | .bootImageChecked => Sys2Proof.Machine.execBootImageChecked s
  | .keyEnrol id data => Sys2Proof.Machine.execKeyEnrol id data s
  | .keyRevoke id data => Sys2Proof.Machine.execKeyRevoke id data s
  | .quote id data => Sys2Proof.Machine.execQuote id data s
  | .advanceRollback id data => Sys2Proof.Machine.execAdvanceRollback id data s
  | .secChallenge id data => Sys2Proof.Machine.execSecChallenge id data s
  | .secCommandComplete => Sys2Proof.Machine.execSecCommandComplete s
  | .secChallengeExpiry id => Sys2Proof.Machine.execSecChallengeExpiry id s
  | .rngRead id => Sys2Proof.Machine.execRngRead id s
  | .rngHealthFail => Sys2Proof.Machine.execRngHealthFail s
  | .rngRetest pass => Sys2Proof.Machine.execRngRetest pass s
  | .cmemFenceWrite id data => Sys2Proof.Machine.execCmemFenceWrite id data s
  | .freezeNow id data => Sys2Proof.Machine.execFreezeNow id data s
  | .freezeClear id data => Sys2Proof.Machine.execFreezeClear id data s
  | .jtagInstruction ir => Sys2Proof.Machine.execJtagInstruction ir s
  | .supplyOutOfWindow rail => Sys2Proof.Machine.execSupplyOutOfWindow rail s
  | .supplyInWindow rail => Sys2Proof.Machine.execSupplyInWindow rail s
  | .prbsSyncAcquired l => Sys2Proof.Machine.execPrbsSyncAcquired l s
  | .prbsBitError l => Sys2Proof.Machine.execPrbsBitError l s
  | .mirrorSyncLost => Sys2Proof.Machine.execMirrorSyncLost s
  | .powerOnRelease => Sys2Proof.Machine.execPowerOnRelease s
  | .internalResetRelease => Sys2Proof.Machine.execInternalResetRelease s
  | .tsyncFallingEdge => Sys2Proof.Machine.execTsyncFallingEdge s
  | .codeViolationInIdle l rd group => Sys2Proof.Machine.execCodeViolationInIdle l rd group s

end Sys2Proof.Machine
end

