-- ==== Sys2Proof/WellFormed.lean ====
section
/-!
DEFINITION. What a command must satisfy to be one the spec describes: access sizes, frame and table lengths, bit numbers. A meaning is
total all the same: it says what the block does with any operands.
-/
namespace Sys2Proof

/-- An access moves 1, 2, 4 or 8 bytes, and carries no more data than that (R37, R40). -/
def Access.wf (a : Access) : Bool :=
  (a.size == 1 || a.size == 2 || a.size == 4 || a.size == 8) && decide (a.data.toNat < 2 ^ (8 * a.size))

/-- A flipped or stuck bit is one of the 72 of a code word (R414). -/
def Upset.wf : Upset → Bool
  | .flip b => decide (b < 72)
  | .stuck b => decide (b < 72)
  | .multi => true
  | .stuckMore b => decide (b < 72)
  | .broken => true

/-- The same of an upset that may be absent. -/
def upsetWf : Option Upset → Bool
  | none => true
  | some u => u.wf

/-- A memory operand moves 1, 2, 4 or 8 bytes, and extends the sign of less than a word (R371). -/
def MemOp.wf (m : MemOp) : Bool :=
  (m.size == 1 || m.size == 2 || m.size == 4 || m.size == 8) && (!m.sext || decide (m.size < 4))

/-- A memory operand with its g register: 64 bits take an even register and the one after it (R371). -/
def MemOp.regWf (m : MemOp) (d : Fin 64) : Bool := m.wf && (m.size != 8 || d.val % 2 == 0)

/-- The memory operands of an L slot: a dual load makes one access of 32 or 64 bits through each address generator (R367, R371). -/
def LOp.wf : LOp → Bool
  | .load m d => m.regWf d
  | .store m x => m.regWf x
  | .dualLoad m n d e => m.regWf d && n.regWf e && decide (4 ≤ m.size) && decide (4 ≤ n.size) && decide (m.n.val < 4) && decide (4 ≤ n.n.val)
  | .loadStore m d n x => m.regWf d && n.regWf x
  | _ => true

/-- The body of a loop is 1 to 1,024 bundles long (R377). -/
def SOp.wf : SOp → Bool
  | .loop _ len _ => decide (1 ≤ len) && decide (len ≤ 1024)
  | .loopG _ len _ => decide (1 ≤ len) && decide (len ≤ 1024)
  | _ => true

/-- A decoded bundle. -/
def BundleOps.wf (b : BundleOps) : Bool := b.l.wf && b.s.wf && upsetWf b.fetchUpset && upsetWf b.loadUpset

/-- A register address: in the register space and on a word boundary (R8). -/
def regAddrWf (a : Word) : Bool := decide (0x40000000 ≤ a.toNat) && decide (a.toNat < 0x41000000) && a.toNat % 4 == 0

/-- The operands of a command are ones the spec describes. -/
def Instr.wf : Instr → Bool
  | .registerWrite a => a.wf
  | .countClear _ addr _ => regAddrWf addr
  | .wideReadLo _ addr => regAddrWf addr
  | .wideReadHi _ addr => regAddrWf addr
  | .wideWriteHi _ addr _ => regAddrWf addr
  | .wideWriteLo _ addr _ => regAddrWf addr
  | .sliceWordWrite _ addr _ => regAddrWf addr
  | .dpdTermsWrite _ addr _ => regAddrWf addr
  | .domainWakeOnAccess a => a.wf
  | .mgtWriteBurst _ _ words => decide (1 ≤ words.length) && decide (words.length ≤ 256)
  | .mgtFrameCut bytes => decide (1 ≤ bytes.length)
  | .txReleaseStart _ (some (_, w)) => decide (w < 8)
  | .thermalReadingUpdate counts => counts.length == 40
  | .trainingComplete _ order _ => order.length == 16
  | .laneFault _ cause => decide (1 ≤ cause.toNat) && decide (cause.toNat ≤ 6)
  | .packetReceived _ bytes errs => errs.all fun n => decide (n < bytes.length)
  | .bundleIssue _ ops => ops.wf
  | .memoryAccess a upset => a.wf && upsetWf upset
  | .cruiserStep upset => upsetWf upset
  | _ => true

end Sys2Proof
end

