-- ==== Sys2Proof/Safety.lean ====
section
/-! DEFINITION. What the statements say of states and runs: the canonical form of storage, the burnt fuses, a step that stops nowhere. -/
namespace Sys2Proof.Machine

/-- Memory is in its canonical form. -/
def State.memWf (s : State) : Bool := Store.wf memDefault s.mem

/-- The registers are in their canonical form. -/
def State.regsWf (s : State) : Bool := Store.wf (coldWord s.otp) s.regs

/-- Every waiting command is one the spec describes. -/
def State.queueWf (s : State) : Bool := s.pending.all Instr.wf

/-- Every bit of a word that is set in one is set in the other. -/
def bitsKept {w : Nat} (a b : BitVec w) : Bool := a &&& b == a

/-- A key slot whose fuses are all burnt that were burnt before (R471, R475). -/
def KeySlot.kept (a b : KeySlot) : Bool :=
  bitsKept a.hash b.hash && bitsKept a.perm b.perm && (!a.enrolled || b.enrolled) && (!a.revoked || b.revoked)

/-- No fuse of the security region is clear that was burnt before (R471). -/
def Otp.kept (a b : Otp) : Bool :=
  decide (a.slots.length = b.slots.length) && (a.slots.zip b.slots).all (fun p => p.1.kept p.2) && bitsKept a.roll b.roll &&
  bitsKept a.idPk b.idPk && decide (a.idSeed = b.idSeed)

/-- The fuses that no command burns: ceilings, options, grade (R33, R77, R459). -/
def Otp.sameOptions (a b : Otp) : Bool :=
  decide (a.grade = b.grade) && decide (a.fecSafe = b.fecSafe) && decide (a.fecSafeOnWarm = b.fecSafeOnWarm) &&
  decide (a.safeRestGround = b.safeRestGround) && decide (a.safeCeil = b.safeCeil) && decide (a.srcMin = b.srcMin) &&
  decide (a.envCeil = b.envCeil) && decide (a.backoff = b.backoff) && decide (a.backoffDb = b.backoffDb) &&
  decide (a.rstOk = b.rstOk) && decide (a.dbgClosed = b.dbgClosed)

/-- No flow-table command is over that has yet to take effect (R305): the next look at the flow table changes nothing. -/
def State.flowIdle (s : State) : Bool := s.link.cmd.all fun c => decide (s.now < c.2)

/-- An access to an address is performed at once (R54, R446, R460): no option fault, no wake that has just failed, the device in Run
or Idle, the domain that the access concerns on, and no flow-table command that completes before it. -/
def State.ready (s : State) (a : Nat) : Bool :=
  !s.rst.optFault && s.timedOut.isNone && (s.pwr.sleep == .run || s.pwr.sleep == .idle) &&
    s.on ((domOf (BitVec.ofNat 32 a).toNat).getD 2) && s.flowIdle

/-- The lists that stand for the parts of the device that come in a fixed number have that many entries: cores, ports, lanes, test
engines, Scaler converters, bias channels, paths, stands, contexts, buffers, slices, channels, sensors, packet queues. -/
def State.shaped (s : State) : Bool :=
  s.cores.length == 8 && s.portSt.length == 4 && s.laneSt.length == 16 && s.prbsSt.length == 4 &&
  s.prbsSt.all (·.length == 16) && s.scl.length == 2 && s.bias.length == 96 && s.dpd.length == 64 && s.reload.length == 8 &&
  s.rx.paths.length == 64 && s.rx.obsDec.length == 8 && s.tx.paths.length == 64 && s.bf.ctxs.length == 160 &&
  s.bf.cur.length == 8 && s.bf.next.length == 8 && s.bf.fb.length == 8 && s.bf.fbNew.length == 8 && s.rxSlices.length == 4 &&
  s.txSlices.length == 4 && s.chans.length == 32 && s.irqnWriter.length == 4 && s.thm.cnt.length == 40 &&
  s.link.out.length == 4 && s.link.sent.length == 4 && s.yLast.length == 8

/-- A state with the bookkeeping of an access as another has it: the answer, the mark of a logged error, the granules that the mirror
finds dirty. -/
def State.booked (s t : State) : State := { s with resp := t.resp, logged := t.logged, pair := { s.pair with dirty := t.pair.dirty } }

/-- A state from which the next step does not stop. -/
def Safe (s : State) : Prop := ∃ t, step s = .next t

end Sys2Proof.Machine
end

