-- ==== Sys2Proof/Certificates/Slice0/Obligations.lean ====
section
/-!
DEFINITION. What the provers prove of the block: the queue, accesses and register pages, every family of commands and what it leaves
alone, and the invariants of storage and fuses. A docstring names the log entry of notes/assumptions where a clause rests on the model's
own choice or on an inference.
-/
open Sys2Proof Sys2Proof.Machine

/-- A step takes the command at the front of the queue and answers what its meaning answers on the state with the rest of the queue. -/
def Obligations.StepRunsFront : Prop :=
  ∀ (s : State) (c : Instr) (rest : List Instr), s.pending = c :: rest → step s = exec c { s with pending := rest }

/-- With no command waiting a step lets one converter tick pass: the clock counts it, and device time does while REFCLK is present;
registers and memory stand. That a step on an empty queue is a tick is the model's choice (log 1). -/
def Obligations.IdleStepTicks : Prop :=
  ∀ s : State, s.pending = [] → ∃ t, step s = .next t ∧ t.now = s.now + 1 ∧ t.pending = [] ∧
    t.dev = (if s.refclk then s.dev + 1 else s.dev) ∧ t.regs = s.regs ∧ t.mem = s.mem

/-- The state after reset is in canonical form, has every part of the device and no command waiting. Every register word reads its Cold
value, with the fuses as log 3 has them and the values of log 5 where the spec gives none. The level in force and the target are PL2,
GAP is 0x20, every path is muted, no capture runs. That the reset state stands at the end of a power-on release, with every domain on,
is the model's choice (log 6). -/
def Obligations.ResetState : Prop :=
  (State.reset.memWf = true ∧ State.reset.shaped = true ∧ State.reset.regsWf = true ∧ State.reset.queueWf = true ∧ State.reset.pending = []) ∧
  ((∀ a : Nat, State.reset.rd a = coldWord Otp.reset a) ∧
  State.reset.get PWR.PL_STAT_cur = 2 ∧ State.reset.get PWR.PL_CTRL_target = 2 ∧ State.reset.pwr.domOn = 0x7FFFFFF#27 ∧
  State.reset.get RST.GAP_gap = 0x20 ∧ State.reset.tx.muted = BitVec.allOnes 64 ∧ State.reset.capture = none)

/-- No command adds to the queue, drops from it or reorders it: after a step from a queue of commands that the spec describes the queue
is the rest of it, and holds such commands only. Every command has a next state in every state, but for a private JTAG test instruction
while debug is open, to which R497 gives no effect (log 10). The queue is the model's own field (log 8). Rules of the commands named:
R498. -/
def Obligations.QueueFirstInFirstOut : Prop :=
  (∀ s t : State, s.queueWf = true → step s = .next t → t.pending = s.pending.tail ∧ t.queueWf = true) ∧
  (∀ (s : State) (c : Instr), (c = .jtagInstruction .other → s.otp.dbgClosed = true) → ∃ t, exec c s = .next t ∧ t.pending = s.pending)

/-- An access to a decoded address, of a size that the address takes, whose domain is on, is performed: by the three commands that are
an access and nothing else. An access to a block whose domain is off stalls and starts a wake where `wake_ok` allows it, and else ends
with the error response "domain off", logged with code 1 on the page of the address. That the access and the wake are one command is the
model's choice (log 9, log 31). Rules of the commands named: R9, R54, R415. -/
def Obligations.AccessesMeetDomains : Prop :=
  (∀ (s : State) (a : Access) (d : Nat), domOf a.addr.toNat = some d → sizeOk a.addr.toNat a.size a.write = true →
    s.ready a.addr.toNat = true →
    exec (.registerWrite a) s = .next (s.perform a) ∧ exec (.domainWakeOnAccess a) s = .next (s.perform a) ∧
    exec (.memoryAccess a none) s = .next (s.perform a)) ∧
  (∀ (s : State) (a : Access) (d : Nat), domOf a.addr.toNat = some d → sizeOk a.addr.toNat a.size a.write = true →
    s.rst.optFault = false → s.timedOut = none → s.pwr.sleep = .run → s.on d = false → d < 27 →
    ∃ t, exec (.domainWakeOnAccess a) s = .next t ∧
      if s.wakeOk a.addr.toNat d then t.stalled = s.stalled ++ [a] ∧ t.pwr.domWaking.getLsbD d = true
      else t.resp.error = true ∧ t.resp.domOff = true ∧ t.stalled = s.stalled ∧
        t.get (HDR.ERR_CODE_code (pageOf a.addr.toNat)) = 1)

/-- A write by a requester to a register of the pages OPT, MEM, MGT and PNL that has no rules of its own gives every field the value
that its access type gives it, and changes no other register and no byte of memory. A read of a LO half answers it and captures the HI
half in the requester's shadow; a read of a HI half answers the shadow where the requester has one, else the present value; a write of a
HI half is staged for the requester and changes no register; a write of START_LO takes both halves at one instant, the staged one where
there is one. Rules of the commands named: R9, R45. -/
def Obligations.RegisterWrites : Prop :=
  (∀ (s : State) (a : Access) (k : PageKind) (n : Nat), pageAt a.addr.toNat = some (k, n) → memAt a.addr.toNat = none →
    (k = .opt ∨ k = .mem ∨ k = .mgt ∨ (k = .pnl ∧ a.addr.toNat ≠ PNL.FLOW_CMD)) →
    0x40 ≤ a.addr.toNat % 0x1000 → (rowAt k (a.addr.toNat % 0x1000)).isSome = true →
    countAt k (a.addr.toNat % 0x1000) = none → s.flag (HDR.LOCK_locked (pageBase a.addr.toNat)) = false →
    a.write = true → sizeOk a.addr.toNat a.size true = true → s.ready a.addr.toNat = true →
    ∃ t, exec (.registerWrite a) s = .next t ∧
      t.rd a.addr.toNat = BitVec.ofNat 32 (mergeFields (fieldsAt a.addr.toNat) false (s.rd a.addr.toNat).toNat (a.data.setWidth 32).toNat) ∧
      (∀ b, b ≠ a.addr.toNat → t.rd b = s.rd b) ∧ (∀ b, t.byte b = s.byte b)) ∧
  (∀ (s : State) (id : ReqId) (a v : Word) (k : PageKind) (n : Nat), pageAt a.toNat = some (k, n) → memAt a.toNat = none →
    a.toNat % 4 = 0 → 0x40 ≤ a.toNat % 0x1000 → s.ready a.toNat = true →
    (wideLo k (a.toNat % 0x1000) = true → wideHi k (a.toNat % 0x1000) = false → k ≠ .port →
      ∃ t, exec (.wideReadLo id a) s = .next t ∧ t.resp = ⟨(s.view a.toNat).setWidth 64, false, false, false, false⟩ ∧
        t.shadow.find? id.toNat = some (s.view (a.toNat + 4)) ∧ t.regs = s.regs) ∧
    (wideHi k (a.toNat % 0x1000) = true →
      ∃ t, exec (.wideReadHi id a) s = .next t ∧ t.regs = s.regs ∧ t.resp.error = false ∧
        t.resp.data = (match s.shadow.find? id.toNat with | some h => h | none => s.view a.toNat).setWidth 64) ∧
    (wideHi k (a.toNat % 0x1000) = true → writable a.toNat = true → s.hiRefused id k n a.toNat = none →
      (rowAt k (a.toNat % 0x1000)).isSome = true →
      ∃ t, exec (.wideWriteHi id a v) s = .next t ∧ t.stage.find? id.toNat = some v ∧ t.regs = s.regs) ∧
    (a.toNat = FTM.START_LO →
      ∃ t, exec (.wideWriteLo id a v) s = .next t ∧ t.stage.find? id.toNat = none ∧
        t.rd (a.toNat + 4) = (match s.stage.find? id.toNat with | some h => h | none => s.rd (a.toNat + 4)) ∧
        t.get FTM.START_LO_t = bits v 8 24))

/-- A write to `ERR_CODE` clears the code, its count and `ERR_ADDR`; the key locks the page and no other word does; `IRQ_SET` sets the
events that the page has in both latches. The clear field of a saturating count of the MEM page sets its counts to 0. A soft reset of a
CLK, OPT or MGT page brings every register from offset 0x040 on to its warm value and leaves the header (that it begins at 0x040 is read
by inference, log 34). Rules of the commands named: R36, R42, R44, R521. -/
def Obligations.PageHeaders : Prop :=
  (∀ (s : State) (id : ReqId) (n : BitVec 8) (v : Word), pageDecoded n.toNat = true →
    (s.ready (pageReg n 0x24) = true → bits v 0 16 ≠ 0 → ∃ t, exec (.errCodeClear id n v) s = .next t ∧
      t.get (HDR.ERR_CODE_code (pageReg n 0)) = 0 ∧ t.get (HDR.ERR_CODE_count (pageReg n 0)) = 0 ∧
      t.get (HDR.ERR_ADDR_addr (pageReg n 0)) = 0 ∧
      ∀ b, b ≠ HDR.ERR_CODE (pageReg n 0) → b ≠ HDR.ERR_ADDR (pageReg n 0) → t.rd b = s.rd b) ∧
    (s.ready (pageReg n 0x2C) = true → ∃ t, exec (.pageLock id n v) s = .next t ∧
      (v = 0x4C4B0001#32 → t.get (HDR.LOCK_locked (pageReg n 0)) = 1) ∧
      (v ≠ 0x4C4B0001#32 → t.rd (HDR.LOCK (pageReg n 0)) = s.rd (HDR.LOCK (pageReg n 0))) ∧
      ∀ b, b ≠ HDR.LOCK (pageReg n 0) → t.rd b = s.rd b) ∧
    (s.ready (pageReg n 0x1C) = true → ∃ t, exec (.irqSet id n v) s = .next t ∧
      ∀ k m, pageOfNumber n.toNat = some (k, m) →
        t.rd (HDR.IRQ_RAW (pageReg n 0)) = s.rd (HDR.IRQ_RAW (pageReg n 0)) ||| (v &&& eventMask k) ∧
        t.rd (HDR.IRQ_PEND (pageReg n 0)) = s.rd (HDR.IRQ_PEND (pageReg n 0)) ||| (v &&& eventMask k))) ∧
  (∀ (s : State) (id : ReqId) (a : Word) (v : Word) (r : CountRow), pageAt a.toNat = some (.mem, 0) → a.toNat % 4 = 0 →
    countAt .mem (a.toNat % 0x1000) = some r → bit v r.clear = true → s.ready a.toNat = true →
    ∃ t, exec (.countClear id a v) s = .next t ∧ ∀ f ∈ r.fields, t.get ⟨a.toNat, f.1, f.2⟩ = 0) ∧
  (∀ (s : State) (id : ReqId) (n : BitVec 8) (v : Word) (k : PageKind) (m : Nat), pageOfNumber n.toNat = some (k, m) →
    (k = .clk ∨ k = .opt ∨ k = .mgt) → bit v 1 = true → s.ready (pageReg n 0x08) = true →
    ∃ t, exec (.blockSoftReset id n v) s = .next t ∧
      (∀ off, 0x40 ≤ off → off < 0x1000 → t.rd (pageReg n off) = s.warmValue (pageReg n off) (s.rd (pageReg n off))) ∧
      (∀ off, off < 0x40 → off ≠ 0x08 → t.rd (pageReg n off) = s.rd (pageReg n off)))

/-- A write of a claim takes a free claim for its own writer and releases it for its owner; an attempt to take a held claim, or one for
another requester, leaves the owner and is logged with code 2. A write of `GPIO_OUT` or `GPIO_DIR` changes the bits whose claims its
writer holds and no other; where it would change another the page logs code 3, once (log 40). A level on a GPIO ball reaches the pin,
and raises event bit 1 where `GPIO_IN` changes in a bit that `GPIO_IRQ` enables; no register but the event latches changes. Rules of the
commands named: R48, R53. -/
def Obligations.ClaimsAndPins : Prop :=
  (∀ (s : State) (id : ReqId) (n : Fin 64) (v : Word), s.ready (SYS.CLAIM n) = true → n.val < 55 →
    ∃ t, exec (.claimWrite id n v) s = .next t ∧
      (s.owner n = 0 → bits v 0 8 = id.toNat → id.toNat ≠ 0 → (id.toNat < 0x40 ∨ 0x60 ≤ id.toNat) → t.owner n = id.toNat) ∧
      (s.owner n = id.toNat → id.toNat ≠ 0 → bits v 0 8 = 0 → t.owner n = 0) ∧
      (bits v 0 8 ≠ 0 → (s.owner n ≠ 0 ∨ bits v 0 8 ≠ id.toNat) →
        t.owner n = s.owner n ∧ t.get (HDR.ERR_CODE_code SYS.base) = 2 ∧ t.get (HDR.ERR_ADDR_addr SYS.base) = SYS.CLAIM n)) ∧
  (∀ (s : State) (id : ReqId) (dir : Bool) (v : Word), s.ready (if dir then SYS.GPIO_DIR else SYS.GPIO_OUT) = true →
    ∃ t, exec (.gpioWrite id dir v) s = .next t ∧
      (∀ n : Nat, n < 16 →
        (t.get (if dir then SYS.GPIO_DIR_out else SYS.GPIO_OUT_lvl)).testBit n =
          (if s.holds id (16 + n) then bit v n else (s.get (if dir then SYS.GPIO_DIR_out else SYS.GPIO_OUT_lvl)).testBit n)) ∧
      ((∃ n : Nat, n < 16 ∧ s.holds id (16 + n) = false ∧
          bit v n ≠ (s.get (if dir then SYS.GPIO_DIR_out else SYS.GPIO_OUT_lvl)).testBit n) →
        t.get (HDR.ERR_CODE_code SYS.base) = 3)) ∧
  (∀ (s : State) (n : Fin 16) (level : Bool), ∃ t, exec (.gpioInputChange n level) s = .next t ∧
    t.gpioPins.getLsbD n.val = level ∧
    (∀ a, a ≠ HDR.IRQ_RAW SYS.base → a ≠ HDR.IRQ_PEND SYS.base → t.rd a = s.rd a) ∧
    ((s.gpioIn ^^^ t.gpioIn) &&& s.get SYS.GPIO_IRQ_en ≠ 0 → (t.rd (HDR.IRQ_PEND SYS.base)).getLsbD 1 = true))

/-- A frame for another device changes nothing but that it ends what the port still had to answer to an earlier frame. A broadcast write
is performed with no answer, and a broadcast read is a frame error. On an idle port a read or a read burst of common SRAM answers its
words, and a write or a write burst stores them and no other byte. A frame that comes while another is performed has its word accesses,
in address order, to do after it (log 84). Wrong confirmation bytes and a cut frame are a logged frame error (code 0x0C) and leave the
reset block and the accesses alone. A reset frame with the confirmation bytes sets its `CAUSE` bit; the release begins at AON for a cold
reset and at SEC for a warm one, and no domain but AON is on. Once every access is done the port sends the wait bytes, the marker, the
words read, most significant byte first, the status byte, and 0xFF until the frame ends; how many wait and trailing bytes there are
comes with the command (log 88). In Rest a frame whose command byte matches is kept and the exit begins, with the wake cause bit of the
port. Rules of the commands named: R57, R58, R59, R61. -/
def Obligations.ManagementPort : Prop :=
  (∀ (s : State) (tgt : BitVec 4) (a v : Word) (n : Byte) (ws : List Word) (c0 c1 : Byte),
    (tgt.toNat ≠ s.rst.madr.toNat → tgt.toNat ≠ 15 →
      ∀ c ∈ ([.mgtRead tgt a, .mgtReadBurst tgt a n, .mgtWrite tgt a v, .mgtWriteBurst tgt a ws, .mgtColdReset tgt c0 c1,
        .mgtWarmReset tgt c0 c1] : List Instr),
      exec c s = .next { s with mgt := { s.mgt with reply := false, mdo := false, out := [], live := false } }) ∧
    (s.mgt.held = [] → tgt.toNat = s.rst.madr.toNat → s.pwr.sleep = .run → s.pwr.hand = none → s.mgt.before = [] → s.mgt.todo = [] →
      0x10000000 ≤ a.toNat → a.toNat + 1024 ≤ 0x10400000 → a.toNat % 4 = 0 → s.ready a.toNat = true → s.get DBG.CMEM_FENCE_bank = 0 →
      s.poison = [] → s.upsets = [] →
      (∃ t, exec (.mgtRead tgt a) s = .next t ∧ t.mgt.words = [s.word a.toNat] ∧ t.mgt.todo = [] ∧ t.mgt.err = false ∧ t.mem = s.mem) ∧
      (∃ t, exec (.mgtReadBurst tgt a n) s = .next t ∧ t.mgt.words = (List.range (n.toNat + 1)).map (fun i => s.word (a.toNat + 4 * i)) ∧
        t.mgt.todo = [] ∧ t.mgt.err = false ∧ t.mem = s.mem) ∧
      (∃ t, exec (.mgtWrite tgt a v) s = .next t ∧ t.word a.toNat = v ∧ t.mgt.todo = [] ∧ t.mgt.err = false ∧
        ∀ b, b < a.toNat ∨ a.toNat + 4 ≤ b → t.byte b = s.byte b) ∧
      (1 ≤ ws.length → ws.length ≤ 256 → ∃ t, exec (.mgtWriteBurst tgt a ws) s = .next t ∧
        (∀ i, i < ws.length → t.word (a.toNat + 4 * i) = ws.getD i 0) ∧ t.mgt.todo = [] ∧ t.mgt.err = false ∧
        ∀ b, b < a.toNat ∨ a.toNat + 4 * ws.length ≤ b → t.byte b = s.byte b)) ∧
    (s.mgt.held = [] → tgt.toNat = 15 → s.pwr.sleep = .run → s.pwr.hand = none → s.mgt.before = [] → s.mgt.todo = [] →
      0x10000000 ≤ a.toNat → a.toNat + 1024 ≤ 0x10400000 → a.toNat % 4 = 0 → s.ready a.toNat = true → s.get DBG.CMEM_FENCE_bank = 0 →
      s.poison = [] → s.upsets = [] →
      (∃ t, exec (.mgtWrite tgt a v) s = .next t ∧ t.word a.toNat = v ∧ t.mgt.reply = false ∧ t.mgt.mdo = false ∧
        ∀ b, b < a.toNat ∨ a.toNat + 4 ≤ b → t.byte b = s.byte b) ∧
      (∀ c ∈ ([.mgtRead tgt a, .mgtReadBurst tgt a n] : List Instr), ∃ t, exec c s = .next t ∧ t.get (HDR.ERR_CODE_code MGT.base) = 0x0C ∧
        t.get (HDR.ERR_ADDR_addr MGT.base) = a.toNat ∧ t.mem = s.mem)) ∧
    (s.mgt.held = [] → s.mgt.before ++ s.mgt.todo ≠ [] → tgt.toNat = s.rst.madr.toNat → 1 ≤ ws.length → ws.length ≤ 256 →
    s.pwr.sleep = .run → s.pwr.hand = none →
    (∃ t, exec (.mgtRead tgt a) s = .next t ∧ t.mgt.todo = readAccs mgtId a.toNat 1 ∧ t.mgt.read = true ∧ t.mgt.busy = true) ∧
    (∃ t, exec (.mgtReadBurst tgt a n) s = .next t ∧ t.mgt.todo = readAccs mgtId a.toNat (n.toNat + 1) ∧ t.mgt.read = true) ∧
    (∃ t, exec (.mgtWrite tgt a v) s = .next t ∧ t.mgt.todo = [wrAcc mgtId a.toNat v] ∧ t.mgt.read = false) ∧
    (∃ t, exec (.mgtWriteBurst tgt a ws) s = .next t ∧
      t.mgt.todo = (ws.zip (List.range ws.length)).map (fun x => wrAcc mgtId (a.toNat + 4 * x.2) x.1) ∧ t.mgt.read = false)) ∧
    (s.mgt.held = [] → tgt.toNat = s.rst.madr.toNat → s.pwr.sleep = .run → s.pwr.hand = none →
    (¬(c0 = 0x6B#8 ∧ c1 = 0x94#8) → ∀ c ∈ ([.mgtColdReset tgt c0 c1, .mgtWarmReset tgt c0 c1] : List Instr), ∃ t, exec c s = .next t ∧
      t.get (HDR.ERR_CODE_code MGT.base) = 0x0C ∧ t.rst = s.rst ∧ t.mgt.todo = s.mgt.todo) ∧
    (∃ t, exec (.mgtFrameCut [BitVec.ofNat 8 (16 * tgt.toNat + 1), 0x40]) s = .next t ∧ t.get (HDR.ERR_CODE_code MGT.base) = 0x0C ∧
      t.mgt.todo = s.mgt.todo))) ∧
  (∀ (s : State) (tgt : BitVec 4), tgt.toNat = s.rst.madr.toNat → s.pwr.sleep = .run → s.rst.optFault = false → s.pwr.hand = none →
    (∃ t, exec (.mgtColdReset tgt 0x6B 0x94) s = .next t ∧ t.get ⟨RST.CAUSE, 3, 1⟩ = 1 ∧ t.rst.next = some 0 ∧ t.rst.warm = false ∧
      t.pwr.domOn = 1 ∧ t.dev = 0 ∧ t.otp.sameOptions s.otp = true) ∧
    (¬(s.rst.warm = false ∧ s.rst.next = some 0) →
      ∃ t, exec (.mgtWarmReset tgt 0x6B 0x94) s = .next t ∧ t.get ⟨RST.CAUSE, 4, 1⟩ = 1 ∧ t.rst.next = some 1 ∧ t.rst.warm = true ∧
        t.pwr.domOn = 1 ∧ t.dev = s.dev)) ∧
  ((∀ s : State, s.mgt.busy = true → s.mgt.before = [] → s.mgt.todo = [] → s.mgt.reply = true →
    ∀ waits after : Nat, ∃ t, exec (.mgtMarker waits after) s = .next t ∧ t.mgt.busy = false ∧ t.mgt.mdo = false ∧
      t.mgt.out = List.replicate (waits + 1) 0 ++ [0xA5#8] ++ (s.mgt.words.flatMap fun w => beBytes 4 w.toNat) ++
        [(if s.mgt.err then 1#8 else 0#8) + (if s.mgt.domOff then 2#8 else 0#8)] ++ List.replicate after 0xFF#8 ∧ t.regs = s.regs) ∧
  (∀ (s : State) (cmd : Byte) (rest : List Byte), cmd.toNat / 16 = s.rst.madr.toNat → s.pwr.sleep = .rest → s.pwr.hand = none →
    isReset (cmd :: rest) = false → s.pwr.restExit = false →
    ∃ t, exec (.mgtAddressMatchWake cmd rest) s = .next t ∧ t.mgt.held = s.mgt.held ++ [cmd :: rest] ∧
      t.get ⟨PWR.WAKE_CAUSE, 0, 1⟩ = 1 ∧ t.pwr.restExit = decide (s.get PWR.PL_STAT_vid = s.pwr.goal)))

/-- A fetch takes the entry that comes next: its list, its place, its frame, its start as the schedule word gives it; an entry with a
failing word has no direction, event, gate or trigger. The fetched entry starts as the current one of its list; with a stop pending for
that frame or one before it, and the last entry of the frame running, the timer stops (log 56). The clock first moves to the instant of
the event (log 2). Rules of the commands named: R62, R65. -/
def Obligations.EntriesFetchedAndStarted : Prop :=
  (∀ (s : State) (u : Option (Fin 4)) (l : SchedList) (pos frame frameBt fetchBt : Nat),
    s.nextFetch = some (l, pos, frame, frameBt, fetchBt) →
    ∃ t, exec (.entryFetch u) s = .next t ∧ ∃ e, t.timer.fetched = some e ∧ e.list = l ∧ e.pos = pos ∧ e.frame = frame ∧
      e.startBt = frameBt + bits (s.word (schedAddr (l.base + pos) 0)) 0 24 ∧
      (u = none → e = s.entryOf l pos frame frameBt fetchBt) ∧
      (u ≠ none → e.bad = true ∧ e.dir = 0 ∧ e.ev = 0 ∧ e.gate = 0 ∧ e.fes = [])) ∧
  (∀ s : State, s.pair.hold = [] → s.pair.recWant = none →
    (∀ e, s.timer.fetched = some e → ∃ t, exec .entryStart s = .next t ∧ t.timer.cur = some e ∧ t.timer.fetched = none ∧
      t.timer.running = some e.list) ∧
    (∀ e, s.timer.cur = some e → s.timer.fetched = none → s.timer.stopPending = true → s.timer.stopFrame ≤ e.frame → e.pos + 1 = e.list.count →
      ∃ t, exec .entryStart s = .next t ∧ t.timer.running = none ∧ t.timer.cur = none ∧ t.timer.stopPending = false))

/-- A commit takes the list that the registers name as it stands at the write, unless a check runs; the check makes the list pending or
refuses it with its code. A word of the schedule table takes what is written, unless its entry is live and not recorded as bad; a write
ends the record; no other byte of memory changes. A read answers the word; one that fails its check answers poisoned 0, is counted and
recorded. What a commit does to an accepted list is read by inference (log 53). Rules of the commands named: R69, R70, R72. -/
def Obligations.ListsAndScheduleTable : Prop :=
  (∀ (s : State) (id : ReqId) (v : Word),
    (s.ready FTM.NEXT_CTRL = true → bit v 0 = true → ∃ t, exec (.listCommit id v) s = .next t ∧ t.timer.pending = s.timer.pending ∧
      (s.timer.checking = none → t.timer.checking = some s.nextList) ∧
      (∀ l, s.timer.checking = some l → t.timer.checking = some l ∧ t.get (HDR.ERR_CODE_code FTM.base) = 0x43)) ∧
    (∀ l, s.timer.checking = some l → ∃ t, exec .listCheckDone s = .next t ∧ t.timer.checking = none ∧
      (s.listRefusal l = none → t.timer.pending = some l) ∧
      (∀ c, s.listRefusal l = some c → t.timer.pending = s.timer.pending ∧ t.get (HDR.ERR_CODE_code FTM.base) = c))) ∧
  (∀ (s : State) (id : ReqId) (w : Fin 4096) (v : Word), s.ready (0x39000000 + 4 * w.val) = true →
    (∃ t, exec (.scheduleEntryWrite id w v) s = .next t ∧
      ((s.entryLive (w.val / 4) = false ∨ s.timer.badEntries.contains (w.val / 4) = true) →
        t.word (0x39000000 + 4 * w.val) = v ∧ t.timer.badEntries.contains (w.val / 4) = false) ∧
      (s.entryLive (w.val / 4) = true → s.timer.badEntries.contains (w.val / 4) = false →
        t.mem = s.mem ∧ t.get (HDR.ERR_CODE_code FTM.base) = 0x40) ∧
      (∀ b, b < 0x39000000 + 4 * w.val ∨ 0x39000004 + 4 * w.val ≤ b → t.byte b = s.byte b)) ∧
    (s.parityBad (0x39000000 + 4 * w.val) = false → ∃ t, exec (.scheduleEntryRead id w false) s = .next t ∧
      t.resp = ⟨(s.word (0x39000000 + 4 * w.val)).setWidth 64, false, false, false, false⟩ ∧ t.mem = s.mem ∧ t.regs = s.regs) ∧
    (∃ t, exec (.scheduleEntryRead id w true) s = .next t ∧ t.resp = ⟨0, false, false, false, true⟩ ∧
      t.get FTM.BAD_ENTRY_index = w.val / 4 ∧ t.get FTM.BAD_ENTRY_valid = 1 ∧
      t.get FTM.COUNTS_bad = min (s.get FTM.COUNTS_bad + 1) 255 ∧ t.timer.badEntries.contains (w.val / 4) = true))

/-- A computed edge of an event line opens or closes one of its intervals and is done; a release ends the hold of every FEC pin. An FES
transaction ends with the bits received in the master's `FES_RX`, and no other register changes. A converter of a stand that the running
entry gates and the fetched one needs is on again after the ungating. Rules of the commands named: R74, R78, R81, R83. -/
def Obligations.EventLinesAndMasters : Prop :=
  (∀ (s : State) (id : ReqId) (v : Word) (e : Fin 16) (rise : Bool),
    (∀ x rest, takeEdge e.val rise s.timer.edges = some (x, rest) → ∃ t, exec (.eventLineEdge e rise) s = .next t ∧ t.timer.edges = rest ∧
      t.timer.depth.get e.val 0 = (if rise then s.timer.depth.get e.val 0 + 1 else s.timer.depth.get e.val 0 - 1)) ∧
    (s.ready FTM.CTRL = true → bit v 2 = true → ∃ t, exec (.fecRelease id v) s = .next t ∧ t.timer.fecHold = 0)) ∧
  (∀ (s : State) (n : Fin 3) (rx : Word) (j : FesJob) (rest : List FesJob), takeFes n.val s.timer.fesBusy = some (j, rest) →
    ∃ t, exec (.fesTransactionDone n rx) s = .next t ∧ t.timer.fesBusy = rest ∧
      t.rd (FTM.FES_RX n.val) = BitVec.ofNat 32 (rx.toNat % 2 ^ j.len) ∧ (∀ a, a ≠ FTM.FES_RX n.val → t.rd a = s.rd a) ∧ t.mem = s.mem ∧
      (s.refclk = true → j.endCt ≤ t.ct)) ∧
  (∀ (s : State) (st : Fin 8) (k : Fin 3) (f : Entry), s.timer.fetched = some f → s.gatedNow st.val k.val = true →
    s.entryGates f st.val k.val = false → s.cnv.early.getLsbD (3 * st.val + k.val) = false →
    ∃ t, exec (.standUngate st) s = .next t ∧ t.convOn st.val k.val = true ∧ t.timer = s.timer ∧ t.regs = s.regs)

/-- A trigger that finds its master busy is dropped: the running transaction goes on, the FES overrun is counted and `IRQ_RAW` bit 5 is
raised. A trigger for a master with en = 0 does nothing. Any other starts the transaction with the length and data of its slot and
changes no register. Rules of the commands named: R81. -/
def Obligations.FesTriggers : Prop :=
  ∀ (s : State) (n : Fin 3) (j : FesJob) (rest : List FesJob), takeFes n.val s.timer.fesQueue = some (j, rest) →
    ∃ t, exec (.fesTransactionStart n) s = .next t ∧ t.timer.fesQueue = rest ∧
      (s.get (FTM.FES_CFG_en n.val) = 0 → t.timer.fesBusy = s.timer.fesBusy ∧ t.regs = s.regs) ∧
      (s.get (FTM.FES_CFG_en n.val) = 1 → s.fesBusy n.val = true → t.timer.fesBusy = s.timer.fesBusy ∧
        t.get FTM.COUNTS_ovr = min (s.get FTM.COUNTS_ovr + 1) 255 ∧ (t.rd (HDR.IRQ_RAW FTM.base)).getLsbD 5 = true) ∧
      (s.get (FTM.FES_CFG_en n.val) = 1 → s.fesBusy n.val = false → t.regs = s.regs ∧ t.timer.fesBusy = s.timer.fesBusy ++
        [{ j with
          len := s.get (FTM.FES_FMT_len (64 * n.val + j.slot)) + 1
          data := s.rd (FTM.FES_DATA (64 * n.val + j.slot))
          sck := s.fesSck n.val
          mode3 := s.flag (FTM.FES_CFG_mode3 n.val) }])

/-- Writing run = 1 with the timer stopped and no start accepted accepts the pending list, or is refused with its code: timer disabled,
nothing pending, start time too near. Writing run = 0 asks a running timer to stop, and cancels an accepted start. The order of the
refusals is the order in which the spec names them. Rules of the commands named: R84. -/
def Obligations.TimerRunsAndStops : Prop :=
  ∀ (s : State) (id : ReqId) (v : Word), s.ready FTM.CTRL = true →
    (bit v 0 = true → s.timer.running = none → s.timer.accepted = none → ∃ t, exec (.timerRun id v) s = .next t ∧
      (s.get (HDR.BLK_CTRL_enable FTM.base) = 0 →
        t.get (HDR.ERR_CODE_code FTM.base) = 0x44 ∧ t.timer.accepted = none ∧ t.timer.pending = s.timer.pending) ∧
      (s.get (HDR.BLK_CTRL_enable FTM.base) = 1 → s.timer.pending = none →
        t.get (HDR.ERR_CODE_code FTM.base) = 0x41 ∧ t.timer.accepted = none) ∧
      (∀ l, s.timer.pending = some l → s.get (HDR.BLK_CTRL_enable FTM.base) = 1 →
        (s.rd64 FTM.START_LO < s.ct + 32768 * 64 →
          t.get (HDR.ERR_CODE_code FTM.base) = 0x42 ∧ t.timer.accepted = none ∧ t.timer.pending = some l) ∧
        (s.ct + 32768 * 64 ≤ s.rd64 FTM.START_LO →
          t.timer.accepted = some l ∧ t.timer.pending = none ∧ t.get FTM.CTRL_run = 1))) ∧
    (bit v 0 = false → ∃ t, exec (.timerStopRequest id v) s = .next t ∧
      (s.timer.running ≠ none → t.timer.stopPending = true ∧ t.timer.running = s.timer.running ∧ t.get FTM.CTRL_run = 0) ∧
      (∀ l, s.timer.accepted = some l → s.timer.running = none →
        t.timer.accepted = none ∧ t.timer.pending = some (s.timer.pending.getD l) ∧ t.get FTM.CTRL_run = 0))

/-- A write of the TSYNC mode arms an align, takes over a stamp mode, or is refused with its code; a captured rising edge stamps or
aligns device time by the mode, and a falling edge changes neither. Lock sets its status. A loss of lock is counted, raises its event
and silences the converters; a loss of REFCLK does so too, stops the timer and clears its enable, and device time stands; REFCLK's
return sets its status. What the mode reads after an align, and how a loss of REFCLK counts, is read by inference (log 55, log 62).
Rules of the commands named: R85, R90, R93. -/
def Obligations.TsyncAndClock : Prop :=
  (∀ (s : State) (id : ReqId) (v : Word),
    (s.ready CLK.TSYNC_CTRL = true → ∃ t, exec (.tsyncModeWrite id v) s = .next t ∧
      (bits v 0 2 = 3 → t.get (HDR.ERR_CODE_code CLK.base) = 0x62 ∧ t.get CLK.TSYNC_CTRL_mode = s.get CLK.TSYNC_CTRL_mode) ∧
      (bits v 0 2 = 1 → s.timer.running ≠ none →
        t.get (HDR.ERR_CODE_code CLK.base) = 0x60 ∧ t.get CLK.TSYNC_CTRL_mode = s.get CLK.TSYNC_CTRL_mode) ∧
      (bits v 0 2 = 1 → s.timer.running = none → t.get CLK.TSYNC_CTRL_mode = 1 ∧ t.get CLK.TSYNC_CTRL_armed = 1) ∧
      ((bits v 0 2 = 0 ∨ bits v 0 2 = 2) → t.get CLK.TSYNC_CTRL_mode = bits v 0 2 ∧ t.get CLK.TSYNC_CTRL_armed = 0)) ∧
    (∃ t, exec .tsyncEdge s = .next t ∧ t.timer.tsyncOut = true ∧
      (s.get CLK.TSYNC_CTRL_mode = 1 → s.timer.running ≠ none → t.dev = s.dev ∧ t.regs = s.regs) ∧
      (s.get CLK.TSYNC_CTRL_mode = 1 → s.timer.running = none → t.get CLK.TSYNC_CTRL_mode = 0 ∧ t.get CLK.TSYNC_CTRL_aligned = 1 ∧
        t.dev = BitVec.ofNat 64 (s.rd64 CLK.TSYNC_LOAD_LO + 32 * s.get CLK.TSYNC_COMP_rc)) ∧
      (s.get CLK.TSYNC_CTRL_mode = 2 → t.rd64 CLK.TSYNC_STAMP_LO = s.ct ∧ t.dev = s.dev)) ∧
    (∃ t, exec .tsyncFallingEdge s = .next t ∧ t.timer.tsyncOut = false ∧ t.regs = s.regs ∧ t.dev = s.dev)) ∧
  (∀ s : State,
    (s.get CLK.PLL_CTRL_en = 1 → s.refclk = true → s.pwr.sleep = .run → s.get CLK.PLL_STAT_locked = 0 →
      ∃ t, exec .pllLocked s = .next t ∧ t.get CLK.PLL_STAT_locked = 1 ∧ bit (t.view CLK.PLL_STAT) 1 = true ∧
        (s.timer.running = none → t.cnv.lost = false)) ∧
    (s.refclk = true → s.get CLK.PLL_STAT_locked = 1 → ∃ t, exec .pllLockLoss s = .next t ∧ t.get CLK.PLL_STAT_locked = 0 ∧
      t.cnv.lost = true ∧ t.get CLK.LOCK_LOSS_COUNT_count = min (s.get CLK.LOCK_LOSS_COUNT_count + 1) 255 ∧
      (t.rd (HDR.IRQ_PEND CLK.base)).getLsbD 1 = true ∧ t.timer = s.timer) ∧
    (s.refclk = true → ∃ t, exec .refclkLoss s = .next t ∧ t.refclk = false ∧ bit (t.view CLK.PLL_STAT) 1 = false ∧
      t.get CLK.PLL_STAT_locked = 0 ∧ t.cnv.lost = true ∧ t.get (HDR.BLK_CTRL_enable FTM.base) = 0 ∧ t.timer.running = none ∧
      t.dev = s.dev ∧ (t.rd (HDR.IRQ_PEND CLK.base)).getLsbD 2 = true ∧
      (s.get CLK.PLL_STAT_locked = 1 →
        t.get CLK.LOCK_LOSS_COUNT_count = min (s.get CLK.LOCK_LOSS_COUNT_count + 1) 255)) ∧
    (s.refclk = false → ∃ t, exec .refclkReturn s = .next t ∧ t.refclk = true ∧ bit (t.view CLK.PLL_STAT) 1 = true ∧ t.dev = s.dev))

/-- A write of `PLL_CTRL` sets the enable and the rate, and a disabled PLL is not locked; while converters are enabled a write that
would stop the PLL or change the rate is refused (one log for both, log 62). Converters are enabled as written, but not one on whose
stand a live slice would fail its band check: then the write is refused with code 0x45 and leaves the register. Rules of the commands
named: R90, R91, R128. -/
def Obligations.PllAndConverters : Prop :=
  (∀ (s : State) (id : ReqId) (v : Word), s.ready CLK.PLL_CTRL = true →
    ∀ c ∈ ([.pllEnableWrite id v, .halfRateWrite id v] : List Instr), ∃ t, exec c s = .next t ∧
      ((s.convertersOn = false ∨ bit v 0 = true ∧ bits v 1 1 = s.get CLK.PLL_CTRL_half) →
        t.get CLK.PLL_CTRL_en = bits v 0 1 ∧ t.get CLK.PLL_CTRL_half = bits v 1 1 ∧
        (bit v 0 = false → t.get CLK.PLL_STAT_locked = 0)) ∧
      (s.convertersOn = true → (bit v 0 = false ∨ bits v 1 1 ≠ s.get CLK.PLL_CTRL_half) →
        t.get (HDR.ERR_CODE_code CLK.base) = 0x61 ∧ t.rd CLK.PLL_CTRL = s.rd CLK.PLL_CTRL)) ∧
  (∀ (s : State) (id : ReqId) (st : Fin 8) (v : Word), s.ready (STD.CNV_CTRL st.val) = true →
    ∃ t, exec (.cnvCtrlWrite id st v) s = .next t ∧
      ((∀ (i : Fin 4) (u : Fin 8),
          ((s.slice false i.val).live = true →
            s.bandCheck (fun k => if k = st.val then bits v 0 8 else s.convMask false k) false i.val u.val = 0) ∧
          ((s.slice true i.val).live = true →
            s.bandCheck (fun k => if k = st.val then bits v 8 8 else s.convMask true k) true i.val u.val = 0)) →
        t.get (STD.CNV_CTRL_adc st.val) = bits v 0 8 ∧ t.get (STD.CNV_CTRL_dac st.val) = bits v 8 8) ∧
      (∀ i, i < 4 → (s.slice true i).live = true → bits v 8 8 &&& (255 - s.get (STD.CNV_CTRL_dac st.val)) ≠ 0 →
        s.bandCheck (fun k => if k = st.val then bits v 8 8 else s.convMask true k) true i st.val ≠ 0 →
        t.get (HDR.ERR_CODE_code (STD.base st.val)) = 0x45 ∧ t.rd (STD.CNV_CTRL st.val) = s.rd (STD.CNV_CTRL st.val)) ∧
      (∀ i, i < 4 → (s.slice false i).live = true → bits v 0 8 &&& (255 - s.get (STD.CNV_CTRL_adc st.val)) ≠ 0 →
        s.bandCheck (fun k => if k = st.val then bits v 0 8 else s.convMask false k) false i st.val ≠ 0 →
        t.get (HDR.ERR_CODE_code (STD.base st.val)) = 0x45 ∧ t.rd (STD.CNV_CTRL st.val) = s.rd (STD.CNV_CTRL st.val)))

/-- The LO half of a slice word gives the whole word its value, of 48 bits, with the staged HI half where there is one, unless the slice
is active: then the write is refused with code 0x46. A commit makes the staged equaliser sets active at once where the slice is not
started or the timer stands, and waits for the next entry start else. Rules of the commands named: R97, R108. -/
def Obligations.SliceWordsAndEqualisers : Prop :=
  (∀ (s : State) (id : ReqId) (tx : Bool) (st : Fin 8) (i : Fin 4) (v : Word),
    s.ready (sliceWordAddr tx st.val i.val) = true →
    ∃ t, exec (.sliceWordWrite id (BitVec.ofNat 32 (sliceWordAddr tx st.val i.val)) v) s = .next t ∧
      t.stage.find? id.toNat = none ∧
      ((s.slice tx i.val).active = false → t.rd64 (sliceWordAddr tx st.val i.val) =
        (v.toNat + 2 ^ 32 * (match s.stage.find? id.toNat with
          | some h => h
          | none => s.rd (sliceWordAddr tx st.val i.val + 4)).toNat) % 2 ^ 48) ∧
      ((s.slice tx i.val).active = true → t.rd64 (sliceWordAddr tx st.val i.val) = s.rd64 (sliceWordAddr tx st.val i.val) ∧
        t.get (HDR.ERR_CODE_code (STD.base st.val)) = 0x46)) ∧
  (∀ (s : State) (id : ReqId) (st : Fin 8) (v : Word) (n : Fin 32), s.ready (STD.EQ_COMMIT st.val) = true → bit v n.val = true →
    ∃ t, exec (.eqCommit id st v) s = .next t ∧
      (((s.slice false (n.val % 4)).isStarted = false ∨ s.timer.running = none) → ∀ k, k < 16 →
        t.eqTap st.val (n.val / 4) (n.val % 4) k = s.rd (STD.EQ st.val (64 * (n.val / 4) + 16 * (n.val % 4) + k))) ∧
      ((s.slice false (n.val % 4)).isStarted = true → s.timer.running ≠ none → t.get ⟨STD.EQ_COMMIT st.val, n.val, 1⟩ = 1))

/-- The holder of claim 43 starts a play of the sequence that the registers name; while one plays a start is dropped and counted;
another requester is refused with code 3. A play ends with the transmitter at zero. A mute by a register is in force at once; while the
timer runs no mute in force is lifted by a write, and with the timer stopped the mutes in force are those of the registers and the
hardware. The HI half of the path mask is staged for its requester. Rules of the commands named: R111, R112, R189. -/
def Obligations.CalibrationAndMutes : Prop :=
  (∀ (s : State) (id : ReqId) (v : Word),
    (s.ready TXC.CAL_CTRL = true → ∃ t, exec (.calGo id v) s = .next t ∧
      (s.holds id 43 = false → t.get (HDR.ERR_CODE_code TXC.base) = 3 ∧ t.cnv = s.cnv ∧ t.rd TXC.CAL_CTRL = s.rd TXC.CAL_CTRL) ∧
      (s.holds id 43 = true → bit v 0 = true → bit v 1 = true →
        (s.cnv.play = none → t.get TXC.CAL_STAT_playing = 1 ∧ ∃ c, t.cnv.play = some c ∧ c.startCt = s.ct ∧
          c.base = s.get TXC.CAL_SEQ_base ∧ c.len = s.get TXC.CAL_SEQ_len + 1 ∧ c.reps = s.get TXC.CAL_PLAY_reps ∧
          c.atten = s.get TXC.CAL_PLAY_atten) ∧
        (s.cnv.play ≠ none → t.cnv.play = s.cnv.play ∧ t.get TXC.CAL_STAT_dropped = min (s.get TXC.CAL_STAT_dropped + 1) 255))) ∧
    (s.cnv.play ≠ none → ∃ t, exec .calPlayEnd s = .next t ∧ t.cnv.play = none ∧ t.calOut = 0 ∧ t.get TXC.CAL_STAT_playing = 0)) ∧
  (∀ (s : State) (id : ReqId) (v : Word),
    (s.ready TXC.MUTE_ALL = true → ∃ t, exec (.muteRegisterWrite id .all v) s = .next t ∧
      t.get TXC.MUTE_ALL_all = bits v 0 1 ∧ (bit v 0 = true → t.tx.muted = BitVec.allOnes 64) ∧
      (s.timer.running ≠ none → t.tx.muted &&& s.tx.muted = s.tx.muted) ∧
      (s.timer.running = none → t.tx.muted = t.regMute ||| t.hardMute)) ∧
    (s.ready TXC.MUTE_STAND = true → ∃ t, exec (.muteRegisterWrite id .stand v) s = .next t ∧
      t.get TXC.MUTE_STAND_stand = bits v 0 8 ∧ (∀ p : Fin 64, bit v (p.val / 8) = true → t.tx.muted.getLsbD p.val = true) ∧
      (s.timer.running ≠ none → t.tx.muted &&& s.tx.muted = s.tx.muted) ∧
      (s.timer.running = none → t.tx.muted = t.regMute ||| t.hardMute)) ∧
    (s.ready TXC.MUTE_PATH_LO = true → ∃ t, exec (.muteRegisterWrite id .pathLo v) s = .next t ∧
      t.rd TXC.MUTE_PATH_LO = v ∧ t.stage.find? id.toNat = none ∧
      (∀ p : Fin 32, bit v p.val = true → t.tx.muted.getLsbD p.val = true) ∧
      (s.timer.running ≠ none → t.tx.muted &&& s.tx.muted = s.tx.muted) ∧
      (s.timer.running = none → t.tx.muted = t.regMute ||| t.hardMute)) ∧
    (s.ready TXC.MUTE_PATH_HI = true → ∃ t, exec (.muteRegisterWrite id .pathHi v) s = .next t ∧
      t.stage.find? id.toNat = some v ∧ t.tx = s.tx ∧ t.regs = s.regs))

/-- A slice starts its check at a start bit. The check refuses the slice for its band (code 0x41), a preset that fails the check of its
ROM (code 0x44; whether one does is open, log 64) or a start time that has passed (code 0x42), and else arms it with its start instant:
that of `SLICE_T`, the next frame start, or, where the timer neither runs nor has a start accepted, the next multiple of 256 CT. An
armed slice starts at its instant, with its event. A stop bit stops a slice at once, but a started slice waits for the next entry while
the timer runs. The clock first moves to the instant of an event (log 2). Rules of the commands named: R123, R124, R125. -/
def Obligations.SlicesStartAndStop : Prop :=
  ∀ (s : State) (id : ReqId) (tx : Bool) (i : Fin 4) (v : Word), s.shaped = true →
    (s.ready (if tx then TXC.SLICE_CTRL else RXC.SLICE_CTRL) = true → bit v (4 + i.val) = false →
      ∃ t, exec (.sliceStart id tx v) s = .next t ∧ (t.slice tx i.val).phase =
        (if bit v i.val = true ∧ (s.slice tx i.val).phase = .stopped then .check (s.bt + 2458) else (s.slice tx i.val).phase)) ∧
    (∀ bt, (s.slice tx i.val).phase = .check bt → ∃ t, exec (.sliceCheckDone tx i) s = .next t ∧
      (s.bandFail tx i.val ≠ none →
        (t.slice tx i.val).phase = .stopped ∧ t.get (HDR.ERR_CODE_code (chainPage tx)) = 0x41) ∧
      (s.bandFail tx i.val = none →
        (s.flag (if tx then TXC.SLICE_CFG_at_time i.val else RXC.SLICE_CFG_at_time i.val) = true → s.sliceT tx < (s.atBt (bt : Int)).ct →
          (t.slice tx i.val).phase = .stopped ∧
          t.get (HDR.ERR_CODE_code (chainPage tx)) = (if Config.presetRomBad s.cnv.romChecks = true then 0x44 else 0x42)) ∧
        (s.flag (if tx then TXC.SLICE_CFG_at_time i.val else RXC.SLICE_CFG_at_time i.val) = true → (s.atBt (bt : Int)).ct ≤ s.sliceT tx →
          (t.slice tx i.val).phase = (if Config.presetRomBad s.cnv.romChecks = true then .stopped else .armed (some (s.sliceT tx))) ∧
          t.get (HDR.ERR_CODE_code (chainPage tx)) = (if Config.presetRomBad s.cnv.romChecks = true then 0x44 else s.get (HDR.ERR_CODE_code (chainPage tx))) ∧
          t.regs = (if Config.presetRomBad s.cnv.romChecks = true then t.regs else s.regs)) ∧
        (s.flag (if tx then TXC.SLICE_CFG_at_time i.val else RXC.SLICE_CFG_at_time i.val) = false →
          (t.slice tx i.val).phase = (if Config.presetRomBad s.cnv.romChecks = true then .stopped
            else .armed (if s.running = true ∨ s.timer.accepted ≠ none then none else some (((s.atBt (bt : Int)).ct + 255) / 256 * 256))) ∧
          t.get (HDR.ERR_CODE_code (chainPage tx)) = (if Config.presetRomBad s.cnv.romChecks = true then 0x44 else s.get (HDR.ERR_CODE_code (chainPage tx))) ∧
          t.regs = (if Config.presetRomBad s.cnv.romChecks = true then t.regs else s.regs)))) ∧
    (∀ ct, s.sliceInstant tx i.val = some ct → ∃ t, exec (.sliceStartInstant tx i) s = .next t ∧
      (t.slice tx i.val).phase = .started ct ∧ (t.rd (HDR.IRQ_PEND (chainPage tx))).getLsbD 1 = true) ∧
    (s.ready (if tx then TXC.SLICE_CTRL else RXC.SLICE_CTRL) = true → bit v i.val = false →
      ∃ t, exec (.sliceStop id tx v) s = .next t ∧
        (bit v (4 + i.val) = false → (t.slice tx i.val).phase = (s.slice tx i.val).phase) ∧
        (bit v (4 + i.val) = true → (s.slice tx i.val).isStarted = true → s.timer.running ≠ none →
          (t.slice tx i.val).stopNext = true ∧ (t.slice tx i.val).phase = (s.slice tx i.val).phase) ∧
        (bit v (4 + i.val) = true → ((s.slice tx i.val).isStarted = false ∨ s.timer.running = none) →
          (t.slice tx i.val).phase = .stopped))

/-- A write of `RXC.SLICE_CFG_i` while slice i is armed or started changes nothing but the error record of the RXC page, which holds
code 0x40, the address and its event. Rules of the commands named: R9. -/
def Obligations.SliceConfigurationHolds : Prop :=
  ∀ (s : State) (id : ReqId) (i : Fin 4) (v : Word), s.ready (RXC.SLICE_CFG i.val) = true → (s.slice false i.val).live = true →
    ∃ t, exec (.registerWrite (wrAcc id (RXC.SLICE_CFG i.val) v)) s = .next t ∧
      t.get (HDR.ERR_CODE_code RXC.base) = 0x40 ∧ t.get (HDR.ERR_ADDR_addr RXC.base) = RXC.SLICE_CFG i.val ∧
      (t.rd (HDR.IRQ_RAW RXC.base)).getLsbD 0 = true ∧ (∀ b, pageBase b ≠ RXC.base ∨ 0x40 ≤ b % 0x1000 → t.rd b = s.rd b) ∧
      t = { s.booked t with regs := t.regs }

/-- A sample of an ADC, of a path or of an observation receiver, enters its first decimator with the phase of its mixer: its code where
the converter runs, zero where it is gated or stopped; at full scale it is counted. The level monitors update from an entry's sums
unless they are held (log 60); the latched gain factors become active at the apply instant. Rules of the commands named: R14, R138,
R141. -/
def Obligations.ReceiveSamples : Prop :=
  (∀ (s : State) (p : Fin 64) (code : BitVec 12), s.shaped = true → s.adcSilent = false → s.cnvTick = true →
    (∃ t, exec (.adcSample (.path p) code) s = .next t ∧
      (t.rxPath p.val).dec.head? = some (if s.adcRuns p.val then 16 * code.toInt else 0,
        mixPhase (s.freq (STD.RX_CENTRE_LO (p.val / 8))) s.ct) ∧
      t.get (STD.OVR_COUNT_count (p.val / 8) (p.val % 8)) =
        (if s.adcRuns p.val = true ∧ (code = 0x7FF#12 ∨ code = 0x800#12) then
          min (s.get (STD.OVR_COUNT_count (p.val / 8) (p.val % 8)) + 1) 65535
        else s.get (STD.OVR_COUNT_count (p.val / 8) (p.val % 8)))) ∧
    ∀ st : Fin 8, ∃ t, exec (.adcSample (.obs st) code) s = .next t ∧
      (t.rx.obsDec.getD st.val []).head? = some (if s.obsRuns st.val then 16 * code.toInt else 0,
        mixPhase (s.freq (if s.get (STD.OBS_CTRL_follow st.val) = 1 then STD.TX_CENTRE_LO st.val else STD.OBS_CENTRE_LO st.val)) s.ct) ∧
      t.get (STD.OVR_COUNT_OBS_count st.val) =
        (if s.obsRuns st.val = true ∧ (code = 0x7FF#12 ∨ code = 0x800#12) then
          min (s.get (STD.OVR_COUNT_OBS_count st.val) + 1) 65535
        else s.get (STD.OVR_COUNT_OBS_count st.val))) ∧
  (∀ s : State,
    (∀ b, s.rx.lvlWait.find? s.measured = some b → ∃ t, exec .levelMonitorUpdate s = .next t ∧ (∀ x ∈ t.rx.lvlWait, b < x) ∧
      (s.get RXC.LVL_CTRL_hold = 1 → t.regs = s.regs) ∧
      (s.get RXC.LVL_CTRL_hold = 0 → (t.rd (HDR.IRQ_PEND RXC.base)).getLsbD 6 = true ∧
        ∀ p : Fin 64, ((s.rxPath p.val).wb.get b ⟨0, 0, 0⟩).n ≠ 0 →
          t.get (RXC.LVL_WB_PEAK_peak p.val) = ((s.rxPath p.val).wb.get b ⟨0, 0, 0⟩).peakWord % 65536 ∧
          t.get (RXC.LVL_WB_MEAN_mean p.val) = ((s.rxPath p.val).wb.get b ⟨0, 0, 0⟩).mean % 2 ^ 32)) ∧
    (∀ g, s.rx.gstep = some g → ∃ t, exec .gstepApply s = .next t ∧ t.rx.gstep = none ∧
      ((g.2.all fun x => decide (x.1 < 64)) = true → (g.2.map (·.1)).Nodup → ∀ x ∈ g.2,
        t.rd (RXC.GSTEP_ACT x.1) = x.2.1 ∧ t.get (RXC.GSTEP_SHIFT_act_shift x.1) = x.2.2 % 4)))

/-- Port counts, the joins and the modes of the beamformer are taken as written where no slice concerned is live and the units suffice,
and are refused with their code else. Its enable takes the fallback contexts of the registers; a disable is refused while a slice is
live. Rules of the commands named: R148, R151, R155, R171. -/
def Obligations.GroupConfiguration : Prop :=
  ∀ (s : State) (id : ReqId) (g : Fin 4) (v : Word),
    (s.ready (BFG.PORTS g.val) = true → ∃ t, exec (.portsWrite id g v) s = .next t ∧
      ((64 < bits v 0 7 ∨ 64 < bits v 16 7) →
        t.get (HDR.ERR_CODE_code (BFG.base g.val)) = 0x42 ∧ t.rd (BFG.PORTS g.val) = s.rd (BFG.PORTS g.val)) ∧
      (bits v 0 7 ≤ 64 → bits v 16 7 ≤ 64 → bits v 0 7 ≠ s.get (BFG.PORTS_rx g.val) → (s.slice false (s.sliceOf g.val)).live = true →
        t.get (HDR.ERR_CODE_code (BFG.base g.val)) = 0x40 ∧ t.rd (BFG.PORTS g.val) = s.rd (BFG.PORTS g.val)) ∧
      (bits v 0 7 ≤ 64 → bits v 16 7 ≤ 64 → bits v 16 7 ≠ s.get (BFG.PORTS_tx g.val) → (s.slice true (s.sliceOf g.val)).live = true →
        t.get (HDR.ERR_CODE_code (BFG.base g.val)) = 0x40 ∧ t.rd (BFG.PORTS g.val) = s.rd (BFG.PORTS g.val)) ∧
      (bits v 0 7 ≤ 64 → bits v 16 7 ≤ 64 → (s.slice false (s.sliceOf g.val)).live = false →
        (s.slice true (s.sliceOf g.val)).live = false →
        if ((s.set (BFG.PORTS_rx g.val) (bits v 0 7)).set (BFG.PORTS_tx g.val) (bits v 16 7)).budgetOk then
          t.get (BFG.PORTS_rx g.val) = bits v 0 7 ∧ t.get (BFG.PORTS_tx g.val) = bits v 16 7
        else t.get (HDR.ERR_CODE_code BF.base) = 7 ∧ t.rd (BFG.PORTS g.val) = s.rd (BFG.PORTS g.val))) ∧
    (s.ready BF.JOIN = true → ∃ t, exec (.joinWrite id v) s = .next t ∧
      ((bits v 0 1 ≠ s.get BF.JOIN_en_0 ∨ bits v 8 8 ≠ s.get BF.JOIN_delta_0) → (s.liveEither 0 = true ∨ s.liveEither 2 = true) →
        t.get (HDR.ERR_CODE_code BF.base) = 0x40 ∧ t.rd BF.JOIN = s.rd BF.JOIN) ∧
      ((bits v 1 1 ≠ s.get BF.JOIN_en_1 ∨ bits v 16 8 ≠ s.get BF.JOIN_delta_1) → (s.liveEither 1 = true ∨ s.liveEither 3 = true) →
        t.get (HDR.ERR_CODE_code BF.base) = 0x40 ∧ t.rd BF.JOIN = s.rd BF.JOIN) ∧
      (s.anyLive false = false → s.anyLive true = false → (160 ≤ bits v 8 8 ∨ 160 ≤ bits v 16 8) →
        t.get (HDR.ERR_CODE_code BF.base) = 0x42 ∧ t.rd BF.JOIN = s.rd BF.JOIN) ∧
      (s.anyLive false = false → s.anyLive true = false → bits v 8 8 < 160 → bits v 16 8 < 160 →
        if ((((s.set BF.JOIN_en_0 (bits v 0 1)).set BF.JOIN_en_1 (bits v 1 1)).set BF.JOIN_delta_0 (bits v 8 8)).set BF.JOIN_delta_1
          (bits v 16 8)).budgetOk = true then
          t.get BF.JOIN_en_0 = bits v 0 1 ∧ t.get BF.JOIN_en_1 = bits v 1 1 ∧ t.get BF.JOIN_delta_0 = bits v 8 8 ∧
            t.get BF.JOIN_delta_1 = bits v 16 8
        else t.get (HDR.ERR_CODE_code BF.base) = 7 ∧ t.rd BF.JOIN = s.rd BF.JOIN)) ∧
    (s.ready BF.MODE = true → ∃ t, exec (.bfModeWrite id v) s = .next t ∧
      (∀ c, s.antRefusal false (bit v 0) = some c →
        t.get (HDR.ERR_CODE_code BF.base) = c ∧ t.rd BF.MODE = s.rd BF.MODE) ∧
      (∀ c, s.antRefusal true (bit v 1) = some c → s.antRefusal false (bit v 0) = none →
        t.get (HDR.ERR_CODE_code BF.base) = c ∧ t.rd BF.MODE = s.rd BF.MODE) ∧
      (s.antRefusal false (bit v 0) = none → s.antRefusal true (bit v 1) = none →
        if (((s.set BF.MODE_ant_rx (bits v 0 1)).set BF.MODE_ant_tx (bits v 1 1)).set BF.MODE_fdd (bits v 2 1)).budgetOk = true then
          t.get BF.MODE_ant_rx = bits v 0 1 ∧ t.get BF.MODE_ant_tx = bits v 1 1 ∧ t.get BF.MODE_fdd = bits v 2 1
        else t.get (HDR.ERR_CODE_code BF.base) = 7 ∧ t.rd BF.MODE = s.rd BF.MODE)) ∧
    (s.shaped = true → s.ready (HDR.BLK_CTRL BF.base) = true → bit v 1 = false →
      ∃ t, exec (.bfEnableWrite id v) s = .next t ∧
        (bit v 0 = true → t.get (HDR.BLK_CTRL_enable BF.base) = 1 ∧
          (s.get (HDR.BLK_CTRL_enable BF.base) = 0 → ∀ k : Fin 8, (t.bf.fb.getD k.val ⟨0, []⟩).ctx = s.get (fbField k.val))) ∧
        (bit v 0 = false → s.anyLive false = false → s.anyLive true = false → t.get (HDR.BLK_CTRL_enable BF.base) = 0) ∧
        (bit v 0 = false → s.get (HDR.BLK_CTRL_enable BF.base) = 1 → (s.anyLive false = true ∨ s.anyLive true = true) →
          t.get (HDR.BLK_CTRL_enable BF.base) = 1 ∧ t.get (HDR.ERR_CODE_code BF.base) = 0x40))

/-- A weight word takes what is written and its context opens, unless the context is being sealed or is referenced; no other byte of
memory changes. A read answers the word; one that fails its check answers poisoned 0 and marks the row of a sealed context. An open,
unreferenced context starts to be sealed; the seal clears its marks, marks the rows that fail their check, and closes it with its event.
That a seal takes 16 BT and which contexts count as referenced is read by inference (log 59). Rules of the commands named: R153, R154,
R158. -/
def Obligations.WeightsAndSeals : Prop :=
  (∀ (s : State) (id : ReqId) (w : Fin 655360) (v : Word), s.shaped = true → s.ready (0x30000000 + 4 * w.val) = true →
    (∃ t, exec (.weightWrite id w v) s = .next t ∧
      (s.isSealing (w.val / 4096) = true → t.get (HDR.ERR_CODE_code BF.base) = 0x43 ∧ t.mem = s.mem ∧ t.bf = s.bf) ∧
      (∀ g, s.refGroup (w.val / 4096) = some g → s.isSealing (w.val / 4096) = false →
        t.get (HDR.ERR_CODE_code (BFG.base g)) = 9 ∧ t.mem = s.mem ∧ t.bf = s.bf) ∧
      (s.isSealing (w.val / 4096) = false → s.refGroup (w.val / 4096) = none →
        t.word (0x30000000 + 4 * w.val) = v ∧ (t.wctx (w.val / 4096)).isOpen = true ∧ t.regs = s.regs) ∧
      (∀ b, b < 0x30000000 + 4 * w.val ∨ 0x30000004 + 4 * w.val ≤ b → t.byte b = s.byte b)) ∧
    (s.parityBad (0x30000000 + 4 * w.val) = false → ∃ t, exec (.weightRead id w false) s = .next t ∧
      t.resp = ⟨(s.word (0x30000000 + 4 * w.val)).setWidth 64, false, false, false, false⟩ ∧ t.bf = s.bf) ∧
    (∃ t, exec (.weightRead id w true) s = .next t ∧ t.resp = ⟨0, false, false, false, true⟩ ∧ t.mem = s.mem ∧
      ((s.wctx (w.val / 4096)).isOpen = false → (t.wctx (w.val / 4096)).marks.getLsbD (w.val / 64 % 64) = true))) ∧
  (∀ (s : State) (id : ReqId) (v : Word), s.shaped = true →
    (s.ready BF.SEAL = true → ∃ t, exec (.contextSeal id v) s = .next t ∧
      (160 ≤ bits v 0 8 → t.get (HDR.ERR_CODE_code BF.base) = 0x42 ∧ t.bf = s.bf) ∧
      (bits v 0 8 < 160 → s.bf.sealing ≠ none → t.get (HDR.ERR_CODE_code BF.base) = 0x43 ∧ t.bf = s.bf) ∧
      (bits v 0 8 < 160 → s.bf.sealing = none → (s.wctx (bits v 0 8)).isOpen = false → t.bf = s.bf ∧ t.regs = s.regs) ∧
      (bits v 0 8 < 160 → s.bf.sealing = none → (s.wctx (bits v 0 8)).isOpen = true → s.refGroup (bits v 0 8) = none →
        t.bf.sealing = some (bits v 0 8, s.bt + 16) ∧ t.get BF.SEAL_STAT_busy = 1)) ∧
    (∀ x, s.bf.sealing = some x → x.1 < 160 → ∃ t, exec .sealComplete s = .next t ∧ t.bf.sealing = none ∧
      (t.wctx x.1).isOpen = false ∧ (∀ r : Fin 64, (t.wctx x.1).marks.getLsbD r.val = s.rowBad x.1 r.val) ∧
      t.get BF.SEAL_STAT_busy = 0 ∧ t.get BF.SEAL_STAT_x = x.1 ∧ (t.rd (HDR.IRQ_PEND BF.base)).getLsbD 4 = true ∧ t.mem = s.mem))

/-- A read of `RCMP` takes the oldest recompute request, or 0. A write of `FALLBACK` names sealed contexts for a group: in force at once
while the timer stands, and 16 BT later at an entry start while it runs (the 16 BT are read by inference, log 59); an open context and
one that does not exist are refused with codes 0x41 and 0x42. Rules of the commands named: R167, R168. -/
def Obligations.RecomputeAndFallback : Prop :=
  ∀ (s : State) (id : ReqId) (g : Fin 4) (v : Word), s.shaped = true →
    (s.ready BF.RCMP = true → ∃ t, exec (.rcmpPop id) s = .next t ∧ t.bf.rcmp = s.bf.rcmp.tail ∧
      t.resp = ⟨(s.bf.rcmp.headD 0).setWidth 64, false, false, false, false⟩ ∧ t.regs = s.regs) ∧
    (s.ready (BFG.FALLBACK g.val) = true → ∃ t, exec (.fallbackWrite id g v) s = .next t ∧
      (bits v 0 8 ≠ s.get (BFG.FALLBACK_rx g.val) → bits v 0 8 < 160 → (s.wctx (bits v 0 8)).isOpen = true →
        t.get (HDR.ERR_CODE_code (BFG.base g.val)) = 0x41 ∧ t.bf = s.bf ∧ t.rd (BFG.FALLBACK g.val) = s.rd (BFG.FALLBACK g.val)) ∧
      (bits v 0 8 < 160 → (s.wctx (bits v 0 8)).isOpen = false → bits v 8 8 = s.get (BFG.FALLBACK_tx g.val) →
        t.get (BFG.FALLBACK_rx g.val) = bits v 0 8 ∧ t.get (BFG.FALLBACK_tx g.val) = bits v 8 8 ∧
        (bits v 0 8 ≠ s.get (BFG.FALLBACK_rx g.val) → s.timer.running ≠ none →
          (t.bf.fbNew.getD (2 * g.val) none).map (fun p => (p.1, p.2.ctx)) = some (s.bt + 16, bits v 0 8)) ∧
        (bits v 0 8 ≠ s.get (BFG.FALLBACK_rx g.val) → s.timer.running = none →
          (t.bf.fb.getD (2 * g.val) ⟨0, []⟩).ctx = bits v 0 8)) ∧
      (bits v 0 8 ≠ s.get (BFG.FALLBACK_rx g.val) → 160 ≤ bits v 0 8 → bits v 8 8 = s.get (BFG.FALLBACK_tx g.val) →
        t.get (HDR.ERR_CODE_code (BFG.base g.val)) = 0x42 ∧ t.rd (BFG.FALLBACK g.val) = s.rd (BFG.FALLBACK g.val)) ∧
      (bits v 8 8 ≠ s.get (BFG.FALLBACK_tx g.val) → bits v 8 8 < 160 → (s.wctx (bits v 8 8)).isOpen = true →
        t.get (HDR.ERR_CODE_code (BFG.base g.val)) = 0x41 ∧ t.bf = s.bf ∧ t.rd (BFG.FALLBACK g.val) = s.rd (BFG.FALLBACK g.val)) ∧
      (bits v 8 8 ≠ s.get (BFG.FALLBACK_tx g.val) → bits v 8 8 < 160 → (s.wctx (bits v 8 8)).isOpen = false →
        bits v 0 8 = s.get (BFG.FALLBACK_rx g.val) →
        t.get (BFG.FALLBACK_rx g.val) = bits v 0 8 ∧ t.get (BFG.FALLBACK_tx g.val) = bits v 8 8 ∧
        (s.timer.running ≠ none → (t.bf.fbNew.getD (2 * g.val + 1) none).map (fun p => (p.1, p.2.ctx)) = some (s.bt + 16, bits v 8 8)) ∧
        (s.timer.running = none → (t.bf.fb.getD (2 * g.val + 1) ⟨0, []⟩).ctx = bits v 8 8)) ∧
      (bits v 8 8 ≠ s.get (BFG.FALLBACK_tx g.val) → 160 ≤ bits v 8 8 → bits v 0 8 = s.get (BFG.FALLBACK_rx g.val) →
        t.get (HDR.ERR_CODE_code (BFG.base g.val)) = 0x42 ∧ t.rd (BFG.FALLBACK g.val) = s.rd (BFG.FALLBACK g.val)))

/-- At a group's release start the symbol of the fetched entry comes into being with the flows that hold every packet; with all of them
complete and no failing word it is valid. A sample of an active run passes toward the DAC gate once the symbols that it needs are
released, and waits until then; with crest-factor reduction off the gate takes it with its release instant; after the run's last sample
the path comes to rest (log 66, log 99). A rate gate gives up its oldest sample and lowers the least slack; where the DAC is held by an
entry the sample goes nowhere; after a sample that was late in its symbol, and on a muted path, the code is mid-scale. A sample missing
at its instant in a scheduled symbol is counted and raises event bit 8, once per gate and symbol (log 46); a clear restores the count,
the record and the least slacks. Rules of the commands named: R15, R18, R23, R27, R192. -/
def Obligations.TransmitSamples : Prop :=
  (∀ (s : State) (g : Fin 4) (u : Option (Fin 640 × Nat)) (e : Entry), s.timer.fetched = some e → s.txCarries e g.val = true →
    s.hasTxSym e g.val = false →
    let w := (s.atCt (64 * e.startBt - s.txLatency g.val)).flowsLook
    ∃ t, exec (.txReleaseStart g u) s = .next t ∧ ∃ y, t.tx.syms.getLast? = some y ∧ y.g = g.val ∧ y.startBt = e.startBt ∧
      y.checked = false ∧
      y.flows = (w.enabledFlows.filter fun k => w.feeds (w.flow k) g.val).filter (fun k => w.flowComplete k (w.flow k) e.startBt
        (symSamples (w.entryEnd e - e.startBt) (w.sliceRate true (w.sliceOf g.val))) (w.sliceRate true (w.sliceOf g.val))) ∧
      (u = none → (y.cause = 0 ↔ y.flows = w.enabledFlows.filter fun k => w.feeds (w.flow k) g.val))) ∧
  (∀ (s : State) (p : Fin 64), s.shaped = true → (s.txPath p.val).active = true →
    (∀ e, s.timer.cur = some e → (s.txPath p.val).endN = none →
      let n := (s.txPath p.val).inN
      let ct := (s.txPath p.val).runCt + 4 * n
      64 * e.startBt ≤ ct →
      ((s.txEntryNow p.val ct).isSome = true → ∃ t, exec (.txSample p) s = .next t ∧ (t.txPath p.val).inN = n + 1 ∧
        (s.get TXC.CFR_CTRL_en = 0 → (s.txPath p.val).dropTo ≤ (s.txPath p.val).runCt + 4 * (s.txPath p.val).outN →
          (t.txPath p.val).gate.map (·.ct) =
            (s.txPath p.val).gate.map (·.ct) ++ [(s.txPath p.val).runCt + 4 * (s.txPath p.val).outN])) ∧
      (s.txEntryNow p.val ct = none → (∃ f, s.txEntryAt ct = .entry f) ∨ s.txEntryAt ct = .unknown →
        exec (.txSample p) s = .next s) ∧
      (s.txEntryNow p.val ct = none → s.txEntryAt ct = .none → ∃ t, exec (.txSample p) s = .next t ∧
        (t.txPath p.val).endN = some n ∧ (t.txPath p.val).inN = n + 1)) ∧
    (∀ n, (s.txPath p.val).endN = some n → n ≤ (s.txPath p.val).inN → n ≤ (s.txPath p.val).outN →
      ∃ t, exec (.txSample p) s = .next t ∧ (t.txPath p.val).active = false ∧ (t.txPath p.val).gate = (s.txPath p.val).gate)) ∧
  (∀ (s : State) (slack : Nat), s.shaped = true →
    (∀ (p : Fin 64) (g : GateSmp) (rest : List GateSmp), (s.txPath p.val).gate = g :: rest →
      ∃ t, exec (.rateGateRelease (.dac p) slack false) s = .next t ∧ (t.txPath p.val).gate = rest ∧
        (s.dacHeld p.val g.ct = true → (t.txPath p.val).dac = none ∧ t.get PWR.RG_SLACK_DAC_min = s.get PWR.RG_SLACK_DAC_min) ∧
        (s.dacHeld p.val g.ct = false → ((s.txPath p.val).deficit || (s.txPath p.val).lost || s.clockDown) = true →
          t.get PWR.RG_SLACK_DAC_min = s.get PWR.RG_SLACK_DAC_min ∧ t.dacOut p.val = 0x2000) ∧
        (s.dacHeld p.val g.ct = false → ((s.txPath p.val).deficit || (s.txPath p.val).lost || s.clockDown) = false →
          t.get PWR.RG_SLACK_DAC_min = min (s.get PWR.RG_SLACK_DAC_min) (min 65535 slack)) ∧
        (s.tx.muted.getLsbD p.val = true → (s.txPath p.val).ramp = none → t.dacOut p.val = 0x2000)) ∧
    (∀ c, s.cnv.play = some c →
      let u := s.atCt (s.calCt c c.k)
      let dead : Bool := u.calHeld || u.cnv.calLate || u.cnv.calLost || u.clockDown
      ∃ t, exec (.rateGateRelease .cal slack false) s = .next t ∧
        (∃ d, t.cnv.play = some d ∧ d.k = c.k + 1 ∧ d.hist.head? =
          some (if dead || d.bad.contains (c.k % c.len) then Cx.zero else Cx.ofWord (s.word (c.addr (c.k % c.len))))) ∧
        t.get PWR.RG_SLACK_DAC_min = (if dead then s.get PWR.RG_SLACK_DAC_min
          else min (s.get PWR.RG_SLACK_DAC_min) (min 65535 slack))) ∧
    (∀ (q : Fin 4) (b : Nat), s.gateHead q.val = some b →
      (∃ t, exec (.rateGateRelease (.port q) slack false) s = .next t ∧
        t.get PWR.RG_SLACK_PORT_min = (if (s.gateSym q.val b).late || (s.gateSym q.val b).lost || s.clockDown then
          s.get PWR.RG_SLACK_PORT_min else min (s.get PWR.RG_SLACK_PORT_min) (min 65535 slack))) ∧
      (∃ t, exec (.rateGateRelease (.port q) slack true) s = .next t ∧ (t.gateSym q.val b).lost = true ∧
        t.get PWR.RG_SLACK_PORT_min = s.get PWR.RG_SLACK_PORT_min ∧
        t.get MEM.DET_RG_COUNT_count = (if (s.gateSym q.val b).lost then s.get MEM.DET_RG_COUNT_count
          else min (s.get MEM.DET_RG_COUNT_count + 1) 65535)))) ∧
  (∀ (s : State) (id : ReqId) (v : Word) (p : Fin 64), s.shaped = true →
    ((s.clockDown = true ∨ s.dacHeld p.val s.ct = true) → exec (.rateDeficit (.dac p)) s = .next s) ∧
    (s.clockDown = false → s.dacHeld p.val s.ct = false → ∃ t, exec (.rateDeficit (.dac p)) s = .next t ∧
      ((s.txPath p.val).deficit = false → (t.txPath p.val).deficit = true ∧
        t.get PWR.RG_DEF_COUNT_count = min (s.get PWR.RG_DEF_COUNT_count + 1) 65535 ∧
        (t.rd (HDR.IRQ_PEND PWR.base)).getLsbD 8 = true ∧ t.get PWR.RG_SLACK_DAC_min = 0) ∧
      ((s.txPath p.val).deficit = true → t.regs = s.regs ∧ t.tx = s.tx)) ∧
    (∀ q : Fin 4, (s.clockDown = true ∨ s.gateMiss q.val = none) → exec (.rateDeficit (.port q)) s = .next s) ∧
    (∀ (q : Fin 4) (b : Nat), s.clockDown = false → s.gateMiss q.val = some b →
      ∃ t, exec (.rateDeficit (.port q)) s = .next t ∧ (t.gateSym q.val b).late = true ∧
        t.get PWR.RG_DEF_COUNT_count = min (s.get PWR.RG_DEF_COUNT_count + 1) 65535 ∧
        (t.rd (HDR.IRQ_PEND PWR.base)).getLsbD 8 = true ∧ t.get PWR.RG_SLACK_PORT_min = 0) ∧
    (s.ready PWR.RG_CTRL = true → bit v 0 = true → ∃ t, exec (.rgClear id v) s = .next t ∧ t.get PWR.RG_DEF_COUNT_count = 0 ∧
      t.get PWR.RG_DEF_LAST_valid = 0 ∧ t.get PWR.RG_SLACK_DAC_min = 65535 ∧ t.get PWR.RG_SLACK_PORT_min = 65535))

/-- A swap request of a path is refused for a marked bank, done at once with predistortion off, else held; it is held as pending, with
its target loaded, while a fade runs (log 43). A fade that ends makes its target the active bank, with its event; a pending request then
starts its own fade. A later request takes the place of a held one (log 67). Rules of the commands named: R206, R207, R208. -/
def Obligations.BankSwaps : Prop :=
  ∀ (s : State) (id : ReqId) (p : Fin 64) (v : Word), s.shaped = true →
    (s.ready (DPD.SWAP (p.val / 8)) = true → bit v (p.val % 8) = true →
      ∃ t, exec (.dpdSwapRequest id ⟨p.val / 8, by omega⟩ v) s = .next t ∧
        ((s.dpdPath p.val).marked (bits v 8 1) = true →
          t.dpdPath p.val = s.dpdPath p.val ∧ t.get (HDR.ERR_CODE_code (DPD.base (p.val / 8))) = 0x43) ∧
        ((s.dpdPath p.val).marked (bits v 8 1) = false → s.dpdOn = false → (t.dpdPath p.val).active = bits v 8 1 ∧
          (t.dpdPath p.val).fade = none) ∧
        ((s.dpdPath p.val).marked (bits v 8 1) = false → s.dpdOn = true → (s.dpdPath p.val).fade = none →
          (t.dpdPath p.val).held = some ⟨bits v 8 1, 16 * (bits v 16 8 + 1), false, s.ct + 1024, false⟩ ∧
          (t.dpdPath p.val).active = (s.dpdPath p.val).active) ∧
        ((s.dpdPath p.val).marked (bits v 8 1) = false → s.dpdOn = true → (s.dpdPath p.val).fade ≠ none →
          s.loadOk p.val (bits v 8 1) = true →
          (t.dpdPath p.val).held = some ⟨bits v 8 1, 16 * (bits v 16 8 + 1), true, s.ct + 1024, true⟩)) ∧
    (∀ f, (s.dpdPath p.val).fade = some f → (f.from_ ≠ none ∨ f.len ≤ f.k) →
      ∃ t, exec (.dpdFadeDone p) s = .next t ∧ (t.dpdPath p.val).active = f.target ∧
      (t.dpdPath p.val).fade = none ∧ (t.dpdPath p.val).ibyp = false ∧ (t.rd (HDR.IRQ_PEND (DPD.base (p.val / 8)))).getLsbD 1 = true) ∧
    (∀ h, (s.dpdPath p.val).held = some h → (s.dpdPath p.val).fade = none → h.pending = true →
      ∃ t, exec (.dpdPendingFadeStart p) s = .next t ∧ (t.dpdPath p.val).held = none ∧
        ((h.target ≠ (s.dpdPath p.val).active ∨ (s.dpdPath p.val).ibyp = true) →
          (t.dpdPath p.val).fade = some ⟨h.target, h.len, 0, if t.inRun then some t.ct else none⟩))

/-- The enable of predistortion is one field on eight pages: it is refused while a transmit slice is live, and where the terms exceed
what the level carries; clearing it ends every fade and request at its target. A term word of either structure takes its fields as
written unless its k is no power of the model or its structure is busy, and the counts are taken unless one exceeds the limit or changes
while its structure is busy. `THM_INIT` takes its value, and with its load bit the thermal state of the path takes it too (a path
without a stored state starts from it, log 67). A word of the bank store takes what is written and ends the mark of its bank, unless the
bank is busy; no other byte of memory changes. A read answers the word; one that fails its check answers poisoned 0 and marks the bank.
A read of `RELOAD` takes the oldest request. Rules of the commands named: R199, R202, R205, R209, R214, R215. -/
def Obligations.PredistortionStore : Prop :=
  (∀ (s : State) (id : ReqId) (st : Fin 8) (v : Word), s.shaped = true → s.ready (DPD.CTRL st.val) = true →
    ∃ t, exec (.dpdEnableWrite id st v) s = .next t ∧
      (bit v 0 = s.dpdOn → t.regs = s.regs ∧ t.dpd = s.dpd) ∧
      (bit v 0 ≠ s.dpdOn → s.anyLive true = true →
        t.get (HDR.ERR_CODE_code (DPD.base st.val)) = 0x40 ∧ t.dpdOn = s.dpdOn ∧ t.dpd = s.dpd) ∧
      (bit v 0 = false → s.dpdOn = true → s.anyLive true = false → (∀ k : Fin 8, t.get (DPD.CTRL_en k.val) = 0) ∧
        ∀ p : Fin 64, (t.dpdPath p.val).fade = none ∧ (t.dpdPath p.val).held = none ∧
          (∀ h, (s.dpdPath p.val).held = some h → (t.dpdPath p.val).active = h.target)) ∧
      (bit v 0 = true → s.dpdOn = false → s.anyLive true = false →
        (let u := (List.range 8).foldl (fun (x : State) k => x.setFlag (DPD.CTRL_en k) true) s
         if u.termsInUse ≤ termCap u.checkLevel then (∀ k : Fin 8, t.get (DPD.CTRL_en k.val) = 1)
         else t.dpdOn = false ∧ t.get (HDR.ERR_CODE_code (DPD.base st.val)) = 7))) ∧
  (∀ (s : State) (id : ReqId) (st : Fin 8) (n : Fin 40) (z : Fin 2) (v : Word), s.ready (DPD.CTRL st.val) = true →
    (let x := if z.val = 0 then DPD.TERM_A st.val n.val else DPD.TERM_B st.val n.val
      ∃ t, exec (.dpdTermsWrite id (BitVec.ofNat 32 x) v) s = .next t ∧
        ((bits v 8 4 = 0 ∨ 9 < bits v 8 4) → t.rd x = s.rd x ∧ t.get (HDR.ERR_CODE_code (DPD.base st.val)) = 0x42) ∧
        (1 ≤ bits v 8 4 → bits v 8 4 ≤ 9 → s.termsBusy st.val z.val = true →
          t.rd x = s.rd x ∧ t.get (HDR.ERR_CODE_code (DPD.base st.val)) = 0x41) ∧
        (1 ≤ bits v 8 4 → bits v 8 4 ≤ 9 → s.termsBusy st.val z.val = false →
          t.rd x = v &&& 0x1F77#32 ∧ ∀ a, a ≠ x → t.rd a = s.rd a)) ∧
    (let cap := min 40 (termCap s.checkLevel)
     ∃ t, exec (.dpdTermsWrite id (BitVec.ofNat 32 (DPD.TERMS st.val)) v) s = .next t ∧
      (1 ≤ bits v 0 6 → 1 ≤ bits v 16 6 → (cap < bits v 0 6 ∨ cap < bits v 16 6) →
        t.rd (DPD.TERMS st.val) = s.rd (DPD.TERMS st.val) ∧ t.get (HDR.ERR_CODE_code (DPD.base st.val)) = 7) ∧
      (1 ≤ bits v 0 6 → 1 ≤ bits v 16 6 → bits v 0 6 ≤ cap → bits v 16 6 ≤ cap →
        (bits v 0 6 ≠ s.get (DPD.TERMS_a st.val) ∧ s.termsBusy st.val 0 = true ∨
          bits v 16 6 ≠ s.get (DPD.TERMS_b st.val) ∧ s.termsBusy st.val 1 = true) →
        t.rd (DPD.TERMS st.val) = s.rd (DPD.TERMS st.val) ∧ t.get (HDR.ERR_CODE_code (DPD.base st.val)) = 0x41) ∧
      (1 ≤ bits v 0 6 → 1 ≤ bits v 16 6 → bits v 0 6 ≤ cap → bits v 16 6 ≤ cap → s.termsBusy st.val 0 = false →
        s.termsBusy st.val 1 = false → t.get (DPD.TERMS_a st.val) = bits v 0 6 ∧ t.get (DPD.TERMS_b st.val) = bits v 16 6 ∧
          ∀ a, a ≠ DPD.TERMS st.val → t.rd a = s.rd a))) ∧
  (∀ (s : State) (id : ReqId) (p : Fin 64) (v : Word), s.shaped = true → s.ready (DPD.THM_INIT (p.val / 8) (p.val % 8)) = true →
    ∃ t, exec (.thermalStateLoad id p v) s = .next t ∧ t.get (DPD.THM_INIT_init (p.val / 8) (p.val % 8)) = bits v 0 16 ∧
      (bit v 31 = true → t.thetaAt p.val s.ct = bits v 0 16 * 2 ^ 39) ∧ (bit v 31 = false → t.dpd = s.dpd)) ∧
  (∀ (s : State) (id : ReqId) (w : Fin 7680) (st : Fin 8) (v : Word), s.shaped = true →
    (s.ready (0x34000000 + 4 * w.val) = true →
      (∃ t, exec (.dpdBankWrite id w v) s = .next t ∧
        (s.bankBusy (w.val / 120) (w.val / 60 % 2) = true →
          t.get (HDR.ERR_CODE_code (DPD.base (w.val / 120 / 8))) = 0x41 ∧ t.mem = s.mem ∧ t.dpd = s.dpd) ∧
        (s.bankBusy (w.val / 120) (w.val / 60 % 2) = false → t.word (0x34000000 + 4 * w.val) = v ∧
          (t.dpdPath (w.val / 120)).marked (w.val / 60 % 2) = false ∧ t.regs = s.regs) ∧
        (∀ b, b < 0x34000000 + 4 * w.val ∨ 0x34000004 + 4 * w.val ≤ b → t.byte b = s.byte b)) ∧
      (s.parityBad (0x34000000 + 4 * w.val) = false → ∃ t, exec (.dpdBankRead id w false) s = .next t ∧
        t.resp = ⟨(s.word (0x34000000 + 4 * w.val)).setWidth 64, false, false, false, false⟩ ∧ t.dpd = s.dpd) ∧
      (∃ t, exec (.dpdBankRead id w true) s = .next t ∧ t.resp = ⟨0, false, false, false, true⟩ ∧ t.mem = s.mem ∧
        (t.dpdPath (w.val / 120)).marked (w.val / 60 % 2) = true)) ∧
    (s.ready (DPD.RELOAD st.val) = true → ∃ t, exec (.dpdReloadPop id st) s = .next t ∧
      t.reload.getD st.val [] = (s.reload.getD st.val []).tail ∧
      t.resp = ⟨((s.reload.getD st.val []).headD 0).setWidth 64, false, false, false, false⟩ ∧ t.regs = s.regs))

/-- The holder of claim 42 arms a capture, or starts one at the next BT boundary, where no check refuses it; while a capture runs the
registers are closed. The order of the refusals is read by inference (log 61). A capture ends with its status done and its event. A read
of the Landing answers the word; one that fails its check answers poisoned 0 and is counted and recorded. Rules of the commands named:
R221, R226. -/
def Obligations.Captures : Prop :=
  (∀ (s : State) (id : ReqId) (v : Word), s.ready LND.CAP_CTRL = true → s.holds id 42 = true →
    (bit v 0 = true → bit v 1 = false → bit v 2 = true → s.capture = none →
      (∀ c, ((((s.set LND.CAP_CTRL_mode (bits v 4 2)).set LND.CAP_CTRL_ref (bits v 6 2)).set LND.CAP_CTRL_line (bits v 8 4)).set
        LND.CAP_CTRL_en 1).capRefusal id = some c →
        ∃ t, exec (.captureArm id v) s = .next t ∧ t.capture = none ∧ t.get LND.CAP_CTRL_arm = s.get LND.CAP_CTRL_arm ∧
          t.get (HDR.ERR_CODE_code LND.base) = c) ∧
      (((((s.set LND.CAP_CTRL_mode (bits v 4 2)).set LND.CAP_CTRL_ref (bits v 6 2)).set LND.CAP_CTRL_line (bits v 8 4)).set
        LND.CAP_CTRL_en 1).capRefusal id = none →
        ∃ t, exec (.captureArm id v) s = .next t ∧ t.capture = none ∧ t.get LND.CAP_CTRL_arm = 1 ∧ t.get LND.CAP_CTRL_en = 1)) ∧
    (bit v 0 = true → bit v 1 = true → s.capture = none →
      ((((s.set LND.CAP_CTRL_mode (bits v 4 2)).set LND.CAP_CTRL_ref (bits v 6 2)).set LND.CAP_CTRL_line (bits v 8 4)).set
        LND.CAP_CTRL_en 1).capRefusal id = none →
      ∃ t, exec (.captureGo id v) s = .next t ∧ t.get LND.CAP_STAT_busy = 1 ∧ t.get LND.CAP_CTRL_arm = 0 ∧
        ∃ c, t.capture = some c ∧ c.t0 = 64 * (s.bt + 1) + 64 * s.get LND.CAP_DLY_delay ∧ c.len = s.get LND.CAP_LEN_len + 1 ∧
          c.mode = bits v 4 2 ∧ c.ref = bits v 6 2 ∧ c.base = 4096 * s.get LND.CAP_BASE_base) ∧
    (s.capture ≠ none → ∀ c ∈ ([.captureArm id v, .captureGo id v] : List Instr), ∃ t, exec c s = .next t ∧ t.capture = s.capture ∧
      t.get (HDR.ERR_CODE_code LND.base) = 0x40 ∧ t.rd LND.CAP_CTRL = s.rd LND.CAP_CTRL)) ∧
  (∀ (s : State) (id : ReqId) (w : Fin 2097152),
    (s.capture ≠ none → ∃ t, exec .captureDone s = .next t ∧ t.capture = none ∧ t.get LND.CAP_STAT_busy = 0 ∧
      t.get LND.CAP_STAT_done = 1 ∧ (t.rd (HDR.IRQ_PEND LND.base)).getLsbD 1 = true) ∧
    (s.ready (0x20000000 + 4 * w.val) = true →
      (s.parityBad (0x20000000 + 4 * w.val) = false → ∃ t, exec (.landingRead id w false) s = .next t ∧
        t.resp = ⟨(s.word (0x20000000 + 4 * w.val)).setWidth 64, false, false, false, false⟩ ∧ t.regs = s.regs) ∧
      (∃ t, exec (.landingRead id w true) s = .next t ∧ t.resp = ⟨0, false, false, false, true⟩ ∧ t.mem = s.mem ∧
        t.get LND.DET_COUNT_count = min (s.get LND.DET_COUNT_count + 1) 65535 ∧
        t.get LND.DET_ADDR_addr = 0x20000000 + 4 * w.val)))

/-- A bias target inside its window is taken, and releases the clamp of a resting safe-bank channel; one outside it, or on a channel in
fault, is refused. An AUX tick moves the code of a free channel toward its target by at most its step, once its interval has passed. A
span change starts where the channel accepts the mode and span, is refused with its code else, and after the clamp goes on at the rest
code of the new span. The clock first moves to the instant of an event (log 2). Rules of the commands named: R232, R233, R234. -/
def Obligations.BiasChannels : Prop :=
  (∀ (s : State) (id : ReqId) (j : Fin 96) (v : Word), s.ready (BIA.TARGET j.val) = true →
    ∃ t, exec (.biasTargetWrite id j v) s = .next t ∧
      (s.get (BIA.CODE_fault j.val) = 1 → t.get (HDR.ERR_CODE_code BIA.base) = 0x42 ∧
        t.get (BIA.TARGET_target j.val) = s.get (BIA.TARGET_target j.val)) ∧
      (s.get (BIA.CODE_fault j.val) = 0 → (bits v 0 16 < s.get (BIA.LIM_lo j.val) ∨ s.get (BIA.LIM_hi j.val) < bits v 0 16) →
        t.get (HDR.ERR_CODE_code BIA.base) = 0x41 ∧ t.get (BIA.TARGET_target j.val) = s.get (BIA.TARGET_target j.val)) ∧
      (s.get (BIA.CODE_fault j.val) = 0 → s.get (BIA.LIM_lo j.val) ≤ bits v 0 16 → bits v 0 16 ≤ s.get (BIA.LIM_hi j.val) →
        t.get (BIA.TARGET_target j.val) = bits v 0 16 ∧ t.get (BIA.CODE_code j.val) = s.get (BIA.CODE_code j.val) ∧
        (80 ≤ j.val → (s.biasCh j.val).change = none → t.get (BIA.CODE_clamp j.val) = 0))) ∧
  (∀ (s : State) (j : Fin 96), s.shaped = true → (s.pwr.sleep = .run ∨ s.pwr.sleep = .idle) → s.on 26 = true →
    s.get (BIA.CODE_fault j.val) = 0 → s.get (BIA.CODE_clamp j.val) = 0 → (s.biasCh j.val).change = none →
    ∃ t, exec .auxTickSlew s = .next t ∧ s.auxTick < t.auxTick ∧ t.mem = s.mem ∧
      (s.get (BIA.CODE_code j.val) = s.get (BIA.TARGET_target j.val) → t.get (BIA.CODE_code j.val) = s.get (BIA.CODE_code j.val)) ∧
      ((s.biasCh j.val).cnt < s.get (BIA.SLEW_ivl j.val) → t.get (BIA.CODE_code j.val) = s.get (BIA.CODE_code j.val)) ∧
      (s.get (BIA.SLEW_ivl j.val) ≤ (s.biasCh j.val).cnt →
        (s.get (BIA.CODE_code j.val) < s.get (BIA.TARGET_target j.val) → t.get (BIA.CODE_code j.val) =
          min (s.get (BIA.CODE_code j.val) + (s.get (BIA.SLEW_step j.val) + 1)) (s.get (BIA.TARGET_target j.val))) ∧
        (s.get (BIA.TARGET_target j.val) < s.get (BIA.CODE_code j.val) → t.get (BIA.CODE_code j.val) =
          max (s.get (BIA.CODE_code j.val) - (s.get (BIA.SLEW_step j.val) + 1)) (s.get (BIA.TARGET_target j.val))))) ∧
  (∀ (s : State) (id : ReqId) (j : Fin 96) (v : Word), s.shaped = true →
    (s.ready (BIA.CFG j.val) = true → ∃ t, exec (.spanChangeStart id j v) s = .next t ∧
      (s.get (BIA.CODE_fault j.val) = 1 → t.get (HDR.ERR_CODE_code BIA.base) = 0x42 ∧ t.bias = s.bias) ∧
      (s.get (BIA.CODE_fault j.val) = 0 → (s.biasCh j.val).change ≠ none →
        t.get (HDR.ERR_CODE_code BIA.base) = 0x40 ∧ t.bias = s.bias) ∧
      (s.get (BIA.CODE_fault j.val) = 0 → (s.biasCh j.val).change = none → s.spanOk j.val (bits v 0 1) (bits v 1 2) = false →
        t.get (HDR.ERR_CODE_code BIA.base) = 0x43 ∧ t.bias = s.bias) ∧
      (s.get (BIA.CODE_fault j.val) = 0 → (s.biasCh j.val).change = none → s.spanOk j.val (bits v 0 1) (bits v 1 2) = true →
        (bits v 0 1 ≠ s.get (BIA.CFG_mode j.val) ∨ bits v 1 2 ≠ s.get (BIA.CFG_span j.val)) →
        (t.biasCh j.val).change = some ⟨bits v 0 1, bits v 1 2, 1, 0⟩ ∧ t.get (BIA.CODE_changing j.val) = 1)) ∧
    (∀ x, (s.biasCh j.val).change = some x → x.stage = 4 → x.left = 0 → ∃ t, exec (.spanSettleExpiry j) s = .next t ∧
      t.get (BIA.CODE_clamp j.val) = 0 ∧ t.get (BIA.CODE_code j.val) = restCode j.val x.mode x.span ∧
      (restCode j.val x.mode x.span = s.get (BIA.TARGET_target j.val) →
        (t.biasCh j.val).change = none ∧ t.get (BIA.CODE_changing j.val) = 0) ∧
      (restCode j.val x.mode x.span ≠ s.get (BIA.TARGET_target j.val) → (t.biasCh j.val).change = some { x with stage := 6 })))

/-- A pass of the regular sequence starts at its first entry; a conversion gives its corrected result to the FIFO and the snapshot, and
an injected one begins at its due instant (served by due instant, then by number, log 69). The claim holder of a converter asks for its
calibration, which starts once the converter has nothing to do and ends with the factors that it measured and its event. Rules of the
commands named: R241, R243, R245, R248. -/
def Obligations.ScalerConverts : Prop :=
  (∀ (s : State) (x : Fin 2) (code : Int), s.shaped = true →
    (s.sclOn x.val = true → s.get (SCL.SEQ_CFG_run x.val) = 1 → s.get (SCL.SEQ_CFG_len x.val) ≠ 0 → (s.sclCh x.val).pos = none →
      (s.sclCh x.val).passT = 0 → ∃ t, exec (.scalerPassStart x) s = .next t ∧ (t.sclCh x.val).pos = some 0 ∧
        (t.sclCh x.val).pass = 0 ∧ (t.sclCh x.val).passT = s.ct + 1 ∧ t.regs = s.regs) ∧
    (∀ v, (s.sclCh x.val).conv = some v → (s.sclWhat x.val (s.sclCh x.val) v).1 < 60 →
      (s.sclWhat x.val (s.sclCh x.val) v).2.2.1 ≤ v.got + 1 → (s.sclCh x.val).fifo.length < 64 →
      ∃ t, exec (.scalerConversionDone x code) s = .next t ∧
        (t.sclCh x.val).fifo = (s.sclCh x.val).fifo ++ [t.rd (SCL.SNAP_LO x.val)] ∧
        t.rd (SCL.SNAP_LO x.val) = BitVec.ofNat 32 (
          (rhe (v.sum + s.sclCorrect x.val (s.sclWhat x.val (s.sclCh x.val) v).2.1 code : Nat)
            (s.sclWhat x.val (s.sclCh x.val) v).2.2.1).toNat +
          0x10000 * (s.sclWhat x.val (s.sclCh x.val) v).1 + 0x400000 * x.val + (if v.inj.isSome then 0x800000 else 0) +
          0x1000000 * ((s.sclWhat x.val (s.sclCh x.val) v).2.2.2 % 256))) ∧
    (∀ r, sclHead (s.sclCh x.val).queue = some r → (s.sclCh x.val).conv = none → (s.sclCh x.val).cal ≠ 2 → s.sclOn x.val = true →
      ∃ t, exec (.injectedDue x) s = .next t ∧ (t.sclCh x.val).conv.map (·.inj) = some (some r) ∧
        (t.sclCh x.val).queue = (s.sclCh x.val).queue.filter (· ≠ r))) ∧
  (∀ (s : State) (id : ReqId) (v : Word) (x : Fin 2) (r0 r1 : Word × Word), s.shaped = true →
    (s.ready SCL.CTRL = true → bit v (4 + x.val) = true → ∃ t, exec (.scalerCalRequest id v) s = .next t ∧
      (s.holds id (40 + x.val) = true → (s.sclCh x.val).cal = 0 → (t.sclCh x.val).cal = 1) ∧
      (s.holds id (40 + x.val) = false → (t.sclCh x.val).cal = (s.sclCh x.val).cal) ∧
      (s.holds id (40 + x.val) = true → (s.sclCh x.val).cal ≠ 0 → bit v (5 - x.val) = false →
        (t.sclCh x.val).cal = (s.sclCh x.val).cal ∧ t.get (HDR.ERR_CODE_code SCL.base) = 0x41)) ∧
    ((s.sclCh x.val).cal = 1 → (s.sclCh x.val).queue = [] → (s.sclCh x.val).conv = none →
      ∃ t, exec (.scalerCalStart x) s = .next t ∧ (t.sclCh x.val).cal = 2 ∧ (t.sclCh x.val).calEnd = max s.ct100 (s.sclCh x.val).idle + 1887436800 ∧
        t.regs = s.regs) ∧
    ((s.sclCh x.val).cal = 2 → ∃ t, exec (.scalerCalDone x r0 r1) s = .next t ∧ (t.sclCh x.val).cal = 0 ∧
      t.get (SCL.CAL_OFS_o (2 * x.val)) = bits r0.1 0 16 ∧ t.get (SCL.CAL_GAIN_g (2 * x.val)) = bits r0.2 0 16 ∧
      t.get (SCL.CAL_OFS_o (2 * x.val + 1)) = bits r1.1 0 16 ∧ t.get (SCL.CAL_GAIN_g (2 * x.val + 1)) = bits r1.2 0 16 ∧
      (t.rd (HDR.IRQ_PEND SCL.base)).getLsbD 4 = true))

/-- A comparator that trips latches the action of its source and counts it; a fall below a low limit of 0 is no trip. A level back
inside the window ends the condition and keeps the action. A clear ends a latched action whose condition is gone, and is refused with
code 0x40 for one whose condition is present. The level at the input comes with the event (log 65). Rules of the commands named: R250,
R252. -/
def Obligations.Protection : Prop :=
  ∀ (s : State) (id : ReqId) (v : Word) (m : Fin 16),
    (s.get (PRT.CMP_en m.val) = 1 → (s.pwr.sleep = .run ∨ s.pwr.sleep = .idle) → s.on 26 = true →
      (s.get PRT.TRIP_RAW_raw).testBit m.val = false →
      (∃ t, exec (.comparatorTrip m .above) s = .next t ∧ t.acting m.val = true ∧ (t.get PRT.TRIP_RAW_raw).testBit m.val = true ∧
        t.get (PRT.TRIP_COUNT_count m.val) = min (s.get (PRT.TRIP_COUNT_count m.val) + 1) 255) ∧
      (∃ t, exec (.comparatorTrip m .below) s = .next t ∧
        (s.get (PRT.CMP_lo m.val) = 0 → t.regs = s.regs) ∧
        (s.get (PRT.CMP_lo m.val) ≠ 0 → t.acting m.val = true ∧ (t.get PRT.TRIP_RAW_raw).testBit m.val = true))) ∧
    (∃ t, exec (.comparatorTrip m .inside) s = .next t ∧ (t.get PRT.TRIP_RAW_raw).testBit m.val = false ∧
      t.acting m.val = s.acting m.val) ∧
    (s.ready PRT.ACT_CLR = true → bit v m.val = true → s.acting m.val = true → ∃ t, exec (.protectionClear id v) s = .next t ∧
      (s.srcRaw m.val = false → t.acting m.val = false) ∧
      (s.srcRaw m.val = true → t.acting m.val = true ∧ t.get (HDR.ERR_CODE_code PRT.base) = 0x40))

/-- An update turns the counts of the 40 sites into readings by their fused calibration and stores them; with the cross-check off they
are reported as read, the device temperature is the largest of them and the alarm follows its threshold; one at the ceiling halts, and
none below it does. That the thresholds compare the reported values is read by inference (log 70). A thermal hold ends once 16 cool
windows are counted (log 70); a write of `HALT` ends a halt where every site reads cool, and is refused else with code 0x40; ones
written to `SUSPECT` clear their marks and counts. Rules of the commands named: R257, R261, R271, R272. -/
def Obligations.Temperatures : Prop :=
  (∀ (s : State) (n : List Nat), n.length = 40 → s.refclk = true → s.rst.held.contains 7 = false → s.rst.next ≠ some 0 →
    s.pwr.sleep = .run → s.thm.above < 156 → s.get THM.CTRL_xchk_en = 0 →
    let r := fun u : Nat => s.otp.reading u (n.getD u 0)
    ∃ t, exec (.thermalReadingUpdate n) s = .next t ∧ t.thm.n = s.thm.n + 1 ∧
      (∀ u : Fin 40, t.thmRaw u.val = r u.val ∧ t.thmRep u.val = r u.val ∧ r u.val ≤ r (t.get THM.MAX_site)) ∧
      signed (t.get THM.MAX_temp) 16 = r (t.get THM.MAX_site) ∧ t.get THM.MAX_site < 40 ∧
      (t.get THM.STAT_alarm = 1 ↔ signed (s.get THM.ALARM_TEMP_temp) 16 ≤ r (t.get THM.MAX_site)) ∧
      ((∃ u : Fin 40, s.thmCeil ≤ r u.val) → t.get THM.STAT_halt = 1) ∧
      ((∀ u : Fin 40, r u.val < s.thmCeil) → t.get THM.STAT_halt = s.get THM.STAT_halt)) ∧
  (∀ (s : State) (id : ReqId) (v : Word),
    (s.rst.held.contains 7 = true → 16 ≤ s.thm.under → ∃ t, exec .thermalHoldRelease s = .next t ∧ t.rst.held.contains 7 = false ∧
      t.regs = s.regs ∧ t.mem = s.mem) ∧
    (s.ready THM.HALT = true → bit v 0 = true → ∃ t, exec (.haltClear id v) s = .next t ∧
      ((∀ u : Fin 40, s.thmRep u.val < s.thmCeil - 80) → t.get THM.STAT_halt = 0) ∧
      ((∃ u : Fin 40, s.thmCeil - 80 ≤ s.thmRep u.val) → t.get THM.STAT_halt = s.get THM.STAT_halt ∧
        t.get (HDR.ERR_CODE_code THM.base) = 0x40)) ∧
    (s.shaped = true → s.ready THM.SUSPECT_LO = true → ∃ t, exec (.suspectClear id false v) s = .next t ∧
      t.rd THM.SUSPECT_LO = s.rd THM.SUSPECT_LO &&& ~~~v ∧ t.stage.find? id.toNat = none ∧
      (s.stage.find? id.toNat = none → t.rd THM.SUSPECT_HI = s.rd THM.SUSPECT_HI &&& ~~~(s.view THM.SUSPECT_HI)) ∧
      (∀ h, s.stage.find? id.toNat = some h → t.rd THM.SUSPECT_HI = s.rd THM.SUSPECT_HI &&& ~~~h) ∧
      (∀ u : Fin 32, bit v u.val = true → (s.rd THM.SUSPECT_LO).getLsbD u.val = true → t.thm.cnt.getD u.val 0 = 0)) ∧
    (s.ready THM.SUSPECT_HI = true → ∃ t, exec (.suspectClear id true v) s = .next t ∧ t.stage.find? id.toNat = some v ∧ t.regs = s.regs))

/-- Enabling a port trains it, unless a check refuses it: then the write is refused with its code and the port stays. Training ends in
Active where the lanes arrive in order, or reversed where that is allowed, and fails for any other order (log 104); one that takes too
long fails and is counted. A training sequence from the far end retrains a port. Each bit of `CTRL` alone, and what the far end sends,
moves a port as its state allows; a timed exit ends Quiet; a port that leaves Quiet while a lane supply is out of its window is lost to
a fault of its lanes (R504). Rules of the commands named: R278, R290, R292, R293, R294. -/
def Obligations.Ports : Prop :=
  (∀ (s : State) (id : ReqId) (q far : Fin 4) (order : List (Fin 16)) (v : Word),
    (s.ready (HDR.BLK_CTRL (PORT.base q.val)) = true → bit v 0 = true → s.portEn q.val = false →
      ∃ t, exec (.portEnable id q v) s = .next t ∧
        (s.portRefusal q.val = none → t.get (HDR.BLK_CTRL_enable (PORT.base q.val)) = 1 ∧ t.get (PORT.STAT_state q.val) = 1) ∧
        (∀ c, s.portRefusal q.val = some c → t.portEn q.val = false ∧ t.get (HDR.ERR_CODE_code (PORT.base q.val)) = c ∧
          t.get (PORT.STAT_state q.val) = s.get (PORT.STAT_state q.val))) ∧
    (s.get (PORT.STAT_state q.val) = 1 → s.on (22 + q.val) = true → s.pwr.railsOut = [] →
      let w := s.portWidth q.val
      let got := (List.range w).map fun p => (order.map (·.val)).getD p 0
      let rev := (List.range w).map fun p => w - 1 - p
      ∃ t, exec (.trainingComplete q order far) s = .next t ∧ t.get (PORT.STAT_far_q q.val) = far.val ∧
        ((got = List.range w ∨ got = rev ∧ s.get (PORT.CFG_allow_rev q.val) = 1) →
          t.get (PORT.STAT_state q.val) = 2 ∧ t.get (PORT.STAT_reversed q.val) = (if got = List.range w then 0 else 1) ∧
          t.get (PORT.RETRAIN_COUNT_done q.val) =
            min (s.get (PORT.RETRAIN_COUNT_done q.val) + 1) (2 ^ (PORT.RETRAIN_COUNT_done q.val).w - 1) ∧
          (t.rd (HDR.IRQ_PEND (PORT.base q.val))).getLsbD 1 = true) ∧
        (got ≠ List.range w → (got = rev → s.get (PORT.CFG_allow_rev q.val) = 0) →
          t.get (PORT.STAT_state q.val) = (if s.get (PORT.CFG_auto_retrain q.val) = 1 then 1 else 0) ∧
          t.get (PORT.RETRAIN_COUNT_fail q.val) =
            min (s.get (PORT.RETRAIN_COUNT_fail q.val) + 1) (2 ^ (PORT.RETRAIN_COUNT_fail q.val).w - 1))) ∧
    (s.get (PORT.STAT_state q.val) = 1 → ∃ t, exec (.trainingTimeout q) s = .next t ∧
      t.get (PORT.STAT_state q.val) = (if s.get (PORT.CFG_auto_retrain q.val) = 1 then 1 else 0) ∧
      t.get (PORT.RETRAIN_COUNT_fail q.val) =
        min (s.get (PORT.RETRAIN_COUNT_fail q.val) + 1) (2 ^ (PORT.RETRAIN_COUNT_fail q.val).w - 1)) ∧
    ((s.get (PORT.STAT_state q.val) = 2 ∨ s.get (PORT.STAT_state q.val) = 3) →
      ∃ t, exec (.trainingSequenceReceived q) s = .next t ∧ t.get (PORT.STAT_state q.val) = 1)) ∧
  (∀ (s : State) (id : ReqId) (q : Fin 4),
    (s.ready (PORT.CTRL q.val) = true →
      (s.portEn q.val = true → ∃ t, exec (.portRetrain id q 8) s = .next t ∧ t.get (PORT.STAT_state q.val) = 1) ∧
      (s.get (PORT.STAT_state q.val) = 2 → ∃ t, exec (.portQuiet id q 1) s = .next t ∧ t.get (PORT.STAT_state q.val) = 3) ∧
      (s.get (PORT.STAT_state q.val) = 3 → ∃ t, exec (.portActive id q 4) s = .next t ∧
        t.get (PORT.STAT_state q.val) = (if s.lanesOut = true then (if s.get (PORT.CFG_auto_retrain q.val) = 1 then 1 else 0) else 2)) ∧
      (s.get (PORT.STAT_state q.val) = 4 → ∃ t, exec (.portActive id q 4) s = .next t ∧ t.get (PORT.STAT_state q.val) = 1) ∧
      (s.get (PORT.STAT_state q.val) = 3 → ∃ t, exec (.portTimed id q 16) s = .next t ∧ t.get (PORT.STAT_state q.val) = 3 ∧
        t.get (PORT.STAT_timed_armed q.val) = 1) ∧
      (s.portEn q.val = true → ∃ t, exec (.portDeep id q 2) s = .next t ∧ t.get (PORT.STAT_state q.val) = 4)) ∧
    (s.get (PORT.STAT_state q.val) = 2 → ∃ t, exec (.quietNoticeReceived q) s = .next t ∧ t.get (PORT.STAT_state q.val) = 3 ∧
      (t.rd (HDR.IRQ_PEND (PORT.base q.val))).getLsbD 4 = true) ∧
    (s.get (PORT.STAT_state q.val) = 3 → s.get (PORT.STAT_timed_armed q.val) = 1 → ∃ t, exec (.portTimedExit q) s = .next t ∧
      t.get (PORT.STAT_state q.val) = (if s.lanesOut = true then (if s.get (PORT.CFG_auto_retrain q.val) = 1 then 1 else 0) else 2) ∧
      t.get (PORT.STAT_timed_armed q.val) = 0 ∧ t.mem = s.mem) ∧
    (s.get (PORT.STAT_state q.val) = 3 → s.pwr.sleep = .run → ∃ t, exec (.quietSignalDetect q) s = .next t ∧
      t.get (PORT.STAT_state q.val) = (if s.lanesOut = true then (if s.get (PORT.CFG_auto_retrain q.val) = 1 then 1 else 0) else 2) ∧
      (t.rd (HDR.IRQ_PEND (PORT.base q.val))).getLsbD 5 = true))

/-- Faults, received code groups and eye readings of a lane of an Active port: a code group outside the code, of the wrong disparity or
of a foreign control character is counted as a violation, and at the limit is a fault; the third comma aligns the lane; a fault takes
the port out of Active. The test engine of a port is enabled by the holder of its claim on free lanes and refused with its code else; an
error is injected on every generating lane; a checker that synchronises counts from zero (log 72), and counts and reports each error.
Rules of the commands named: R275, R288, R296, R297, R298. -/
def Obligations.LanesAndTests : Prop :=
  (∀ (s : State) (l : Fin 16) (q : Nat), s.shaped = true → s.laneOwner l.val = some q → s.get (PORT.STAT_state q) = 2 →
    (∀ cause : BitVec 3, 1 ≤ cause.toNat → cause.toNat ≤ 6 → (cause.toNat = 6 → s.get (LANE.VIOL_LIM_lim l.val) ≠ 0) →
      ∃ t, exec (.laneFault l cause) s = .next t ∧ t.get (LANE.STAT_cause l.val) = cause.toNat ∧
        t.get (LANE.FAULT_COUNT_count l.val) =
          min (s.get (LANE.FAULT_COUNT_count l.val) + 1) (2 ^ (LANE.FAULT_COUNT_count l.val).w - 1) ∧
        (t.get (PORT.STAT_fault_map q)).testBit l.val = true ∧
        t.get (PORT.STAT_state q) = (if s.get (PORT.CFG_auto_retrain q) = 1 then 1 else 0)) ∧
    (∀ (rd : Bool) (g : CodeGroup), g.bnd.val = (s.lst l.val).bnd →
      let x := if s.get (LANE.CFG_rx_inv l.val) = 1 then 1023 - g.bits.toNat else g.bits.toNat
      ∃ t, exec (.codeViolationInIdle l rd g) s = .next t ∧
        (isViolation rd x = true → t.get (LANE.VIOL_COUNT_count l.val) =
            min (s.get (LANE.VIOL_COUNT_count l.val) + 1) (2 ^ (LANE.VIOL_COUNT_count l.val).w - 1) ∧
          (s.get (LANE.VIOL_LIM_lim l.val) = 0 → t.get (PORT.STAT_state q) = 2) ∧
          (s.get (LANE.VIOL_LIM_lim l.val) = 1 →
            t.get (PORT.STAT_state q) = (if s.get (PORT.CFG_auto_retrain q) = 1 then 1 else 0))) ∧
        (isViolation rd x = false → t.get (PORT.STAT_state q) = 2 ∧ (∀ a, a ≠ LANE.STAT l.val → t.rd a = s.rd a) ∧
          (decode10 rd x = some k28_5 → t.get (LANE.STAT_comma l.val) =
            (if 2 ≤ (s.lst l.val).commas then 1 else s.get (LANE.STAT_comma l.val))))) ∧
    (∀ (rd : Bool) (g : CodeGroup), g.bnd.val ≠ (s.lst l.val).bnd →
      let x := if s.get (LANE.CFG_rx_inv l.val) = 1 then 1023 - g.bits.toNat else g.bits.toNat
      decode10 rd x = some k28_5 → ∃ t, exec (.codeViolationInIdle l rd g) s = .next t ∧ t.get (LANE.STAT_cause l.val) = 3 ∧
        t.get (LANE.FAULT_COUNT_count l.val) =
          min (s.get (LANE.FAULT_COUNT_count l.val) + 1) (2 ^ (LANE.FAULT_COUNT_count l.val).w - 1) ∧
        t.get (PORT.STAT_state q) = (if s.get (PORT.CFG_auto_retrain q) = 1 then 1 else 0)) ∧
    (∀ h : BitVec 10, ∃ t, exec (.eyeUpdate l h) s = .next t ∧ t.get (LANE.EYE_height l.val) = h.toNat ∧
      t.get (LANE.EYE_valid l.val) = 1 ∧ ∀ a, a ≠ LANE.EYE l.val → t.rd a = s.rd a)) ∧
  (∀ (s : State) (id : ReqId) (q : Fin 4), s.shaped = true →
    (s.ready (PORT.PRBS_CTRL q.val) = true →
      (∀ v : Word, bit v 0 = true → bit v 6 = false → s.get (PORT.PRBS_CTRL_en q.val) = 0 → ∃ t, exec (.prbsEnable id q v) s = .next t ∧
        (s.prbsLanesOk q.val (bit v 3) (s.get (PORT.PRBS_LANES_mask q.val)) = true → s.holds id (44 + q.val) = true →
          t.get (PORT.PRBS_CTRL_en q.val) = 1 ∧ t.get (PORT.PRBS_CTRL_mode q.val) = bits v 3 1 ∧ t.get (PORT.PRBS_STAT_sync q.val) = 0) ∧
        (s.prbsLanesOk q.val (bit v 3) (s.get (PORT.PRBS_LANES_mask q.val)) = true → s.holds id (44 + q.val) = false →
          t.get (PORT.PRBS_CTRL_en q.val) = 0 ∧ t.get (HDR.ERR_CODE_code (PORT.base q.val)) = 3) ∧
        (s.prbsLanesOk q.val (bit v 3) (s.get (PORT.PRBS_LANES_mask q.val)) = false →
          t.rd (PORT.PRBS_CTRL q.val) = s.rd (PORT.PRBS_CTRL q.val) ∧ t.get (HDR.ERR_CODE_code (PORT.base q.val)) = 0x43)) ∧
      (∀ v : Word, bits v 0 7 = 0x51 → s.get (PORT.PRBS_CTRL_en q.val) = 1 → s.holds id (44 + q.val) = true →
        s.prbsLanesOk q.val false (s.get (PORT.PRBS_LANES_mask q.val)) = true →
        ∃ t, exec (.prbsInject id q v) s = .next t ∧ ∀ l : Fin 16, (s.get (PORT.PRBS_LANES_mask q.val)).testBit l.val = true →
          (t.prbsLane q.val l.val).inj = (t.prbsLane q.val l.val).gen :: (s.prbsLane q.val l.val).inj)) ∧
    (∀ l : Fin 16, s.prbsChecker l.val = some q.val →
      ((s.get (PORT.PRBS_STAT_sync q.val)).testBit l.val = false → ∃ t, exec (.prbsSyncAcquired l) s = .next t ∧
        (t.get (PORT.PRBS_STAT_sync q.val)).testBit l.val = true ∧ (t.prbsLane q.val l.val).bits = 0) ∧
      ((s.get (PORT.PRBS_STAT_sync q.val)).testBit l.val = true → ∃ t, exec (.prbsBitError l) s = .next t ∧
        (t.prbsLane q.val l.val).err = min 0xFFFFFFFF ((s.prbsLane q.val l.val).err + 1) ∧
        (t.rd (HDR.IRQ_PEND (PORT.base q.val))).getLsbD 6 = true)))

/-- A command written with no earlier one running runs and completes within 2 us of its write; when is open, and its effect comes with
its completion, before the next access to a page (log 20, log 42). It first looks up its entry: one in use with a word that fails its
check is disabled and recorded. A flow entry is then allocated, enabled where nothing refuses it, disabled with its staged packets
ignored, freed with all its words zero, and its counts cleared; a refusal is logged and reported; the done event rises. A command
written while another runs has no effect but its log, code 0x47. A configuration word of a flow entry that is not enabled takes what is
written, without the bits that the device keeps; those of an enabled one are refused. A read answers the word; one that fails its check
answers poisoned 0, is recorded and disables the entry. Rules of the commands named: R9, R305, R309. -/
def Obligations.Flows : Prop :=
  ((∀ (s : State) (id : ReqId) (v : Word), s.ready PNL.FLOW_CMD = true → s.link.cmd = none →
    let runs := fun t : State => fun e : Nat => s.now ≤ e ∧ e ≤ s.now + usCt 2 ∧
      (s.now < e → t.link = { s.link with cmd := some (v, e) } ∧ t.mem = s.mem ∧ t.regs = s.regs) ∧
      (e = s.now → t.link = (s.flowRun v).link ∧ t.mem = (s.flowRun v).mem ∧ t.regs = (s.flowRun v).regs)
    (bits v 16 3 = 1 → ∃ (t : State) (e : Nat), exec (.flowAllocate id v) s = .next t ∧ runs t e) ∧
    (bits v 16 3 = 2 → ∃ (t : State) (e : Nat), exec (.flowEnable id v) s = .next t ∧ runs t e) ∧
    (bits v 16 3 = 3 → ∃ (t : State) (e : Nat), exec (.flowDisable id v) s = .next t ∧ runs t e) ∧
    (bits v 16 3 = 4 → ∃ (t : State) (e : Nat), exec (.flowFree id v) s = .next t ∧ runs t e) ∧
    (bits v 16 3 = 5 → ∃ (t : State) (e : Nat), exec (.flowClear id v) s = .next t ∧ runs t e) ∧
    ((bits v 16 3 = 0 ∨ 6 ≤ bits v 16 3) → ∃ t, exec (.flowClear id v) s = .next t ∧ t.link = s.link ∧ t.mem = s.mem ∧ t.regs = s.regs)) ∧
  (∀ (s : State) (id : ReqId) (v x : Word) (e : Nat), s.ready PNL.FLOW_CMD = true → s.link.cmd = some (x, e) → 1 ≤ bits v 16 3 →
    bits v 16 3 ≤ 5 → ∃ t, exec (.flowClear id v) s = .next t ∧ t.mem = s.mem ∧ t.link = s.link ∧
      t.get (HDR.ERR_CODE_code PNL.base) = 0x47) ∧
  (∀ (s : State) (v : Word) (e : Nat), s.link.cmd = some (v, e) → e ≤ s.now →
    s.flowSettle.link.cmd = none ∧ s.flowSettle.mem = (s.flowRun v).mem ∧ s.flowSettle.regs = (s.flowRun v).regs ∧
    (∀ (a : Access) (d : Nat), domOf a.addr.toNat = some d → sizeOk a.addr.toNat a.size a.write = true →
      s.flowSettle.ready a.addr.toNat = true → exec (.registerWrite a) s = .next (s.flowSettle.perform a))) ∧
  (∀ (s : State) (v : Word),
    let i := bits v 0 10
    (bits v 16 3 = 1 →
      ((∃ j, j < 640 ∧ s.link.alloc.contains j = false) → s.link.alloc.contains ((s.flowRun v).get PNL.FLOW_STAT_index) = false ∧
        (s.flowRun v).link.alloc.contains ((s.flowRun v).get PNL.FLOW_STAT_index) = true ∧ (s.flowRun v).get PNL.FLOW_STAT_ok = 1) ∧
      ((∀ j, j < 640 → s.link.alloc.contains j = true) → (s.flowRun v).link = s.link ∧ (s.flowRun v).get PNL.FLOW_STAT_ok = 0 ∧
        (s.flowRun v).get (HDR.ERR_CODE_code PNL.base) = 6)) ∧
    (bits v 16 3 = 2 → i < 640 → (s.flow i).en = false → (s.flowRun v).get PNL.FLOW_STAT_index = i ∧
      ((s.enableLooks i).flowRefusal i = none → ((s.flowRun v).flow i).en = true ∧ (s.flowRun v).link.alloc.contains i = true ∧
        (s.flowRun v).get PNL.FLOW_STAT_ok = 1) ∧
      (∀ c, (s.enableLooks i).flowRefusal i = some c → (s.flowRun v).mem = (s.enableLooks i).mem ∧
        (s.flowRun v).link = (s.enableLooks i).link ∧
        (s.flowRun v).get PNL.FLOW_STAT_ok = 0 ∧ (s.flowRun v).get (HDR.ERR_CODE_code PNL.base) = c)) ∧
    (bits v 16 3 = 3 → i < 640 →
      (s.link.alloc.contains i = true → ((s.flowLook i).flow i).en = true → ((s.flowRun v).flow i).en = false ∧
        (s.flowRun v).link.alloc = s.link.alloc ∧ (s.flowRun v).get PNL.FLOW_STAT_ok = 1 ∧
        ∀ x ∈ (s.flowRun v).staged, x.idx = i → x.off = true) ∧
      (((s.flowLook i).flow i).en = false → (s.flowRun v).mem = (s.flowLook i).mem ∧ (s.flowRun v).get PNL.FLOW_STAT_ok = 0)) ∧
    (bits v 16 3 = 4 → i < 640 →
      (s.link.alloc.contains i = true → ((s.flowLook i).flow i).en = false → (s.flowRun v).link.alloc.contains i = false ∧
        (∀ w, w < 8 → (s.flowRun v).word (flowAddr i w) = 0) ∧ (s.flowRun v).get PNL.FLOW_STAT_ok = 1) ∧
      (((s.flowLook i).flow i).en = true → (s.flowRun v).mem = s.mem ∧ (s.flowRun v).link = s.link ∧
        (s.flowRun v).get PNL.FLOW_STAT_ok = 0)) ∧
    (bits v 16 3 = 5 → i < 640 → (s.flowRun v).word (flowAddr i 6) = 0 ∧ (s.flowRun v).word (flowAddr i 7) = 0 ∧
      (s.flowRun v).link = (s.flowLook i).link ∧ (s.flowRun v).get PNL.FLOW_STAT_ok = 1 ∧
      ∀ b, b < flowAddr i 6 ∨ flowAddr i 8 ≤ b → (s.flowRun v).byte b = (s.flowLook i).byte b) ∧
    (∀ k, (s.link.alloc.contains k = true → s.flowBad k = false) → s.flowLook k = s) ∧
    (s.link.alloc.contains i = true → s.flowBad i = true → ((s.flowLook i).flow i).en = false ∧ ((s.flowLook i).flow i).bad = true ∧
      (s.flowLook i).get PNL.DET_ENTRY_index = i ∧ (s.flowLook i).get PNL.DET_ENTRY_valid = 1) ∧
    (1 ≤ bits v 16 3 → bits v 16 3 ≤ 5 → ((s.flowRun v).rd (HDR.IRQ_PEND PNL.base)).getLsbD 1 = true))) ∧
  (∀ (s : State) (id : ReqId) (w : Fin 5120) (v : Word), s.ready (0x38000000 + 4 * w.val) = true →
    (∃ t, exec (.flowTableWrite id w v) s = .next t ∧
      (w.val % 8 < 4 → (s.flow (w.val / 8)).en = true → t.mem = s.mem ∧ t.get (HDR.ERR_CODE_code PNL.base) = 0x40) ∧
      (w.val % 8 < 4 → (s.flow (w.val / 8)).en = false → t.regs = s.regs ∧
        t.word (0x38000000 + 4 * w.val) = (if w.val % 8 = 0 then v &&& 0x3FFFFFFF#32 else v)) ∧
      (5 ≤ w.val % 8 → t.mem = s.mem ∧ t.regs = s.regs) ∧
      (∀ b, b < 0x38000000 + 32 * (w.val / 8) ∨ 0x38000020 + 32 * (w.val / 8) ≤ b → t.byte b = s.byte b)) ∧
    (s.parityBad (0x38000000 + 4 * w.val) = false → ∃ t, exec (.flowTableRead id w false) s = .next t ∧
      t.resp = ⟨(s.word (0x38000000 + 4 * w.val)).setWidth 64, false, false, false, false⟩ ∧ t.mem = s.mem ∧ t.regs = s.regs) ∧
    (∃ t, exec (.flowTableRead id w true) s = .next t ∧ t.resp = ⟨0, false, false, false, true⟩ ∧ (t.flow (w.val / 8)).en = false ∧
      (t.flow (w.val / 8)).bad = true ∧ t.get PNL.DET_ENTRY_index = w.val / 8 ∧ t.get PNL.DET_ENTRY_valid = 1))

/-- A flow command that is over completes before a received packet is looked at (log 20). The packet does nothing on a port that carries
none. A bad header, no entry for it, no hop left, a bad end and a stale number are counted each by its count, and stage nothing; a TIME
packet is stamped; a sample packet that is neither early nor late, not there already and has room is staged with its decoded samples.
Which of several checks counts is read by inference (log 74). Rules of the commands named: R308. -/
def Obligations.PacketsReceived : Prop :=
  ∀ (s : State) (q : Fin 4) (b : List Byte) (e : List Nat),
    exec (.packetReceived q b e) s = exec (.packetReceived q b e) s.flowSettle ∧
    (s.flowIdle = true → s.portUp q.val = false → exec (.packetReceived q b e) s = .next s) ∧
    (s.flowIdle = true → s.portUp q.val = true →
      (headerOk b [] = false → ∃ t, exec (.packetReceived q b []) s = .next t ∧ t.get (PORT.HDR_ERR_COUNT_count q.val) =
        min (s.get (PORT.HDR_ERR_COUNT_count q.val) + 1) 65535 ∧ t.mem = s.mem ∧ t.staged = s.staged) ∧
      (headerOk b [] = true →
        (s.ingressFlow q.val (headerOf b) = none → ∃ t, exec (.packetReceived q b []) s = .next t ∧
          t.get (PORT.UNKNOWN_COUNT_count q.val) = min (s.get (PORT.UNKNOWN_COUNT_count q.val) + 1) 65535 ∧ t.mem = s.mem ∧
          t.staged = s.staged) ∧
        (∀ i, s.ingressFlow q.val (headerOf b) = some i → s.flowBad i = false →
          (255 ≤ (headerOf b).hop → ∃ t, exec (.packetReceived q b []) s = .next t ∧ t.get (PORT.HOP_DROP_COUNT_count q.val) =
            min (s.get (PORT.HOP_DROP_COUNT_count q.val) + 1) 65535 ∧ t.mem = s.mem ∧ t.staged = s.staged) ∧
          ((headerOf b).hop < 255 → (s.flow i).ty ≠ 0 → crcOk b [] = false → ∃ t, exec (.packetReceived q b []) s = .next t ∧
            t.get (PORT.CRC_ERR_COUNT_count q.val) = min (s.get (PORT.CRC_ERR_COUNT_count q.val) + 1) 65535 ∧ t.mem = s.mem ∧
            t.staged = s.staged) ∧
          ((headerOf b).hop < 255 → (s.flow i).ty ≠ 0 → crcOk b [] = true → s.seqOk i (headerOf b).seq = false →
            ∃ t, exec (.packetReceived q b []) s = .next t ∧ t.staged = s.staged ∧
              t.get (PORT.STALE_COUNT_count q.val) = min (s.get (PORT.STALE_COUNT_count q.val) + 1) 65535) ∧
          ((headerOf b).hop < 255 → crcOk b [] = true → s.seqOk i (headerOf b).seq = true →
            ((s.flow i).ty = 4 → (headerOf b).len = 8 → ∃ t, exec (.packetReceived q b []) s = .next t ∧
              t.rd64 (PORT.TIME_SENT_LO q.val) = beNat ((b.drop 16).take 8) % 2 ^ 64 ∧ t.rd64 (PORT.TIME_ARR_LO q.val) = s.ct ∧
              (t.rd (HDR.IRQ_PEND (PORT.base q.val))).getLsbD 8 = true ∧ bits (t.word (flowAddr i 4)) 0 17 = 65536 + (headerOf b).seq) ∧
            ((s.flow i).ty = 1 → (s.flow i).used = true → (headerOf b).len = (s.flow i).bytes →
              let u := s.setSeq i (headerOf b).seq true
              u.dueCt (s.flow i) (u.fullBt (headerOf b).symtime) - 64 * (s.flow i).win ≤ u.ct →
              (∀ x, u.lateCt (s.flow i) (u.fullBt (headerOf b).symtime) = some x → (u.ct : Int) < x) →
              (∀ x ∈ s.staged, ¬(x.idx = i ∧ x.symtime = (headerOf b).symtime)) → u.slotsUsed i < (s.flow i).slots →
              ∃ t, exec (.packetReceived q b []) s = .next t ∧ ∃ x, t.staged = s.staged ++ [x] ∧ x.idx = i ∧
                x.symtime = (headerOf b).symtime ∧ x.flags = (headerOf b).flags ∧
                x.smp = (decPayload (s.flow i).fmt (s.flow i).blocks (s.flow i).np (s.flow i).block
                  ((b.drop 16).take (headerOf b).len)).1)))))

/-- The head of a port's other packets is sent from the next free column with its flow's next number where it ends before the next
sample packet, or counted as dropped. An unscheduled packet is discarded and counted. A combine that finds no failing word makes one
packet for its flow and uses up the partial sums that it found (log 68). A challenge of a management session expires; a link reset that
was accepted starts a warm reset with its cause, and keeps device time and the fuses. The packet bytes of the last packet are kept (log
88). Rules of the commands named: R135, R319, R326, R327, R341. -/
def Obligations.PacketsSent : Prop :=
  (∀ (s : State), s.shaped = true →
    (∀ (q : Fin 4) (p : OutPkt) (rest : List OutPkt), s.flowIdle = true → s.nextSample q.val = none → s.link.out.getD q.val [] = p :: rest →
      (s.fitsGap q.val p.payload.length = true ∨ s.portUp q.val = false) →
      let x := s.slotSpan q.val false (slotFrom (s.colFrom q.val s.ct)) p.payload.length
      ∃ t, exec (.packetEgressReady q) s = .next t ∧ t.link.out.getD q.val [] = rest ∧
        (s.portUp q.val = true → t.rd64 (PORT.TX_PKT_LO q.val) = min (2 ^ 64 - 1) (s.rd64 (PORT.TX_PKT_LO q.val) + 1) ∧
          ∃ h, t.link.sent.getD q.val [] = packet h (if p.ty = 4 then beBytes 8 (s.colCt q.val (slotColumn (x.1 + 1))) else p.payload) ∧
            h.fid = p.fid ∧ h.ty = p.ty ∧ h.seq = p.seq.getD (bits (s.word (flowAddr p.idx 4)) 0 16) ∧
            ((p.ty = 4 → p.payload.length = 8) → (t.pst q.val).other = x.2)) ∧
        (s.portUp q.val = false → t.link.sent = s.link.sent ∧ t.get (PORT.QUIET_DROP_COUNT_count q.val) =
          min (s.get (PORT.QUIET_DROP_COUNT_count q.val) + 1) (2 ^ (PORT.QUIET_DROP_COUNT_count q.val).w - 1))) ∧
    (∀ x due, s.unscheduled = some (x, due) → ∃ t, exec .unscheduledDiscard s = .next t ∧
      t.staged = (s.staged.filter fun y => !(y.idx = x.idx && y.symtime = x.symtime)) ∧ t.mem = s.mem ∧
      t.get (PORT.UNSCHED_COUNT_count (ringPort s.reversedNow (s.flow x.idx).port)) =
        min (s.get (PORT.UNSCHED_COUNT_count (ringPort s.reversedNow (s.flow x.idx).port)) + 1) 65535) ∧
    (∀ (g : Fin 4) (due : Int) (i : Nat) (x : EgSym),
      earliest ((s.link.prog.filter fun y => y.cfg.g = g.val && s.role != 0).map fun y => (s.combineCt y, y.idx)) = some (due, i) →
      (s.link.prog.filter fun y => y.cfg.g = g.val && s.role != 0).find? (fun y => y.idx = i && s.combineCt y = due) = some x →
      s.flowIdle = true → (∀ k ∈ s.enabledFlows, s.flowBad k = false) →
      ∃ t, exec (.combineInstant g none) s = .next t ∧ t.mem = s.mem ∧
        t.staged = (s.staged.filter fun y => !(s.downPorts.filterMap fun q => s.partialSum x q).contains y) ∧
        ∃ p, t.link.sums = s.link.sums ++ [p] ∧ p.idx = x.idx ∧ p.fid = x.cfg.fid ∧ p.ty = x.cfg.ty ∧ p.fmt = x.cfg.fmt)) ∧
  (∀ s : State,
    (s.link.chal ≠ none → ∃ t, exec .mgmtChallengeExpiry s = .next t ∧ t.link.chal = none ∧ t.regs = s.regs ∧ t.mem = s.mem) ∧
    (∀ x, s.link.resetAt = some x → s.rst.optFault = false → ¬(s.rst.warm = false ∧ s.rst.next = some 0) →
      ∃ t, exec .linkResetStart s = .next t ∧ t.get ⟨RST.CAUSE, 5, 1⟩ = 1 ∧ t.rst.next = some 1 ∧ t.rst.warm = true ∧ t.pwr.domOn = 1 ∧
        t.now = max s.now x.2 ∧ (x.2 ≤ s.now → t.dev = s.dev) ∧ t.otp.sameOptions s.otp = true))

/-- A pair is enabled as a standby that drives nothing, with the whole mirror to be sent, and disabled; a miss limit of 0 and a change
of its settings while it is enabled are refused. The initial pass starts over on demand. On an active device a granule of the initial
pass, else the lowest dirty one, is sent and awaits its acknowledge; the one that waits longest is sent again; a granule dirty for too
long ends the sync with its event. Heartbeats keep their grid; a window without one is counted with its event, and by the set number a
standby with automatic takeover decides one (that it decides at equality, and the grid of the windows, are read by inference, log 76;
the order of the marks, log 77). Rules of the commands named: R348, R351, R353. -/
def Obligations.PairsAndMirrors : Prop :=
  (∀ (s : State) (id : ReqId) (v : Word),
    (s.ready PAR.CFG = true → ∃ t, exec (.pairEnable id v) s = .next t ∧
      (s.get PAR.CFG_en = 0 → bit v 0 = true → bits v 8 8 ≠ 0 → t.rd PAR.CFG = v &&& 0xFFFFFF07#32 ∧ t.get PAR.STAT_role = 1 ∧
        t.get PAR.STAT_tko = 0 ∧ t.get PAR.STAT_tki = s.get PAR.STAT_tki ∧ t.pair.mute = true ∧ t.pair.hiz = true ∧
        t.pair.pass = some 0) ∧
      (s.get PAR.CFG_en = 0 → bits v 8 8 = 0 → t.rd PAR.CFG = s.rd PAR.CFG ∧ t.get (HDR.ERR_CODE_code PAR.base) = 0x42) ∧
      (s.get PAR.CFG_en = 1 → bits v 8 8 ≠ s.get PAR.CFG_miss →
        t.rd PAR.CFG = s.rd PAR.CFG ∧ t.get (HDR.ERR_CODE_code PAR.base) = 0x40) ∧
      (s.get PAR.CFG_en = 1 → bit v 0 = false → s.rd PAR.CFG &&& 0xFFFFFF06#32 = v &&& 0xFFFFFF06#32 → bits v 8 8 ≠ 0 →
        t.get PAR.CFG_en = 0 ∧ t.get PAR.STAT_role = 0 ∧ t.pair.mute = false ∧ t.pair.hiz = false)) ∧
    (s.ready PAR.CTRL = true → bits v 0 3 = 4 → s.get PAR.CFG_en = 1 → ∃ t, exec (.pairResync id v) s = .next t ∧
      t.pair.pass = some 0 ∧ t.pair.unacked = [] ∧ t.get PAR.STAT_init_done = 0 ∧ t.get PAR.STAT_role = s.get PAR.STAT_role)) ∧
  (∀ (s : State),
    (s.mirrors = true →
      (∀ g, s.pair.pass = some g → ∃ t, exec .mirrorGranuleSend s = .next t ∧ t.pair.unacked.find? g = some t.now ∧
        t.pair.pass = (if g + 1 < s.granules then some (g + 1) else none)) ∧
      (∀ g at_ rest, s.pair.pass = none → s.pair.dirty = (g, at_) :: rest → ∃ t, exec .mirrorGranuleSend s = .next t ∧
        t.pair.dirty.find? g = none ∧ t.pair.unacked.find? g = some s.now) ∧
      (∀ g at_, s.oldestSent = some (g, at_) → ∃ t, exec .mirrorResendTimeout s = .next t ∧ at_ + usCt 100 ≤ t.now ∧
        t.pair.unacked.find? g = some t.now) ∧
      (s.oldestDirty ≠ none → s.get PAR.STAT_sync = 1 → ∃ t, exec .mirrorSyncLost s = .next t ∧ t.get PAR.STAT_sync = 0 ∧
        (t.rd (HDR.IRQ_PEND PAR.base)).getLsbD 1 = true ∧ t.pair = s.pair)) ∧
    (s.get PAR.CFG_en = 1 →
      (∃ t, exec .heartbeatSend s = .next t ∧ t.pair.hbTx = s.pair.hbTx + 12288) ∧
      (∀ b, s.pair.hbRx = some b → s.pair.hbWin ≤ b → ∃ t, exec .heartbeatMissed s = .next t ∧
        t.pair.hbWin = s.pair.hbWin + 12288 ∧ t.regs = s.regs) ∧
      (s.pair.hbRx = none → ∃ t, exec .heartbeatMissed s = .next t ∧ t.pair.hbWin = s.pair.hbWin + 12288 ∧
        t.get PAR.STAT_missed = min (s.get PAR.STAT_missed + 1) 255 ∧ (t.rd (HDR.IRQ_PEND PAR.base)).getLsbD 3 = true ∧
        t.get PAR.STAT_role = (if min (s.get PAR.STAT_missed + 1) 255 = s.get PAR.CFG_miss ∧ s.get PAR.STAT_role = 1 ∧
          s.get PAR.CFG_auto = 1 then 3 else s.get PAR.STAT_role))))

/-- A takeover is decided on demand by a standby alone; it waits for TKI low, then for its guard, then settles and is active. TKI that
does not fall in time and TKI that rises in the guard abort it, with the reason. An active device that yields, or sees TKI rise, becomes
standby and drives nothing. The clock first moves to the instant of an event (log 2). Rules of the commands named: R354, R355. -/
def Obligations.Takeover : Prop :=
  ∀ (s : State) (id : ReqId) (v : Word),
    (s.ready PAR.CTRL = true → bits v 0 3 = 1 → ∃ t, exec (.pairTake id v) s = .next t ∧
      (s.get PAR.STAT_role = 1 → t.get PAR.STAT_role = 3 ∧
        (s.get PAR.STAT_tki = 1 → t.pair.take = .waitLow s.now ∧ t.pair.peerRst = some s.now) ∧
        (s.get PAR.STAT_tki = 0 → t.pair.take = .guard s.now ∧ t.pair.peerRst = s.pair.peerRst)) ∧
      (s.get PAR.STAT_role ≠ 1 → t.get PAR.STAT_role = s.get PAR.STAT_role ∧ t.get (HDR.ERR_CODE_code PAR.base) = 0x41)) ∧
    (s.ready PAR.CTRL = true → bits v 0 3 = 2 → s.get PAR.STAT_role = 2 → ∃ t, exec (.pairYield id v) s = .next t ∧
      t.get PAR.STAT_role = 1 ∧ t.get PAR.STAT_tko = 0 ∧ t.pair.mute = true ∧ t.pair.hiz = true ∧
      (t.rd (HDR.IRQ_PEND PAR.base)).getLsbD 6 = true) ∧
    (∃ t, exec .takeoverTkiLow s = .next t ∧ t.get PAR.STAT_tki = 0 ∧ t.get PAR.STAT_role = s.get PAR.STAT_role ∧
      ∀ x, s.pair.take = .waitLow x → t.pair.take = .guard s.now) ∧
    (∀ x, s.pair.take = .waitLow x → ∃ t, exec .takeoverTkiTimeout s = .next t ∧ t.get PAR.STAT_role = 1 ∧ t.get PAR.STAT_abort = 1 ∧
      t.get PAR.COUNTS_abort = min (s.get PAR.COUNTS_abort + 1) 255 ∧ t.pair.take = .idle) ∧
    (∀ x, s.pair.take = .guard x → s.pair.image = [] → ∃ t, exec .takeoverGuardExpiry s = .next t ∧ t.get PAR.STAT_tko = 1 ∧
      t.pair.mute = true ∧ t.pair.hiz = false ∧ ∃ y, t.pair.take = .settle y ∧ x + usCt 20 ≤ y) ∧
    (∀ x, s.pair.take = .settle x → ∃ t, exec .takeoverSettleExpiry s = .next t ∧ t.get PAR.STAT_role = 2 ∧
      t.get PAR.COUNTS_tko = min (s.get PAR.COUNTS_tko + 1) 255 ∧ t.pair.take = .idle ∧ t.pair.mute = false ∧ t.pair.hiz = false) ∧
    (s.pair.peerRst ≠ none → ∃ t, exec .peerResetPulseEnd s = .next t ∧ t.pair.peerRst = none ∧ t.regs = s.regs) ∧
    (s.pwr.sleep = .run → ∃ t, exec .tkiRise s = .next t ∧ t.get PAR.STAT_tki = 1 ∧
      (s.get PAR.CFG_en = 1 → s.get PAR.STAT_role = 2 → t.get PAR.STAT_role = 1 ∧ t.get PAR.STAT_tko = 0) ∧
      (∀ x, s.get PAR.CFG_en = 1 → s.get PAR.STAT_role = 3 → s.pair.take = .guard x →
        t.get PAR.STAT_role = 1 ∧ t.get PAR.STAT_abort = 2 ∧ t.pair.take = .idle))

/-- A running core issues the bundle at its pc. An illegal one takes the exception of cause 1, with the pc in `EXC_PC`, or halts the
core in a handler. A bundle that raises nothing and accesses nothing leaves the registers that its slots give it; an immediate and a sum
land in their register; a branch takes effect after two delay slots; a store to its own data memory stores its word and no other byte.
The operand fields of a slot come with the command (log 26, log 52), and the order of several exceptions is read by inference (log 48).
Rules of the commands named: R365. -/
def Obligations.BundlesIssue : Prop :=
  ∀ (s : State) (c : Fin 8) (o : BundleOps), s.shaped = true → (s.core c.val).mode = .running → s.on (3 + c.val) = true →
    o.fetchUpset = none → s.upsets = [] → s.poison = [] → (s.core c.val).pc < 8192 → s.coreStalled c.val = false →
    ((s.core c.val).haltReq = false ∨ (s.core c.val).eligible = false) →
    let k := s.core c.val
    let w := s.load (bundleAddr c.val k.pc) 16
    (illegalBundle w o.l = true → k.drain.istBit 2 = false → ∃ t, exec (.bundleIssue c o) s = .next t ∧ t.get (CORE.EXC_cause c.val) = 1 ∧
      t.get (CORE.EXC_slot c.val) = illegalSlot w o.l ∧ (t.core c.val).istBit 8 = false ∧ t.get (CORE.EXC_pc c.val) = k.pc ∧
        (t.core c.val).pc = s.get (CORE.VEC_exc c.val) ∧ (t.core c.val).ipc = k.pc ∧
      (t.core c.val).istBit 2 = true ∧ (t.core c.val).istBit 0 = false ∧ (t.rd (HDR.IRQ_PEND (CORE.base c.val))).getLsbD 2 = true) ∧
    (illegalBundle w o.l = true → k.drain.istBit 2 = true → ∃ t, exec (.bundleIssue c o) s = .next t ∧ (t.core c.val).mode = .halted ∧
      t.get (CORE.STAT_double c.val) = 1 ∧ t.get (CORE.STAT_hpc c.val) = k.pc ∧ (t.core c.val).branch = none) ∧
    (opsMatch w o = true → issueExc k w o = none → k.remote = none → k.loaded = [] → k.haltReq = false →
      (o.l = .nop → o.s ≠ .halt → ∃ t, exec (.bundleIssue c o) s = .next t ∧ t.core c.val = k.issued w o [] ∧ t.regs = s.regs ∧
        t.mem = s.mem) ∧
      (∀ (d : Fin 64) (v : Word), o.m0 = .nop → o.m1 = .nop → o.l = .nop → o.s = .imm d v → slotRuns k (slotsOf w).2.2.2 = true →
        k.flights = [] → k.branch = none → k.lc = (0, 0) → bitsOf w 3 5 = 0 →
        ∃ t, exec (.bundleIssue c o) s = .next t ∧ (t.core c.val).rg d.val = v ∧ (t.core c.val).pc = (k.pc + 1) % 8192) ∧
      (∀ (d x y : Fin 64), o.m0 = .nop → o.m1 = .nop → o.l = .nop → o.s = .alu .add d x y → slotRuns k (slotsOf w).2.2.2 = true →
        (slotsOf w).2.2.2.sat = false → k.flights = [] → k.branch = none → k.lc = (0, 0) → bitsOf w 3 5 = 0 →
        ∃ t, exec (.bundleIssue c o) s = .next t ∧ (t.core c.val).rg d.val = k.rg x.val + k.rg y.val) ∧
      (∀ (tgt : BitVec 13), o.l = .nop → o.s = .branch tgt none → slotRuns k (slotsOf w).2.2.2 = true → k.lc = (0, 0) →
        ∃ t, exec (.bundleIssue c o) s = .next t ∧ (t.core c.val).branch = some (2, tgt.toNat) ∧ (t.core c.val).pc = (k.pc + 1) % 8192) ∧
      (∀ (m : MemOp) (x : Fin 64), o.l = .store m x → o.s = .nop → m.size = 4 → slotRuns k (slotsOf w).2.2.1 = true →
        ownDmem c.val (memAddr k m).1 = true → ∃ t, exec (.bundleIssue c o) s = .next t ∧ t.word (memAddr k m).1 = k.rg x.val ∧
          ∀ b, b < (memAddr k m).1 ∨ (memAddr k m).1 + 4 ≤ b → t.byte b = s.byte b))

/-- The response to a core's remote loads lets the bundle complete, or take the access error exception where it is enabled; the
acknowledge of its stores ends a fence; an enabled line ends a wait. An interrupt takes the lowest enabled pending line at an eligible
boundary and saves the pc and the interrupt enable; a non-maskable one enters whatever the enable is. What closes a boundary is read by
inference (log 49). Rules of the commands named: R361, R363, R383, R388. -/
def Obligations.CoresResume : Prop :=
  (∀ (s : State) (c : Fin 8), s.shaped = true →
    (∀ o, (s.core c.val).mode = .remote → (s.core c.val).remote = some o → (s.core c.val).haltReq = false → lStores o.l = [] →
      o.s ≠ .halt →
      let k := s.core c.val
      let w := s.load (bundleAddr c.val k.pc) 16
      let loads := if slotRuns k (slotsOf w).2.2.1 then lLoads o.l else []
      let r := s.coreLoads c.val k o.loadUpset loads k.loaded
      let d := loadResults k (loads.zip (r.2.filterMap id))
      r.1.core c.val = k →
      (r.2.any (·.isNone) = true → ∃ t, exec (.coreAccessResponse c) s = .next t ∧ t.stalled = s.stalled ∧
        t.core c.val = { k with mode := .remote, remote := some { o with loadUpset := none }, loaded := r.2 }) ∧
      (r.2.any (·.isNone) = false → d.2 = none → r.1.coreStalled c.val = false → ∃ t, exec (.coreAccessResponse c) s = .next t ∧
        t.core c.val = ({ k with mode := .running, remote := none, loaded := [] } : Core).issued w o d.1) ∧
      (∀ a, r.2.any (·.isNone) = false → d.2 = some a → s.get (CORE.CTRL_aerr_exc c.val) = 1 → k.drain.istBit 2 = false →
        ∃ t, exec (.coreAccessResponse c) s = .next t ∧ t.get (CORE.EXC_cause c.val) = 4 ∧
          t.get (CORE.EXC_ADDR_addr c.val) = a % 2 ^ 32 ∧ (t.core c.val).pc = r.1.get (CORE.VEC_exc c.val))) ∧
    (s.stalled = [] → (s.core c.val).haltReq = false → ∃ t, exec (.fenceComplete c) s = .next t ∧ (t.core c.val).stores = 0 ∧
      ((s.core c.val).mode = .fencing → (t.core c.val).mode = .running) ∧
      ((s.core c.val).mode ≠ .fencing → (t.core c.val).mode = (s.core c.val).mode) ∧ t.regs = s.regs ∧ t.mem = s.mem) ∧
    ((s.core c.val).mode = .waiting → s.coreStalled c.val = false → s.flowIdle = true →
      (s.lowestLine c.val = none → exec (.waitWake c) s = .next s) ∧
      (∀ n, s.lowestLine c.val = some n → ∃ t, exec (.waitWake c) s = .next t ∧ (t.core c.val).mode = .running ∧
        ((s.core c.val).istBit 0 = false → t.regs = s.regs ∧ (t.core c.val).pc = (s.core c.val).pc)))) ∧
  (∀ (s : State) (c : Fin 8), s.shaped = true → (s.core c.val).mode = .running → (s.core c.val).eligible = true →
    s.coreStalled c.val = false → s.flowIdle = true →
    (∀ n, (s.core c.val).istBit 0 = true → s.lowestLine c.val = some n → ∃ t, exec (.interruptEntry c) s = .next t ∧
      (t.core c.val).pc = s.get (CORE.VEC_irq c.val) ∧ (t.core c.val).ipc = (s.core c.val).pc % 8192 ∧
      (t.core c.val).istBit 0 = false ∧ (t.core c.val).istBit 1 = (s.core c.val).drain.istBit 0 ∧
      t.get (CORE.INT_ACT_line c.val) = n ∧ t.get (CORE.INT_ACT_valid c.val) = 1 ∧ t.mem = s.mem) ∧
    ((s.core c.val).istBit 0 = false → exec (.interruptEntry c) s = .next s) ∧
    ((s.core c.val).nmi = true → ∃ t, exec (.nmiEntry c) s = .next t ∧ (t.core c.val).pc = s.get (CORE.VEC_NMI_nmi c.val) ∧
      (t.core c.val).ipc = (s.core c.val).pc % 8192 ∧ (t.core c.val).istBit 0 = false ∧ (t.core c.val).istBit 8 = true ∧
      (t.core c.val).nmi = false ∧ t.regs = s.regs ∧ t.mem = s.mem))

/-- A doorbell latches the line of its writer, and one from elsewhere is refused. Run starts a halted core at its start pc once an image
is accepted; a halt request halts a core at its next eligible boundary, and not while an access of it stalls. The watchdog is kicked by
its key alone, and resets its core alone when it expires while the core is powered. The instruction memory of a core is written only
while the core is halted, a word at a time. Rules of the commands named: R360, R382, R393, R394. -/
def Obligations.CorePages : Prop :=
  ∀ (s : State) (id : ReqId) (c : Fin 8) (v : Word), s.shaped = true →
    (s.ready (CORE.DOORBELL c.val) = true → bit v 0 = true → ∃ t, exec (.doorbell id c v) s = .next t ∧
      (∀ n : Fin 8, id.toNat = 0x10 + n.val → (t.core c.val).latched = setBit (s.core c.val).latched (48 + n.val) true) ∧
      ((id.toNat = 1 ∨ id.toNat = 2 ∨ id.toNat = 0x30) → (t.core c.val).latched = setBit (s.core c.val).latched 63 true) ∧
      (0x40 ≤ id.toNat → t.cores = s.cores ∧ t.get (HDR.ERR_CODE_code (CORE.base c.val)) = 0x41)) ∧
    (s.ready (CORE.CTRL c.val) = true → bit v 0 = true → (s.core c.val).mode = .halted → ∃ t, exec (.coreRun id c v) s = .next t ∧
      t.get (CORE.CTRL_aerr_exc c.val) = bits v 1 1 ∧
      (s.get RST.BOOT_STAT_accepted = 1 → (t.core c.val).mode = .running ∧ (t.core c.val).pc = s.get (CORE.START_pc c.val)) ∧
      (s.get RST.BOOT_STAT_accepted = 0 → t.cores = s.cores ∧ t.get (HDR.ERR_CODE_code RST.base) = 0x43)) ∧
    (s.ready (CORE.CTRL c.val) = true → bit v 0 = false → (s.core c.val).mode = .running → ∃ t, exec (.coreHaltRequest id c v) s = .next t ∧
      ((s.core c.val).eligible = true → s.coreStalled c.val = false → (t.core c.val).mode = .halted ∧ t.get (CORE.STAT_hpc c.val) = (s.core c.val).pc % 8192) ∧
      (((s.core c.val).eligible = false ∨ s.coreStalled c.val = true) → t.core c.val = { s.core c.val with haltReq := true })) ∧
    (s.ready (CORE.WDOG_KICK c.val) = true → ∃ t, exec (.coreWatchdogKick id c v) s = .next t ∧
      (bits v 0 16 = 0x5A5A → (t.core c.val).wdog =
        (if s.get (CORE.WDOG_timeout c.val) = 0 then none else some (s.now + usCt (s.get (CORE.WDOG_timeout c.val))))) ∧
      (bits v 0 16 ≠ 0x5A5A → t.cores = s.cores ∧ t.get (HDR.ERR_CODE_code (CORE.base c.val)) = 0x41)) ∧
    (s.on (3 + c.val) = true → (s.core c.val).wdog ≠ none → ∃ t, exec (.coreWatchdogExpiry c) s = .next t ∧ t.core c.val = Core.reset ∧
      t.get (CORE.STAT_wdog c.val) = 1 ∧ (∀ d, d ≠ c.val → t.core d = s.core d) ∧ t.mem = s.mem) ∧
    (∀ w : Fin 32768, s.ready (0x08000000 + c.val * 0x100000 + 4 * w.val) = true → ∃ t, exec (.imemWrite id c w v) s = .next t ∧
      ((s.core c.val).mode = .halted → t.word (0x08000000 + c.val * 0x100000 + 4 * w.val) = v) ∧
      ((s.core c.val).mode ≠ .halted → t.mem = s.mem ∧ t.get (HDR.ERR_CODE_code (CORE.base c.val)) = 0x40) ∧
      (∀ b, b < 0x08000000 + c.val * 0x100000 + 4 * w.val ∨ 0x08000004 + c.val * 0x100000 + 4 * w.val ≤ b → t.byte b = s.byte b))

/-- While no image is accepted a write of `CORE c .CTRL.run` = 1 starts no core, leaves the bit and is logged by RST with code 0x43; a
word of the instruction memory of a halted core takes what is written, and no other byte changes. Rules of the commands named: R360,
R393. -/
def Obligations.CoresNeedAnImage : Prop :=
  ∀ (s : State) (id : ReqId) (c : Fin 8) (v : Word) (w : Fin 32768), s.shaped = true → s.get RST.BOOT_STAT_accepted = 0 →
    (s.core c.val).mode = .halted →
    (s.ready (CORE.CTRL c.val) = true → bit v 0 = true → ∃ t, exec (.coreRun id c v) s = .next t ∧ t.cores = s.cores ∧
      t.get (HDR.ERR_CODE_code RST.base) = 0x43 ∧ t.get (CORE.CTRL_run c.val) = s.get (CORE.CTRL_run c.val)) ∧
    (s.ready (0x08000000 + c.val * 0x100000 + 4 * w.val) = true → ∃ t, exec (.imemWrite id c w v) s = .next t ∧
      t.word (0x08000000 + c.val * 0x100000 + 4 * w.val) = v ∧
      (∀ b, b < 0x08000000 + c.val * 0x100000 + 4 * w.val ∨ 0x08000004 + c.val * 0x100000 + 4 * w.val ≤ b → t.byte b = s.byte b))

/-- A channel is enabled where its ring lies well and refused with code 0x42 else; a halted one is resumed; an abort halts it at once
between descriptors, ends a descriptor between bursts with status 0x14, and is kept for the end of the burst within one. `PROD` takes an
index that does not pass the ring, and refuses any other with code 0x41. Rules of the commands named: R402, R408, R409. -/
def Obligations.ChannelControl : Prop :=
  ∀ (s : State) (id : ReqId) (k : Fin 32) (v : Word), s.shaped = true →
    (s.ready (YCH.CTRL k.val) = true →
      (bits v 0 3 = 1 → s.get (YCH.CTRL_en k.val) = 0 → ∃ t, exec (.yarderEnable id k v) s = .next t ∧
        (s.ringOk k.val = true → t.get (YCH.CTRL_en k.val) = 1) ∧
        (s.ringOk k.val = false → t.get (YCH.CTRL_en k.val) = 0 ∧ t.get (HDR.ERR_CODE_code (YCH.base k.val)) = 0x42)) ∧
      (bits v 0 3 = 3 → s.get (YCH.CTRL_en k.val) = 1 → ∃ t, exec (.yarderResume id k v) s = .next t ∧
        t.chan k.val = { s.chan k.val with halted := false } ∧ t.regs = s.regs) ∧
      (bits v 0 3 = 5 → s.get (YCH.CTRL_en k.val) = 1 → ∃ t, exec (.yarderAbort id k v) s = .next t ∧
        ((s.chan k.val).desc = none → (t.chan k.val).halted = true ∧ ((s.chan k.val).halted = false →
          t.get (YCH.COUNTS_halt k.val) = min (s.get (YCH.COUNTS_halt k.val) + 1) 255)) ∧
        ((s.chan k.val).desc ≠ none → (s.chan k.val).left = 0 → (t.chan k.val).desc = none ∧ (t.chan k.val).halted = true ∧
          t.get (YCH.STAT_status k.val) = 0x14) ∧
        ((s.chan k.val).desc ≠ none → (s.chan k.val).left ≠ 0 → t.chan k.val = { s.chan k.val with abort := true } ∧ t.mem = s.mem))) ∧
    (s.ready (YCH.PROD k.val) = true → ∃ t, exec (.yarderProdWrite id k v) s = .next t ∧
      (let now := outstanding (bits v 0 16) (bits v 16 1) (s.get (YCH.CONS_idx k.val)) (s.get (YCH.CONS_wrap k.val)) (s.ringSize k.val)
       (bits v 0 16 < s.ringSize k.val → s.ringUsed k.val ≤ now → now ≤ s.ringSize k.val →
         t.get (YCH.PROD_idx k.val) = bits v 0 16 ∧ t.get (YCH.PROD_wrap k.val) = bits v 16 1) ∧
       ((s.ringSize k.val ≤ bits v 0 16 ∨ now < s.ringUsed k.val ∨ (s.ringSize k.val : Int) < now) →
         t.rd (YCH.PROD k.val) = s.rd (YCH.PROD k.val) ∧ t.get (HDR.ERR_CODE_code (YCH.base k.val)) = 0x41)))

/-- A fetch wakes the domain of the ring first, or ends with status 0x11 where that is not allowed or the ring is fenced. A fetched
descriptor is in progress, or ends with its status where it is poisoned (0x12), not well formed (0x10) or in a domain that may not be
woken (0x11), and halts its channel. The winning channel starts a burst. A beat moves one word from source to destination, counts it,
and changes no other byte of memory (a beat is one step, log 54). Rules of the commands named: R396, R399, R406. -/
def Obligations.ChannelWork : Prop :=
  ∀ (s : State) (k : Fin 32), s.shaped = true →
    (s.get (YCH.CTRL_en k.val) = 1 → (s.chan k.val).halted = false → (s.chan k.val).paused = false → (s.chan k.val).desc = none →
      0 < s.ringUsed k.val → s.yarderUp = true →
      let a := s.descAddr k.val
      let r := (s.setChan k.val { s.chan k.val with refs := domMask a }).descWords k.val
      let d := descOf r.2.1
      (domMask a &&& ~~~s.pwr.domOn ≠ 0 → ∃ t, exec (.descriptorFetch k) s = .next t ∧ t.mem = s.mem ∧ (t.chan k.val).desc = none ∧
        (s.wakeOk a ((domOf a).getD 2) = true → (t.chan k.val).refs = domMask a) ∧
        (s.wakeOk a ((domOf a).getD 2) = true → ∀ x : Fin 27, (domMask a).getLsbD x.val = true → s.on x.val = false →
          t.pwr.domWaking.getLsbD x.val = true) ∧
        (s.wakeOk a ((domOf a).getD 2) = false → t.get (YCH.STAT_status k.val) = 0x11 ∧ (t.chan k.val).halted = true)) ∧
      (domMask a &&& ~~~s.pwr.domOn = 0 → ∃ t, exec (.descriptorFetch k) s = .next t ∧
        (r.2.2.2 = true → t.get (YCH.STAT_status k.val) = 0x11 ∧ (t.chan k.val).halted = true ∧ (t.chan k.val).desc = none) ∧
        (r.2.2.2 = false → r.2.2.1 = true → t.get (YCH.STAT_status k.val) = 0x12 ∧ (t.chan k.val).halted = true ∧
          (t.chan k.val).desc = none) ∧
        (r.2.2.2 = false → r.2.2.1 = false → r.1.descBad k.val d (r.2.1.getD 3 0) = true →
          t.get (YCH.STAT_status k.val) = 0x10 ∧ (t.chan k.val).halted = true ∧ (t.chan k.val).desc = none) ∧
        (r.2.2.2 = false → r.2.2.1 = false → r.1.descBad k.val d (r.2.1.getD 3 0) = false →
          (∀ x ∈ d.places, r.1.on x.2 = true ∨ r.1.wakeOk x.1 x.2 = true) →
          (t.chan k.val).desc = some d ∧ 0 < d.burst ∧ (t.chan k.val).done = 0 ∧ t.get (YCH.POS_bytes k.val) = 0 ∧ t.mem = r.1.mem) ∧
        (r.2.2.2 = false → r.2.2.1 = false → r.1.descBad k.val d (r.2.1.getD 3 0) = false →
          (∃ x ∈ d.places, r.1.on x.2 = false ∧ r.1.wakeOk x.1 x.2 = false) →
          t.get (YCH.STAT_status k.val) = 0x11 ∧ (t.chan k.val).halted = true ∧ (t.chan k.val).desc = none)) ∧
      (s.ready a = true → s.fenced a = true → memAt a = some .cmem → r.2.2.2 = true)) ∧
    (s.winner = some k.val → (s.chan k.val).left = 0 → s.flowIdle = true → (∀ i ∈ s.enabledFlows, s.flowBad i = false) →
      ∃ t, exec (.yarderBurstStart k) s = .next t ∧
      (t.chan k.val).left = (s.chan k.val).nextBurst ∧ t.yLast = s.yLast.set (s.get (YCH.CFG_prio k.val)) k.val ∧ t.regs = s.regs ∧ t.mem = s.mem) ∧
    (∀ d, s.winner = some k.val → (s.chan k.val).desc = some d → 0 < d.burst → d.srcReq = false → d.dstReq = false →
      memAt d.src = some .cmem → memAt d.dst = some .cmem → d.src % 4 = 0 → d.dst % 4 = 0 → s.fenced d.src = false →
      s.fenced d.dst = false → s.ready d.src = true → 1 < (s.chan k.val).remaining → (s.chan k.val).abort = false →
      (s.chan k.val).withdrawn = false → (∀ i ∈ s.enabledFlows, s.flowBad i = false) →
      ∃ t, exec .yarderBeat s = .next t ∧ t.get YRD.ACTIVE_k = k.val ∧
        (1 < (s.chan k.val).left → (t.chan k.val).left = (s.chan k.val).left - 1 ∧ (t.chan k.val).done = (s.chan k.val).done ∧
          (t.chan k.val).stage = (s.chan k.val).stage ++ [(s.word d.src, t.poisoned d.src)] ∧ t.mem = s.mem) ∧
        ((s.chan k.val).left = 1 → (s.chan k.val).stage = [] → (t.chan k.val).left = 0 ∧ (t.chan k.val).stage = [] ∧
          t.word d.dst = s.word d.src ∧ (t.chan k.val).done = (s.chan k.val).done + 1 ∧
          (t.chan k.val).moved = (s.chan k.val).moved + 4 ∧ (∀ b, b < d.dst ∨ d.dst + 4 ≤ b → t.byte b = s.byte b)))

/-- A read of a SECDED word that finds one bit wrong answers the right data, corrects the word and counts it; one that finds more
answers the data poisoned, or an error for the requesters that cannot take poison, and marks and counts the word. Words are checked in
units of 64 bits (log 86). The Cruiser reads the word at which it stands, one interval after the last, and goes on; a paused one does
nothing. Rules of the commands named: R415, R422. -/
def Obligations.MemoryUpsets : Prop :=
  (∀ (s : State) (a : Access) (m : MemKind) (i : Nat), memAt a.addr.toNat = some m → secdedIndex m = some i → a.write = false →
    sizeOk a.addr.toNat a.size false = true → s.ready a.addr.toNat = true → s.fenced a.addr.toNat = false →
    s.poisoned a.addr.toNat = false →
    s.upsets.find? (a.addr.toNat - a.addr.toNat % 8) = none →
    (∀ b : Fin 72, ∃ t, exec (.memoryAccess a (some (.flip b.val))) s = .next t ∧
      t.resp = ⟨BitVec.ofNat 64 (s.load a.addr.toNat a.size), false, false, false, false⟩ ∧ t.mem = s.mem ∧
      t.upsets.find? (a.addr.toNat - a.addr.toNat % 8) = none ∧
      t.get (MEM.CORR_COUNT_count i) = min (s.get (MEM.CORR_COUNT_count i) + 1) 65535 ∧ t.get (MEM.CORR_COUNT_bit i) = b.val) ∧
    (∃ t, exec (.memoryAccess a (some .multi)) s = .next t ∧ t.poisoned a.addr.toNat = true ∧ t.mem = s.mem ∧
      t.get (MEM.UNC_COUNT_count i) = min (s.get (MEM.UNC_COUNT_count i) + 1) 65535 ∧
      ((a.id = 1 ∨ a.id = 2) → t.resp.error = true ∧ t.get (HDR.ERR_CODE_code MEM.base) = 0x42) ∧
      (a.id ≠ 1 → a.id ≠ 2 → t.resp = ⟨BitVec.ofNat 64 (s.load a.addr.toNat a.size), false, false, true, false⟩))) ∧
  (∀ (s : State) (u : Option Upset),
    (s.cruStill = true → exec (.cruiserStep u) s = .next s) ∧
    (∀ mask n a0 n' a, s.cruStill = false → s.cru.walk = some (mask, n, a0) → s.cruAt mask n a0 = some (n', a) → a % 8 = 0 →
      ∃ t, exec (.cruiserStep u) s = .next t ∧ s.cru.last + cruCt (s.get MEM.CRU_CTRL_ivl + 1) ≤ t.now ∧ t.cru.last = t.now ∧
        (∀ m i, memAt a = some m → secdedIndex m = some i → s.poisoned a = false → u = some .multi →
          t.mem = s.mem ∧ t.poisoned a = true ∧ t.get (MEM.UNC_COUNT_count i) = min (s.get (MEM.UNC_COUNT_count i) + 1) 65535) ∧
        (s.cruAt mask n' (a + 8) = some (n', a + 8) → u = none → s.upsets = [] →
          t.mem = s.mem ∧ t.cru.walk = some (mask, n', a + 8) ∧ t.rd MEM.CRU_STAT = BitVec.ofNat 32 (a + 8))))

/-- A level change is taken up and the supply is stepped to its code; one below what the configuration needs, and one during a prepare,
is refused. VID steps one code at a time (log 79). VOK ends the change, or its absence turns it back with its error and event; VOK that
falls outside a change is reported. Rules of the commands named: R434, R435, R436. -/
def Obligations.LevelChanges : Prop :=
  ∀ (s : State) (id : ReqId) (v : Word),
    (s.ready PWR.PL_CTRL = true → ∃ t, exec (.levelChangeRequest id v) s = .next t ∧
      (s.pwr.hand ≠ none → t.get PWR.PL_CTRL_target = s.get PWR.PL_CTRL_target ∧ t.get (HDR.ERR_CODE_code PWR.base) = 0x40) ∧
      (s.pwr.hand = none → bits v 0 2 < s.needLevel → s.get DBG.CHAR_lvl_ovr = 0 →
        t.get PWR.PL_CTRL_target = s.get PWR.PL_CTRL_target ∧ t.get (HDR.ERR_CODE_code PWR.base) = 8 ∧ t.pwr = s.pwr) ∧
      (s.pwr.hand = none → s.needLevel ≤ bits v 0 2 → s.pwr.change = none → bits v 0 2 ≠ s.get PWR.PL_STAT_cur → s.pwr.restExit = false →
        t.get PWR.PL_CTRL_target = bits v 0 2 ∧ t.pwr.goal = levelCode (bits v 0 2) ∧
        (s.vid ≠ levelCode (bits v 0 2) → t.pwr.change = some ⟨s.get PWR.PL_STAT_cur, bits v 0 2, false⟩ ∧
          t.get PWR.PL_STAT_cur = s.get PWR.PL_STAT_cur) ∧
        (s.vid = levelCode (bits v 0 2) → s.pwr.vok = true → t.pwr.change = none ∧ t.get PWR.PL_STAT_cur = bits v 0 2))) ∧
    (s.vid ≠ s.pwr.goal → s.pwr.goal < 256 → ∃ t, exec .vidStep s = .next t ∧
      t.vid = (if s.vid < s.pwr.goal then s.vid + 1 else s.vid - 1)) ∧
    (∀ c, s.pwr.change = some c → c.back = false → s.vid = s.pwr.goal → s.vid ≠ 0 → s.pwr.restExit = false →
      (∃ t, exec .vokRise s = .next t ∧ t.pwr.vok = true ∧ t.pwr.change = none ∧ t.get PWR.PL_STAT_cur = c.target % 4 ∧ t.pwr.assist = .level c.target ∧
        (t.rd (HDR.IRQ_PEND PWR.base)).getLsbD 1 = true) ∧
      (s.pwr.vok = false → s.pwr.waiting = none → ∃ t, exec .vokTimeout s = .next t ∧ t.pwr.change = some { c with back := true } ∧
        t.pwr.goal = levelCode c.old ∧ t.get PWR.PL_CTRL_target = c.old % 4 ∧ t.get (HDR.ERR_CODE_code PWR.base) = 0x41 ∧
        (t.rd (HDR.IRQ_PEND PWR.base)).getLsbD 2 = true)) ∧
    (s.pwr.vok = true → s.pwr.change = none → s.vid ≠ 0 → ∃ t, exec .vokFall s = .next t ∧ t.pwr.vok = false ∧
      (t.rd (HDR.IRQ_PEND PWR.base)).getLsbD 6 = true)

/-- A request for a sleep state starts a prepare of the blocks it needs, unless one runs (log 80); a request for Run ends Idle with its
event. Each block answers in turn; one that refuses, or does not answer in time, ends the request with its domain and reason; once all
have answered the device commits to the state, and in Rest and Dormant no domain but AON is on. Rules of the commands named: R441, R442,
R444, R447. -/
def Obligations.SleepStates : Prop :=
  ∀ (s : State) (id : ReqId) (v : Word),
    (s.ready PWR.SLEEP_CTRL = true →
      let asked := fun t : State =>
        (s.pwr.hand = none → s.pwr.change = none → t.pwr.hand = some ⟨bits v 0 2, bit v 2, parts (bits v 0 2), 0, []⟩ ∧ t.regs = s.regs) ∧
        (s.pwr.hand ≠ none → t.pwr = s.pwr ∧ t.get (HDR.ERR_CODE_code PWR.base) = 0x40)
      (bits v 0 2 = 1 → ∃ t, exec (.sleepIdleRequest id v) s = .next t ∧ asked t) ∧
      (bits v 0 2 = 2 → ∃ t, exec (.sleepRestRequest id v) s = .next t ∧ asked t) ∧
      (bits v 0 2 = 3 → ∃ t, exec (.sleepDormantRequest id v) s = .next t ∧ asked t)) ∧
    (s.ready PWR.SLEEP_CTRL = true → bits v 0 2 = 0 → s.pwr.sleep = .idle → s.pwr.hand = none →
      ∃ t, exec (.sleepRunRequest id v) s = .next t ∧ t.pwr.sleep = .run ∧ t.get PWR.SLEEP_STAT_state = 0 ∧
        (t.rd (HDR.IRQ_PEND PWR.base)).getLsbD 4 = true) ∧
    (∀ h p rest, s.pwr.hand = some h → h.todo = p :: rest →
      (∀ d r, ((p.asked h.target).findSome? fun d => (s.refusal d h.force false s.pwr.wakeSeen).map fun r => (d, r)) = some (d, r) →
        ∃ t, exec .prepareAnswer s = .next t ∧ t.pwr.hand = none ∧ t.get PWR.SLEEP_STAT_refused = 1 ∧ t.get PWR.SLEEP_STAT_block = d ∧
          t.get PWR.SLEEP_STAT_reason = r ∧ (t.rd (HDR.IRQ_PEND PWR.base)).getLsbD 3 = true) ∧
      (((p.asked h.target).findSome? fun d => (s.refusal d h.force false s.pwr.wakeSeen).map fun r => (d, r)) = none → p ≠ .core → p ≠ .lnd →
        ∃ t, exec .prepareAnswer s = .next t ∧ t.pwr.hand = some { h with todo := rest } ∧ t.mem = s.mem) ∧
      (∃ t, exec .prepareTimeout s = .next t ∧ t.pwr.hand = none ∧ t.get PWR.SLEEP_STAT_refused = 1 ∧ t.get PWR.SLEEP_STAT_reason = 7)) ∧
    (∀ h, s.pwr.hand = some h → h.todo = [] → s.pwr.wakeSeen = false → ∃ t, exec .sleepCommit s = .next t ∧ t.pwr.hand = none ∧
      (h.target = 1 → t.pwr.sleep = .idle ∧ t.get PWR.SLEEP_STAT_state = 1) ∧
      (h.target = 2 → t.pwr.sleep = .rest ∧ t.pwr.goal = 0x28 ∧ t.pwr.assist = .reverse ∧ ∀ d, 1 ≤ d → d < 27 → t.on d = false) ∧
      (h.target = 3 → t.pwr.sleep = .dormant ∧ t.pwr.goal = 0 ∧ ∀ d, 1 ≤ d → d < 27 → t.on d = false))

/-- Single domains are turned off once their block agrees, and on; a request for a domain that may not be turned off is refused with
code 0x42; one that its block refuses stays on with its reason (log 80). WAKE_N and the wake timer wake where they are enabled, with
their cause bits; where they are not enabled WAKE_N does nothing, and the timer only lets its instant come. A waking domain that reports
ready is on and waking no longer. The end of the 2 ms of a wake ends the one access that waits for it with the error response "domain
off", and no byte of memory changes. Rules of the commands named: R54, R441, R445, R446. -/
def Obligations.DomainsAndWakes : Prop :=
  (∀ (s : State) (id : ReqId) (v : Word),
    (s.ready PWR.DOM_CTRL = true →
      (s.get PWR.DOM_CTRL_off = 0 → ∃ t, exec (.domainOffRequest id v) s = .next t ∧
        (bits v 0 27 &&& 0x4000807 = 0 → t.get PWR.DOM_CTRL_off = bits v 0 27 ∧
          t.pwr.offTodo = s.pwr.offTodo ++ ((List.range 27).filter (bits v 0 27).testBit).map fun d => ⟨d, bit v 31, false⟩) ∧
        (bits v 0 27 &&& 0x4000807 ≠ 0 → t.pwr = s.pwr ∧ t.get PWR.DOM_CTRL_off = 0 ∧ t.get (HDR.ERR_CODE_code PWR.base) = 0x42)) ∧
      (∀ d : Fin 27, (s.get PWR.DOM_CTRL_off).testBit d.val = true → (bits v 0 27).testBit d.val = false → bits v 0 27 &&& 0x4000807 = 0 →
        s.on d.val = false → ∃ t, exec (.domainOnRequest id v) s = .next t ∧ t.pwr.domWaking.getLsbD d.val = true ∧
          (t.get PWR.DOM_CTRL_off).testBit d.val = false)) ∧
    (∀ o rest, s.pwr.hand = none → s.pwr.offTodo = o :: rest → o.dom < 27 → s.on o.dom = true → o.dom ≠ 13 →
      ∃ t, exec .prepareAnswer s = .next t ∧ t.pwr.offTodo = rest ∧
        (s.refusal o.dom o.force true o.woke = none → t.on o.dom = false) ∧
        (∀ r, s.refusal o.dom o.force true o.woke = some r → t.on o.dom = true ∧ (t.get PWR.DOM_CTRL_off).testBit o.dom = false ∧
          t.get PWR.SLEEP_STAT_block = o.dom ∧ t.get PWR.SLEEP_STAT_reason = r)) ∧
    ((s.get PWR.WAKE_EN_src).testBit 0 = true →
      (s.pwr.hand = none → s.pwr.sleep = .run → ∃ t, exec .wakeNLow s = .next t ∧ t.regs = s.regs ∧ t.mem = s.mem ∧
        t.pwr.sleep = .run ∧ t.pwr.offTodo = s.pwr.offTodo.map fun o => { o with woke := true }) ∧
      (s.pwr.hand = none → s.pwr.sleep = .idle → ∃ t, exec .wakeNLow s = .next t ∧ t.pwr.sleep = .run ∧
        t.get ⟨PWR.WAKE_CAUSE, 1, 1⟩ = 1 ∧ t.get PWR.SLEEP_STAT_state = 0) ∧
      (s.pwr.hand = none → s.pwr.sleep = .rest → ∃ t, exec .wakeNLow s = .next t ∧ t.get ⟨PWR.WAKE_CAUSE, 1, 1⟩ = 1 ∧
        t.pwr.wakeSeen = true ∧ (s.vid = s.pwr.goal → t.pwr.restExit = true) ∧
        (s.vid ≠ s.pwr.goal → t.pwr.restExit = s.pwr.restExit ∧ t.pwr.goal = s.pwr.goal))) ∧
    ((s.get PWR.WAKE_EN_src).testBit 0 = false → exec .wakeNLow s = .next s) ∧
    ((s.get PWR.WAKE_EN_src).testBit 1 = true → s.pwr.hand = none → s.pwr.sleep ≠ .run → ∃ t, exec .wakeTimer s = .next t ∧
      t.get ⟨PWR.WAKE_CAUSE, 2, 1⟩ = 1 ∧ (s.pwr.sleep = .idle → t.pwr.sleep = .run) ∧ (s.pwr.sleep ≠ .idle → t.pwr.wakeSeen = true)) ∧
    ((s.get PWR.WAKE_EN_src).testBit 1 = false → ∃ t, exec .wakeTimer s = .next t ∧ t = { s with now := t.now, dev := t.dev })) ∧
  (∀ (s : State) (d : Fin 27), s.pwr.domWaking.getLsbD d = true → s.on d = false → s.unreleased d = false → s.stalled = [] →
    s.mgt.held = [] → s.pwr.restExit = false → d.val ≠ 2 →
    ∃ t, exec (.domainReady d) s = .next t ∧ t.on d = true ∧ t.pwr.domWaking.getLsbD d = false ∧ t.stalled = []) ∧
  (∀ (s : State) (d : Fin 27) (a : Access), s.on d = false → s.stalled = [a] → accDomain a = d.val → s.mgt.before = [] → s.mgt.todo = [] →
    s.mgmt = [] → (∀ c : Fin 8, (s.core c.val).mode ≠ .remote) →
    ∃ t, exec (.wakeAccessTimeout d) s = .next t ∧ t.stalled = [] ∧ t.resp.error = true ∧ t.resp.domOff = true ∧ t.timedOut = none ∧
      t.mem = s.mem)

/-- A source that asserts a cold reset, and one that asserts a warm one: the `CAUSE` bit, the hold, where the release begins, no domain
on but AON, device time zero or kept, the fuses kept. A wrong key is refused with code 0x41. In option fault the warm pin does nothing
(log 82), and the peer's reset pin does nothing on a device without a pair. Rules of the commands named: R450, R452. -/
def Obligations.ResetsAssert : Prop :=
  ∀ (s : State) (id : ReqId) (v : Word),
    (∃ t, exec .powerOnReset s = .next t ∧ t.get ⟨RST.CAUSE, 0, 1⟩ = 1 ∧ t.rst.held.contains 0 = true ∧ t.rst.next = some 0 ∧
      t.rst.warm = false ∧ t.pwr.domOn = 1 ∧ t.dev = 0 ∧ t.otp.sameOptions s.otp = true) ∧
    (∃ t, exec .rstNLow s = .next t ∧ t.get ⟨RST.CAUSE, 1, 1⟩ = 1 ∧ t.rst.held.contains 1 = true ∧ t.rst.next = some 0 ∧
      t.rst.warm = false ∧ t.pwr.domOn = 1 ∧ t.dev = 0 ∧ t.otp.sameOptions s.otp = true) ∧
    (s.rst.optFault = false → ¬(s.rst.warm = false ∧ s.rst.next = some 0) →
      (∃ t, exec .wrstNLow s = .next t ∧ t.get ⟨RST.CAUSE, 2, 1⟩ = 1 ∧ t.rst.held.contains 2 = true ∧ t.rst.next = some 1 ∧
        t.rst.warm = true ∧ t.pwr.domOn = 1 ∧ t.dev = s.dev ∧ t.otp.sameOptions s.otp = true) ∧
      (s.get PAR.CFG_en = 1 → ∃ t, exec .peerRstiNLow s = .next t ∧ t.get ⟨RST.CAUSE, 8, 1⟩ = 1 ∧ t.rst.held.contains 8 = true ∧
        t.rst.next = some 1 ∧ t.rst.warm = true ∧ t.pwr.domOn = 1) ∧
      (s.rst.wdog ≠ none → ∃ t, exec .deviceWatchdogExpiry s = .next t ∧ t.get ⟨RST.CAUSE, 6, 1⟩ = 1 ∧ t.rst.held.contains 6 = true ∧
        t.rst.next = some 1 ∧ t.rst.warm = true ∧ t.pwr.domOn = 1 ∧ t.rst.wdog = none) ∧
      (s.ready RST.SWRST = true → v = 0x57530001#32 → ∃ t, exec (.softwareReset id v) s = .next t ∧ t.get ⟨RST.CAUSE, 9, 1⟩ = 1 ∧
        t.rst.held.contains 9 = true ∧ t.rst.next = some 1 ∧ t.rst.warm = true ∧ t.pwr.domOn = 1)) ∧
    (s.ready RST.SWRST = true → v ≠ 0x57530001#32 → ∃ t, exec (.softwareReset id v) s = .next t ∧ t.rst = s.rst ∧ t.pwr = s.pwr ∧
      t.get (HDR.ERR_CODE_code RST.base) = 0x41) ∧
    (s.rst.optFault = true → exec .wrstNLow s = .next s) ∧
    (s.get PAR.CFG_en = 0 → s.pwr.pairEn = false → exec .peerRstiNLow s = .next s)

/-- A source that is released, from outside or by its own time, no longer holds the device. Then the release goes on step by step, with
the option load after AON and its three tries; a held device and one in option fault stay. The key puts off the watchdog. Without VOK in
time at a cold reset the supply steps to 0, and starts again later. An image is checked on request; a good one is recorded and the boot
is done with its event, a bad one from the host is reported with its reason. Where the last step leads, and what a second image does, is
read by inference (log 57, log 82). Rules of the commands named: R450, R451, R452, R455, R457, R459, R466, R474. -/
def Obligations.ResetsRelease : Prop :=
  (∀ (s : State) (id : ReqId) (v : Word),
    (s.pwr.railsOut.contains .vaon = false → ∃ t, exec .powerOnRelease s = .next t ∧ t.rst.held.contains 0 = false ∧ t.regs = s.regs ∧
      t.mem = s.mem) ∧
    (s.pwr.railsOut.contains .vaon = true → exec .powerOnRelease s = .next s) ∧
    (∃ t, exec (.resetPinRelease .rstN) s = .next t ∧ t.rst.held.contains 1 = false ∧ t.regs = s.regs) ∧
    (∃ t, exec (.resetPinRelease .wrstN) s = .next t ∧ t.rst.held.contains 2 = false ∧ t.regs = s.regs) ∧
    (∃ t, exec (.resetPinRelease .peerRstiN) s = .next t ∧ t.rst.held.contains 8 = false ∧ t.regs = s.regs) ∧
    (∃ t, exec .internalResetRelease s = .next t ∧ t.regs = s.regs ∧ (∀ b, b ∈ [3, 4, 5, 6, 9, 10] → t.rst.held.contains b = false) ∧
      ((∃ b, b ∈ [3, 4, 5, 6, 9, 10] ∧ s.rst.held.contains b = true) → s.rst.lastAt + usCt 2 ≤ t.now)) ∧
    (s.rst.held = [] → s.refclk = true → s.rst.optFault = false → s.rst.optLoading = false →
      (s.rst.next = some 0 → ∃ t, exec .releaseStep s = .next t ∧ t.rst.next = some 1 ∧ t.rst.madr = s.rst.madrPins ∧ t.dev = 0 ∧
        t.get RST.BOOT_STAT_straps = s.rst.bootPins.toNat ∧ t.pwr.goal = 0x5A ∧ t.rst.aonUp = true) ∧
      (s.rst.next = some 1 → s.rst.optLoaded = false → ∃ t, exec .releaseStep s = .next t ∧ t.rst.optLoading = true ∧
        t.rst.next = some 1) ∧
      (∀ n m, 2 ≤ n → s.rst.next = some n → relAfter n = some m → ∃ t, exec .releaseStep s = .next t ∧ t.rst.next = some m ∧
        s.rst.stepAt + 32 * s.get RST.GAP_now ≤ t.now ∧ t.regs = s.regs)) ∧
    (s.rst.held ≠ [] → exec .releaseStep s = .next s) ∧
    (s.rst.optLoading = true → s.refclk = true →
      (∃ t, exec (.optionLoadDone true) s = .next t ∧ t.rst.optLoaded = true ∧ t.rst.optLoading = false ∧
        t.get RST.OPT_RESTARTS_crc_fail = 0) ∧
      (∃ t, exec (.optionLoadDone false) s = .next t ∧ t.get RST.OPT_RESTARTS_crc_fail = min (s.get RST.OPT_RESTARTS_crc_fail + 1) 3 ∧
        (s.get RST.OPT_RESTARTS_crc_fail < 2 → t.rst.optLoading = true ∧ t.rst.optFault = s.rst.optFault) ∧
        (2 ≤ s.get RST.OPT_RESTARTS_crc_fail → t.rst.optLoading = false ∧ t.rst.optFault = true ∧ t.pwr.goal = 0 ∧ t.pwr.domOn = 1))) ∧
    (s.ready RST.WDOG_KICK = true → ∃ t, exec (.deviceWatchdogKick id v) s = .next t ∧
      (bits v 0 16 = 0xC3C3 → t.rst.wdog =
        (if s.get RST.WDOG_timeout = 0 then none else some (s.now + usCt (1000 * s.get RST.WDOG_timeout)))) ∧
      (bits v 0 16 ≠ 0xC3C3 → t.rst = s.rst ∧ t.get (HDR.ERR_CODE_code RST.base) = 0x41))) ∧
  (∀ (s : State) (id : ReqId) (v : Word),
    (s.rst.next = some 1 → s.rst.warm = false → s.rst.held = [] → s.rst.vidOff = none → s.vid = s.pwr.goal → s.pwr.vok = false →
      ∃ t, exec .resetVokTimeout s = .next t ∧ t.pwr.goal = 0 ∧ t.rst.vidOff = some t.now ∧ t.regs = s.regs) ∧
    (∀ x, s.rst.vidOff = some x → s.vid = 0 → ∃ t, exec .resetVokRetry s = .next t ∧ t.rst.vidOff = none ∧ t.pwr.goal = 0x5A ∧
      x + usCt 10000 ≤ t.now) ∧
    (s.ready RST.BOOT_CMD = true → bit v 0 = true → ∃ t, exec (.bootGo id v) s = .next t ∧
      (s.rst.boot = .waitHost → t.rst.boot = .checking .host 0x20000000 (s.get RST.BOOT_LEN_bytes)) ∧
      (s.rst.boot = .idle → t.rst = s.rst ∧ t.get (HDR.ERR_CODE_code RST.base) = 0x42) ∧
      (∀ r b n, s.rst.boot = .checking r b n → t.rst = s.rst ∧ t.get (HDR.ERR_CODE_code RST.base) = 0x42) ∧
      (s.rst.boot = .halted → t.rst = s.rst ∧ t.get (HDR.ERR_CODE_code RST.base) = 0x43)) ∧
    (∀ r b n, s.rst.boot = .checking r b n → ∃ t, exec .bootImageChecked s = .next t ∧
      (s.imgResult b n = 1 → t.rst.boot = .done ∧ t.get RST.BOOT_STAT_accepted = 1 ∧ t.get RST.BOOT_STAT_result = 1 ∧
        (t.rd (HDR.IRQ_PEND RST.base)).getLsbD 1 = true) ∧
      (s.imgResult b n ≠ 1 → r = .host → s.get RST.BOOT_STAT_straps ≠ 2 → t.rst.boot = .waitHost) ∧
      (s.imgResult b n ≠ 1 → r = .backup → t.rst.boot = .failed) ∧
      (s.imgResult b n ≠ 1 → r = .host ∨ r = .backup →
        (s.rst.optFault = false → s.inReset = false → s.rst.next = none → s.pwr.sleep = .run →
          t.statCode = if t.rst.boot = .failed then 7 else 3) ∧ t.get RST.BOOT_STAT_result = s.imgResult b n ∧
        t.get RST.BOOT_STAT_accepted = s.get RST.BOOT_STAT_accepted ∧ t.mem = s.mem ∧ (∀ c : Fin 8, (t.core c.val).mode = .halted) ∧
        (t.rd (HDR.IRQ_PEND RST.base)).getLsbD 2 = true)))

/-- Commands of the security block burn no fuse when they are given: each is refused with the code of its first failing check, and runs
where none fails; a challenge, and an advance with nothing to burn, are done at once. The order of the checks is read by inference (log
58). Rules of the commands named: R476, R477, R479, R482. -/
def Obligations.SecurityCommands : Prop :=
  ∀ (s : State) (id : ReqId) (v : Word), s.ready SEC.CMD = true →
    let hash := BitVec.ofNat 256 (leNat (s.cmdBytes 4 32))
    let empty := s.otp.slots.all fun k => k.state == 0
    (bits v 0 4 = 1 → ∃ t, exec (.keyEnrol id v) s = .next t ∧ t.otp = s.otp ∧
      (s.get SEC.CTRL_km_dis = 1 → t.get SEC.STAT_result = 0x45 ∧ t.sec = s.sec) ∧
      (s.get SEC.CTRL_km_dis = 0 → s.sec.job ≠ none → t.get SEC.STAT_result = 0x40 ∧ t.sec = s.sec) ∧
      (s.get SEC.CTRL_km_dis = 0 → s.sec.job = none → empty = true → id ≠ 1 → t.get SEC.STAT_result = 0x44 ∧ t.sec = s.sec) ∧
      (s.get SEC.CTRL_km_dis = 0 → s.sec.job = none → (empty = true ∧ id = 1 ∨ empty = false ∧ s.cmdAuthorised id = true) →
        (s.otp.slots.any fun k => k.state == 0) = true → s.cmdByte 0 < 4 → (s.otp.slot (s.cmdByte 0)).state = 0 → s.cmdByte 1 ≠ 0 →
        s.cmdByte 1 < 8 → keysLeft (slotsAfter s.otp 1 (s.cmdByte 0) (s.cmdByte 1) hash) = true →
        t.sec.job = some ⟨id, 1, s.cmdByte 0, s.cmdByte 1, hash, 0, s.dev⟩ ∧ t.get SEC.STAT_busy = 1 ∧ t.get SEC.STAT_op = 1)) ∧
    (bits v 0 4 = 2 → ∃ t, exec (.keyRevoke id v) s = .next t ∧ t.otp = s.otp ∧
      (s.get SEC.CTRL_km_dis = 0 → s.sec.job = none → s.cmdAuthorised id = false → t.get SEC.STAT_result = 0x41 ∧ t.sec.job = none) ∧
      (s.get SEC.CTRL_km_dis = 0 → s.sec.job = none → s.cmdAuthorised id = true → s.cmdByte 0 < 4 →
        (s.otp.slot (s.cmdByte 0)).state = 1 → keysLeft (slotsAfter s.otp 2 (s.cmdByte 0) (s.cmdByte 1) hash) = true →
        t.sec.job = some ⟨id, 2, s.cmdByte 0, s.cmdByte 1, hash, 0, s.dev⟩ ∧ t.get SEC.STAT_busy = 1)) ∧
    (bits v 0 4 = 3 → ∃ t, exec (.quote id v) s = .next t ∧ t.otp = s.otp ∧
      (s.sec.job = none → s.get SEC.LOCKS_id_bad = 0 → memAt (4 * s.get SEC.CMD_ADDR_addr + 64) = some .cmem →
        memAt (4 * s.get SEC.CMD_ADDR_addr + 64 + 17291) = some .cmem →
        t.sec.job = some ⟨id, 3, 0, 0, 0, 4 * s.get SEC.CMD_ADDR_addr, s.dev⟩ ∧ t.get SEC.STAT_busy = 1) ∧
      (s.sec.job = none → s.get SEC.LOCKS_id_bad = 1 → t.get SEC.STAT_result = 0x42 ∧ t.sec = s.sec)) ∧
    (bits v 0 4 = 4 → ∃ t, exec (.advanceRollback id v) s = .next t ∧ t.otp = s.otp ∧
      (s.get SEC.CTRL_km_dis = 0 → s.sec.job = none → (id.toNat < 0x10 ∨ 0x18 ≤ id.toNat) → t.get SEC.STAT_result = 0x44 ∧
        t.sec = s.sec) ∧
      (s.get SEC.CTRL_km_dis = 0 → s.sec.job = none → 0x10 ≤ id.toNat → id.toNat < 0x18 → ∀ r, s.sec.imgRoll = some r →
        (r ≤ s.otp.rollCount → t.get SEC.STAT_result = 1 ∧ t.sec = s.sec) ∧
        (s.otp.rollCount < r → t.sec.job = some ⟨id, 4, r, 0, 0, 0, s.dev⟩ ∧ t.get SEC.STAT_busy = 1))) ∧
    (bits v 0 4 = 5 → ∃ t, exec (.secChallenge id v) s = .next t ∧ t.otp = s.otp ∧
      (s.sec.job = none → s.get SEC.RNG_STAT_ok = 1 → t.sec.challenge = some (id, (s.randomBytes 8).1, s.now) ∧
        t.sec.drawn = s.sec.drawn + 8 ∧ t.get SEC.STAT_result = 1) ∧
      (s.sec.job = none → s.get SEC.RNG_STAT_ok = 0 → t.get SEC.STAT_result = 0x42 ∧ t.sec = s.sec))

/-- A command of the security block ends with its fuses burnt and its event; a quote writes to its buffer alone. A challenge expires for
its requester. A read of `RNG_DATA` answers the next random word (an opaque one, log 22) while the generator is well, and 0xDEAD0BAD
else. A health failure is counted with its event, and a retest ends it or counts again (log 28). Rules of the commands named: R476,
R478, R484. -/
def Obligations.SecurityEvents : Prop :=
  ∀ (s : State) (id : ReqId),
    (∀ j, s.sec.job = some j → ∃ t, exec .secCommandComplete s = .next t ∧ t.sec.job = none ∧ t.get SEC.STAT_busy = 0 ∧
      t.get SEC.STAT_result = 1 ∧ (t.rd (HDR.IRQ_PEND SEC.base)).getLsbD 1 = true ∧
      (j.op = 1 → t.otp = s.otp.burnSlot j.slot ⟨j.hash, BitVec.ofNat 3 j.perm, true, false⟩ ∧ t.mem = s.mem) ∧
      (j.op = 2 → t.otp = s.otp.burnSlot j.slot ⟨0, 0, false, true⟩ ∧ t.mem = s.mem) ∧
      (j.op = 3 → t.otp = s.otp ∧ ∀ b, b < j.addr + 64 ∨ j.addr + 64 + (204 + 17088) ≤ b → t.byte b = s.byte b) ∧
      (j.op = 4 → t.otp = s.otp.burnRoll (BitVec.ofNat 64 (2 ^ j.slot - 1)) ∧ t.mem = s.mem)) ∧
    (∀ c n i, s.sec.challenge = some (c, n, i) → ∃ t, exec (.secChallengeExpiry id) s = .next t ∧ t.regs = s.regs ∧
      t.sec.challenge = (if c = id then none else some (c, n, i))) ∧
    (s.ready SEC.RNG_DATA = true → ∃ t, exec (.rngRead id) s = .next t ∧ t.regs = s.regs ∧
      (s.get SEC.RNG_STAT_ok = 1 → t.resp = ⟨(Config.randomWord s.sec.drawn).setWidth 64, false, false, false, false⟩ ∧
        t.sec.drawn = s.sec.drawn + 1) ∧
      (s.get SEC.RNG_STAT_ok = 0 → t.resp = ⟨0xDEAD0BAD, false, false, false, false⟩ ∧ t.sec = s.sec)) ∧
    (∃ t, exec .rngHealthFail s = .next t ∧ t.get SEC.RNG_STAT_ok = 0 ∧ t.get SEC.RNG_STAT_fail = min (s.get SEC.RNG_STAT_fail + 1) 255 ∧
      (t.rd (HDR.IRQ_PEND SEC.base)).getLsbD 2 = true ∧ t.sec = { s.sec with rngFailAt := some s.now }) ∧
    (s.get SEC.RNG_STAT_ok = 0 → (∃ t, exec (.rngRetest true) s = .next t ∧ t.get SEC.RNG_STAT_ok = 1) ∧
      (∃ t, exec (.rngRetest false) s = .next t ∧ t.get SEC.RNG_STAT_ok = 0 ∧
        t.get SEC.RNG_STAT_fail = min (s.get SEC.RNG_STAT_fail + 1) 255)) ∧
    (s.get SEC.RNG_STAT_ok = 1 → ∀ p, exec (.rngRetest p) s = .next s)

/-- A fence is set for banks that hold no dump, and refused with code 0x42 else. A freeze fills its area once and counts later ones; a
clear empties its status. A rail that leaves its window is recorded: VAON resets the device, VNEG acts as protection source 26. A rail
that returns is recorded. Rules of the commands named: R487, R492, R504. -/
def Obligations.Diagnostics : Prop :=
  ∀ (s : State) (id : ReqId) (v : Word),
    (s.ready DBG.CMEM_FENCE = true → ∃ t, exec (.cmemFenceWrite id v) s = .next t ∧
      (bits v 0 16 &&& s.dumpBanks = 0 → t.get DBG.CMEM_FENCE_bank = bits v 0 16 ∧ ∀ a, a ≠ DBG.CMEM_FENCE → t.rd a = s.rd a) ∧
      (bits v 0 16 &&& s.dumpBanks ≠ 0 → t.get DBG.CMEM_FENCE_bank = s.get DBG.CMEM_FENCE_bank ∧
        t.get (HDR.ERR_CODE_code DBG.base) = 0x42)) ∧
    (s.ready DBG.FRZ_CMD = true → bits v 0 2 = 1 → ∃ t, exec (.freezeNow id v) s = .next t ∧
      (s.get DBG.FRZ_STAT_valid = 0 → t.get DBG.FRZ_STAT_valid = 1 ∧ t.get ⟨DBG.FRZ_STAT, 7, 1⟩ = 1 ∧
        ∀ n : Fin 64, t.rd (DBG.FRZ n.val) = s.freezeWord n.val) ∧
      (s.get DBG.FRZ_STAT_valid = 1 → t.get DBG.FRZ_STAT_more = min (s.get DBG.FRZ_STAT_more + 1) 255 ∧
        ∀ n : Fin 64, t.rd (DBG.FRZ n.val) = s.rd (DBG.FRZ n.val))) ∧
    (s.ready DBG.FRZ_CMD = true → bits v 0 2 = 2 → ∃ t, exec (.freezeClear id v) s = .next t ∧ t.get DBG.FRZ_STAT_valid = 0 ∧
      t.get DBG.FRZ_STAT_cause = 0 ∧ t.get DBG.FRZ_STAT_more = 0 ∧ ∀ a, a ≠ DBG.FRZ_STAT → t.rd a = s.rd a) ∧
    (∀ r : Rail, ∃ t, exec (.supplyOutOfWindow r) s = .next t ∧ t.pwr.railsOut.contains r = true ∧
      (r = .vaon → s.pwr.railsOut.contains r = false → t.rst.next = some 0 ∧ t.get ⟨RST.CAUSE, 0, 1⟩ = 1) ∧
      (r = .vneg → s.pwr.railsOut.contains r = false → t.acting 26 = true)) ∧
    (∀ r : Rail, ∃ t, exec (.supplyInWindow r) s = .next t ∧ t.pwr.railsOut.contains r = false ∧ t.mem = s.mem)

/-- EXTEST, CLAMP and HIGHZ take effect only in boot hold, and act as BYPASS else; the other listed instructions take effect at any
time; with debug closed every instruction not listed acts as BYPASS. The instruction register keeps what was shifted in, and what acts
follows the state of the device; IDCODE answers the version, the part and the mark bit. The digital pins follow the instruction that
acts: EXTEST and CLAMP drive them from the boundary cells, whose values stay open, and HIGHZ releases them (log 10); else each is as its
block drives it. With debug open such an instruction is refused by name, which is the model's choice (log 10). Rules of the commands
named: R498. -/
def Obligations.JtagInstructions : Prop :=
  ∀ s : State,
    (∀ op ∈ [JtagOp.extest, .clamp, .highz], ∃ t, exec (.jtagInstruction op) s = .next t ∧
      t = { s with jtag := op, cells := if op = .extest then s.cells + 1 else s.cells } ∧
      t.jtagActs = (if s.statCode = 7 then op else .bypass) ∧
      ∀ p : DigPin, t.pinOut p = (if s.statCode = 7 then
        (if op = .highz then .hiZ else .of (Config.boundaryCell t.cells p.number)) else s.pinOwn p)) ∧
    (∀ op ∈ [JtagOp.bypass, .sample, .preload], ∃ t, exec (.jtagInstruction op) s = .next t ∧
      t = { s with jtag := op, cells := if op = .bypass then s.cells else s.cells + 1 } ∧
      t.jtagActs = op ∧ ∀ p : DigPin, t.pinOut p = s.pinOwn p) ∧
    (∃ t, exec (.jtagInstruction .idcode) s = .next t ∧ t.jtag = .idcode ∧ t.regs = s.regs ∧ t.mem = s.mem ∧ t.resp.error = false ∧
      bitsOf t.resp.data.toNat 28 4 = 1 ∧ bitsOf t.resp.data.toNat 12 16 = 0x6400 ∧ bitsOf t.resp.data.toNat 0 1 = 1) ∧
    (s.otp.dbgClosed = true → exec (.jtagInstruction .other) s = .next { s with jtag := .bypass }) ∧
    (s.otp.dbgClosed = false → exec (.jtagInstruction .other) s = .refused .privateTestInstruction)

/-- Every step keeps memory in its canonical form, and keeps the lists that stand for the parts of the device that come in a fixed
number at that length. -/
def Obligations.StorageStaysWell : Prop :=
  (∀ s t : State, s.memWf = true → step s = .next t → t.memWf = true) ∧
  (∀ s t : State, s.shaped = true → step s = .next t → t.shaped = true)

/-- Whatever the step, no fuse of the security region that was burnt is clear after it, and the option fuses stay as they are. -/
def Obligations.FusesOnlyBurn : Prop :=
  ∀ s t : State, step s = .next t → s.otp.kept t.otp = true ∧ t.otp.sameOptions s.otp = true

/-- The commands on the FTM and CLK pages change, beside registers of their own page, the timer alone, and those on the stands' pages
and on RXC and TXC the converters, the slices, the mutes, the symbols that exclude a converter's path, the receive chain or the running
capture's record as named; each keeps every register of another page, but that a play, a mute and an ADC sample may write the records of
the Landing's page. An access also leaves its bookkeeping: its answer, the mark of a logged error, the mirror's dirty granules; an event
may move the clock (log 2). Rules of the commands named: R14, R70, R78, R81, R84, R85, R90, R91, R108, R112, R123, R125, R128, R138,
R141, R189. -/
def Obligations.FrameOfTimingAndChains : Prop :=
  (∀ (s : State) (id : ReqId) (v : Word) (n : Fin 3) (rx : Word),
    (s.ready FTM.CTRL = true → ∀ c ∈ ([.listCommit id v, .fecRelease id v, .timerRun id v, .timerStopRequest id v] : List Instr), ∀ t, exec c s = .next t →
      t = { s.booked t with regs := t.regs, timer := t.timer } ∧
      ∀ b, pageBase b ≠ FTM.base → t.rd b = s.rd b) ∧
    (s.ready CLK.PLL_CTRL = true → ∀ c ∈ ([.pllEnableWrite id v, .halfRateWrite id v, .tsyncModeWrite id v] : List Instr), ∀ t, exec c s = .next t →
      t = { s.booked t with regs := t.regs } ∧
      ∀ b, pageBase b ≠ CLK.base → t.rd b = s.rd b) ∧
    (∀ c ∈ ([.listCheckDone, .fesTransactionStart n, .fesTransactionDone n rx, .tsyncFallingEdge] : List Instr), ∀ t, exec c s = .next t →
      t = { s with regs := t.regs, timer := t.timer, logged := t.logged, now := t.now, dev := t.dev } ∧
      ∀ b, pageBase b ≠ FTM.base → t.rd b = s.rd b)) ∧
  (∀ (s : State) (id : ReqId) (v : Word) (st : Fin 8) (tx : Bool) (p : Fin 64) (m : MuteReg) (code : BitVec 12),
    (s.ready (STD.EQ_COMMIT st.val) = true → ∀ t, exec (.eqCommit id st v) s = .next t →
      t = { s.booked t with regs := t.regs, cnv := t.cnv } ∧
      ∀ b, pageBase b ≠ STD.base st.val → t.rd b = s.rd b) ∧
    (s.ready (STD.CNV_CTRL st.val) = true → ∀ t, exec (.cnvCtrlWrite id st v) s = .next t →
      t = { s.booked t with regs := t.regs, cnv := t.cnv, tx := { s.tx with syms := t.tx.syms }
                            rx := { s.rx with syms := t.rx.syms, paths := t.rx.paths } } ∧
      ∀ b, pageBase b ≠ STD.base st.val → t.rd b = s.rd b) ∧
    (s.ready RXC.SLICE_CTRL = true → s.ready TXC.SLICE_CTRL = true → ∀ c ∈ ([.sliceStart id tx v, .sliceStop id tx v] : List Instr), ∀ t, exec c s = .next t →
      t = { s.booked t with regs := t.regs, tx := t.tx, rxSlices := t.rxSlices, txSlices := t.txSlices } ∧ ∀ b, pageBase b ≠ chainPage tx → t.rd b = s.rd b) ∧
    (s.ready TXC.CAL_CTRL = true → ∀ t, exec (.calGo id v) s = .next t →
      t = { s.booked t with regs := t.regs, cnv := t.cnv } ∧
      ∀ b, pageBase b ≠ TXC.base → pageBase b ≠ LND.base → t.rd b = s.rd b) ∧
    (s.ready TXC.MUTE_ALL = true → ∀ t, exec (.muteRegisterWrite id m v) s = .next t →
      t = { s.booked t with regs := t.regs, tx := t.tx, stage := t.stage, capture := t.capture } ∧
      ∀ b, pageBase b ≠ TXC.base → pageBase b ≠ LND.base → t.rd b = s.rd b) ∧
    (∀ t, exec (.adcSample (.path p) code) s = .next t →
      t = { s with regs := t.regs, rx := t.rx, capture := t.capture } ∧
      ∀ b, pageBase b ≠ RXC.base → pageBase b ≠ STD.base (p.val / 8) → pageBase b ≠ LND.base → t.rd b = s.rd b) ∧
    (∀ c ∈ ([.levelMonitorUpdate, .gstepApply] : List Instr), ∀ t, exec c s = .next t →
      t = { s with regs := t.regs, rx := t.rx, now := t.now, dev := t.dev } ∧ ∀ b, pageBase b ≠ RXC.base → t.rd b = s.rd b))

/-- The commands on the beamformer's pages change, beside registers of those pages, the beamformer's own state alone, and those on the
pages of predistortion that of the predistorter and its requests, a swap the running capture's record too; each keeps every register of
another page, but that a swap may write the records of a running capture on the Landing's page. An access also leaves its bookkeeping;
an event may move the clock (log 2). The commands on the pages BIA, SCL, LND, THM and DBG change, beside registers of their own page,
the bias channels, the Scaler, the capture or the sensors alone; each keeps every register of another page. An access also leaves its
bookkeeping; an event may move the clock (log 2). Rules of the commands named: R148, R151, R154, R167, R168, R171, R199, R206, R215,
R221, R233, R234, R243, R245, R248, R261, R487, R492. -/
def Obligations.FrameOfBeamformerAndFrontEnd : Prop :=
  (∀ (s : State) (id : ReqId) (v : Word) (g : Fin 4) (st : Fin 8) (n : Fin 40),
    (s.ready BF.JOIN = true → ∀ c ∈ ([.contextSeal id v, .joinWrite id v, .bfModeWrite id v, .rcmpPop id] : List Instr), ∀ t, exec c s = .next t →
      t = { s.booked t with regs := t.regs, bf := t.bf } ∧
      ∀ b, pageBase b ≠ BF.base → (∀ h : Fin 4, pageBase b ≠ BFG.base h.val) → t.rd b = s.rd b) ∧
    (s.ready (BFG.PORTS g.val) = true → ∀ c ∈ ([.portsWrite id g v, .fallbackWrite id g v] : List Instr), ∀ t, exec c s = .next t →
      t = { s.booked t with regs := t.regs, bf := t.bf } ∧
      ∀ b, pageBase b ≠ BFG.base g.val → pageBase b ≠ BF.base → t.rd b = s.rd b) ∧
    (∀ t, exec .sealComplete s = .next t → t = { s with regs := t.regs, bf := t.bf, now := t.now, dev := t.dev } ∧
      ∀ b, pageBase b ≠ BF.base → t.rd b = s.rd b) ∧
    (s.ready (DPD.CTRL st.val) = true → ∀ t, exec (.dpdSwapRequest id st v) s = .next t →
      t = { s.booked t with regs := t.regs, dpd := t.dpd, reload := t.reload, capture := t.capture } ∧
      ∀ b, (∀ k : Fin 8, pageBase b ≠ DPD.base k.val) → pageBase b ≠ LND.base → t.rd b = s.rd b) ∧
    (s.ready (DPD.CTRL st.val) = true →
      ∀ c ∈ ([.dpdTermsWrite id (BitVec.ofNat 32 (DPD.TERM_A st.val n.val)) v, .dpdReloadPop id st] : List Instr), ∀ t, exec c s = .next t →
      t = { s.booked t with regs := t.regs, dpd := t.dpd, reload := t.reload } ∧
      ∀ b, pageBase b ≠ DPD.base st.val → t.rd b = s.rd b)) ∧
  (∀ (s : State) (id : ReqId) (v : Word) (j : Fin 96) (x : Fin 2) (hi : Bool),
    (s.ready (BIA.TARGET j.val) = true → ∀ c ∈ ([.biasTargetWrite id j v, .spanChangeStart id j v] : List Instr), ∀ t, exec c s = .next t →
      t = { s.booked t with regs := t.regs, bias := t.bias } ∧
      ∀ b, pageBase b ≠ BIA.base → t.rd b = s.rd b) ∧
    (s.ready SCL.CTRL = true → ∀ t, exec (.scalerCalRequest id v) s = .next t →
      t = { s.booked t with regs := t.regs, scl := t.scl } ∧
      ∀ b, pageBase b ≠ SCL.base → t.rd b = s.rd b) ∧
    (∀ c ∈ ([.scalerPassStart x, .injectedDue x, .scalerCalStart x] : List Instr), ∀ t, exec c s = .next t →
      t = { s with scl := t.scl, now := t.now, dev := t.dev }) ∧
    (s.ready LND.CAP_CTRL = true → ∀ c ∈ ([.captureArm id v, .captureGo id v] : List Instr), ∀ t, exec c s = .next t →
      t = { s.booked t with regs := t.regs, capture := t.capture } ∧
      ∀ b, pageBase b ≠ LND.base → t.rd b = s.rd b) ∧
    (s.ready THM.SUSPECT_LO = true → ∀ t, exec (.suspectClear id hi v) s = .next t →
      t = { s.booked t with regs := t.regs, thm := t.thm, stage := t.stage } ∧
      ∀ b, pageBase b ≠ THM.base → t.rd b = s.rd b) ∧
    (s.ready DBG.FRZ_CMD = true → ∀ c ∈ ([.cmemFenceWrite id v, .freezeNow id v, .freezeClear id v] : List Instr), ∀ t, exec c s = .next t →
      t = { s.booked t with regs := t.regs, rst := { s.rst with frozeAt := t.rst.frozeAt } } ∧
      ∀ b, pageBase b ≠ DBG.base → t.rd b = s.rd b))

/-- The commands on the pages of the cores, the Yarder, SEC and the ports change, beside registers of their own page, the core, the
channel, the security block, or the test engine with the state of the port and the lanes that it takes; a doorbell and a kick leave
every other core. The commands that read a block in common SRAM also leave what those reads leave: corrected or marked words and the
records on MEM and DBG (log 111). A burst starts so where no flow command completes and no enabled flow entry fails its check at the
lookup. An access also leaves its bookkeeping. Rules of the commands named: R288, R297, R298, R382, R394, R402, R406, R476, R477, R479,
R482, R484. -/
def Obligations.FrameOfEngines : Prop :=
  ∀ (s : State) (id : ReqId) (v : Word) (k : Fin 8) (ch : Fin 32) (q : Fin 4) (l : Fin 16) (h : BitVec 10),
    (s.ready (CORE.CTRL k.val) = true → ∀ c ∈ ([.doorbell id k v, .coreWatchdogKick id k v] : List Instr), ∀ t, exec c s = .next t →
      t = { s.booked t with regs := t.regs, cores := t.cores } ∧
      (∀ b, pageBase b ≠ CORE.base k.val → t.rd b = s.rd b) ∧ ∀ d : Fin 8, d ≠ k → t.core d.val = s.core d.val) ∧
    (s.ready (YCH.CTRL ch.val) = true → ∀ t, exec (.yarderProdWrite id ch v) s = .next t →
      t = { s.booked t with regs := t.regs, chans := t.chans } ∧
      ∀ b, pageBase b ≠ YCH.base ch.val → t.rd b = s.rd b) ∧
    (s.ready SEC.CMD = true →
      ∀ c ∈ ([.secChallenge id (v &&& 0xFFFFFFF0#32 ||| 5#32), .rngRead id] : List Instr), ∀ t, exec c s = .next t →
      t = { s.booked t with regs := t.regs, sec := t.sec } ∧
      ∀ b, pageBase b ≠ SEC.base → t.rd b = s.rd b) ∧
    (s.ready SEC.CMD = true →
      ∀ c ∈ ([.keyEnrol id v, .keyRevoke id v, .quote id v, .advanceRollback id v, .secChallenge id v] : List Instr), ∀ t, exec c s = .next t →
      t = { s.booked t with regs := t.regs, sec := t.sec, upsets := t.upsets, poison := t.poison } ∧
      ∀ b, pageBase b ≠ SEC.base → pageBase b ≠ MEM.base → pageBase b ≠ DBG.base → t.rd b = s.rd b) ∧
    (s.ready (PORT.PRBS_CTRL q.val) = true → ∀ c ∈ ([.prbsEnable id q v, .prbsInject id q v] : List Instr), ∀ t, exec c s = .next t →
      t = { s.booked t with regs := t.regs, prbsSt := t.prbsSt, portSt := t.portSt, laneSt := t.laneSt } ∧
      ∀ b, pageBase b ≠ PORT.base q.val → t.rd b = s.rd b) ∧
    (∀ c ∈ ([.prbsSyncAcquired l, .prbsBitError l] : List Instr), ∀ t, exec c s = .next t → t = { s with regs := t.regs, prbsSt := t.prbsSt } ∧
      ∀ b, (∀ p : Fin 4, pageBase b ≠ PORT.base p.val) → t.rd b = s.rd b) ∧
    (∀ t, exec (.eyeUpdate l h) s = .next t → t = { s with regs := t.regs }) ∧
    (s.flowIdle = true → (∀ i ∈ s.enabledFlows, s.flowBad i = false) →
      ∀ t, exec (.yarderBurstStart ch) s = .next t → t = { s with chans := t.chans, yLast := t.yLast })
end

