-- ==== Sys2Proof/Laws/Store.lean ====
section
/-!
SUPPORT. Laws of sparse storage: what a read gives after a write, and that a write keeps the canonical form.
-/
namespace Sys2Proof.Machine

variable {α : Type}

/-- A deleted key is not listed. -/
theorem Store.find_del_same (m : Store α) (k : Nat) : (m.del k).find? k = none := by
  induction m with
  | nil => rfl
  | cons e t ih =>
    obtain ⟨a, b⟩ := e
    by_cases h : k = a
    · simp [Store.del, h] at ih ⊢; exact h ▸ ih
    · simp [Store.del, Store.find?, h, ih]

/-- Deleting a key leaves the others. -/
theorem Store.find_del_other (m : Store α) {k j : Nat} (h : j ≠ k) : (m.del k).find? j = m.find? j := by
  induction m with
  | nil => rfl
  | cons e t ih =>
    obtain ⟨a, b⟩ := e
    by_cases hk : k = a
    · subst hk; simp [Store.del, Store.find?, h, ih]
    · by_cases hj : j = a <;> simp [Store.del, Store.find?, hk, hj, ih]

/-- An inserted key is listed, where it was not before. -/
theorem Store.find_ins_same (m : Store α) (k : Nat) (v : α) (h : m.find? k = none) : (m.ins k v).find? k = some v := by
  induction m with
  | nil => simp [Store.ins, Store.find?]
  | cons e t ih =>
    obtain ⟨a, b⟩ := e
    by_cases hk : k = a
    · simp [Store.find?, hk] at h
    · simp only [Store.find?, hk, if_false] at h
      by_cases hl : k < a
      · simp [Store.ins, Store.find?, hl]
      · simp [Store.ins, Store.find?, hl, hk, ih h]

/-- Inserting a key leaves the others. -/
theorem Store.find_ins_other (m : Store α) {k j : Nat} (v : α) (h : j ≠ k) : (m.ins k v).find? j = m.find? j := by
  induction m with
  | nil => simp [Store.ins, Store.find?, h]
  | cons e t ih =>
    obtain ⟨a, b⟩ := e
    by_cases hl : k < a
    · simp [Store.ins, Store.find?, hl, h]
    · by_cases hj : j = a <;> simp [Store.ins, Store.find?, hl, hj, ih]

/-- A key reads as it was written. -/
@[simp] theorem Store.get_put_same [DecidableEq α] (m : Store α) (k : Nat) (v d : α) : (m.put k v d).get k d = v := by
  unfold Store.put Store.get
  by_cases h : v = d
  · simp [h, Store.find_del_same]
  · simp [h, Store.find_ins_same _ _ _ (Store.find_del_same m k)]

/-- Another key reads as before. -/
theorem Store.get_put_other [DecidableEq α] (m : Store α) {k j : Nat} (v d e : α) (h : j ≠ k) : (m.put k v d).get j e = m.get j e := by
  unfold Store.put Store.get
  by_cases hv : v = d <;> simp [hv, Store.find_ins_other _ _ h, Store.find_del_other _ h]

/-! ## The canonical form -/

/-- Keys that rise from a bound rise from a lower one. -/
theorem Store.sortedFrom_mono (m : Store α) {lo hi : Nat} (h : lo ≤ hi) (hm : Store.sortedFrom hi m = true) :
    Store.sortedFrom lo m = true := by
  cases m with
  | nil => rfl
  | cons e t =>
    obtain ⟨a, b⟩ := e
    simp [Store.sortedFrom] at hm ⊢
    exact ⟨by omega, hm.2⟩

/-- Deleting keeps the order. -/
theorem Store.sortedFrom_del (m : Store α) {lo : Nat} (k : Nat) (hm : Store.sortedFrom lo m = true) :
    Store.sortedFrom lo (m.del k) = true := by
  induction m generalizing lo with
  | nil => rfl
  | cons e t ih =>
    obtain ⟨a, b⟩ := e
    simp [Store.sortedFrom] at hm
    by_cases h : k = a
    · simp only [Store.del, h, if_true]
      exact Store.sortedFrom_mono _ (by omega) (h ▸ ih hm.2)
    · simp [Store.del, h, Store.sortedFrom, hm.1, ih hm.2]

/-- Inserting keeps the order, where the key was not listed. -/
theorem Store.sortedFrom_ins (m : Store α) {lo k : Nat} (v : α) (hk : lo ≤ k) (hn : m.find? k = none)
    (hm : Store.sortedFrom lo m = true) : Store.sortedFrom lo (m.ins k v) = true := by
  induction m generalizing lo with
  | nil => simp [Store.ins, Store.sortedFrom, hk]
  | cons e t ih =>
    obtain ⟨a, b⟩ := e
    simp [Store.sortedFrom] at hm
    by_cases h : k = a
    · simp [Store.find?, h] at hn
    · simp only [Store.find?, h, if_false] at hn
      by_cases hl : k < a
      · simp only [Store.ins, hl, if_true, Store.sortedFrom, Bool.and_eq_true, decide_eq_true_eq]
        exact ⟨hk, hl, hm.2⟩
      · simp [Store.ins, hl, Store.sortedFrom, hm.1]
        exact ih (by omega) hn hm.2

/-- The entries left by a deletion were there before. -/
theorem Store.mem_del (m : Store α) (k : Nat) {e : Nat × α} (h : e ∈ m.del k) : e ∈ m := by
  induction m with
  | nil => simp [Store.del] at h
  | cons x t ih =>
    obtain ⟨a, b⟩ := x
    by_cases hk : k = a
    · subst hk; simp only [Store.del, if_true] at h; exact List.mem_cons_of_mem _ (ih h)
    · simp only [Store.del, hk, if_false, List.mem_cons] at h ⊢
      exact h.imp id ih

/-- The entries after an insertion are those before and the new one. -/
theorem Store.mem_ins (m : Store α) (k : Nat) (v : α) {e : Nat × α} (h : e ∈ m.ins k v) : e = (k, v) ∨ e ∈ m := by
  induction m with
  | nil => simpa [Store.ins] using h
  | cons x t ih =>
    obtain ⟨a, b⟩ := x
    by_cases hl : k < a
    · simpa [Store.ins, hl] using h
    · simp only [Store.ins, hl, if_false, List.mem_cons] at h ⊢
      rcases h with h | h
      · exact .inr (.inl h)
      · exact (ih h).imp id .inr

/-- A write keeps the canonical form (the unlisted value of the key given with it). -/
theorem Store.wf_put [DecidableEq α] (f : Nat → α) (m : Store α) (k : Nat) (v : α) (h : Store.wf f m = true) :
    Store.wf f (m.put k v (f k)) = true := by
  simp only [Store.wf, Bool.and_eq_true, List.all_eq_true, decide_eq_true_eq] at h ⊢
  unfold Store.put
  by_cases hv : v = f k
  · simp only [hv, if_true]
    exact ⟨Store.sortedFrom_del _ _ h.1, fun e he => h.2 e (Store.mem_del _ _ he)⟩
  · simp only [hv, if_false]
    refine ⟨Store.sortedFrom_ins _ _ (Nat.zero_le _) (Store.find_del_same _ _) (Store.sortedFrom_del _ _ h.1), fun e he => ?_⟩
    rcases Store.mem_ins _ _ _ he with rfl | he
    · exact hv
    · exact h.2 e (Store.mem_del _ _ he)

end Sys2Proof.Machine
end

