-- ==== Sys2Proof/Laws/Regs.lean ====
section
/-!
SUPPORT. Laws of registers: what a register or a field reads as after the operations that write registers, and what those operations
leave alone.
-/
namespace Sys2Proof.Machine

/-! ## Bit fields -/

/-- The stored word in terms of the part above the field's foot. -/
theorem setBits_eq (n lo w v : Nat) :
    setBits n lo w v = n % 2 ^ lo + 2 ^ lo * (v % 2 ^ w + 2 ^ w * (n / 2 ^ (lo + w))) := by
  simp only [setBits, Nat.mul_add, Nat.pow_add, Nat.mul_assoc, Nat.add_assoc]

/-- Dividing away the bits below the field. -/
theorem setBits_div (n lo w v : Nat) : setBits n lo w v / 2 ^ lo = v % 2 ^ w + 2 ^ w * (n / 2 ^ (lo + w)) := by
  rw [setBits_eq, Nat.add_mul_div_left _ _ (Nat.two_pow_pos lo), Nat.div_eq_of_lt (Nat.mod_lt _ (Nat.two_pow_pos lo)), Nat.zero_add]

/-- A field reads back as what was stored in it. -/
@[simp] theorem bitsOf_setBits_same (n lo w v : Nat) : bitsOf (setBits n lo w v) lo w = v % 2 ^ w := by
  rw [bitsOf, setBits_div, Nat.add_mul_mod_self_left, Nat.mod_mod]

/-- A field below is untouched. -/
theorem bitsOf_setBits_below (n lo w v : Nat) {lo' w' : Nat} (h : lo' + w' ≤ lo) :
    bitsOf (setBits n lo w v) lo' w' = bitsOf n lo' w' := by
  have hd : (2 : Nat) ^ lo = 2 ^ (lo' + w') * 2 ^ (lo - (lo' + w')) := by rw [← Nat.pow_add]; congr 1; omega
  have key (x : Nat) : x / 2 ^ lo' % 2 ^ w' = x % 2 ^ (lo' + w') / 2 ^ lo' := by
    rw [Nat.pow_add, Nat.mod_mul_right_div_self]
  rw [bitsOf, bitsOf, key, key, setBits_eq]
  congr 1
  rw [hd, Nat.mul_assoc, Nat.add_mul_mod_self_left, ← hd, Nat.mod_mod_of_dvd _ ⟨_, hd⟩]

/-- A field above is untouched. -/
theorem bitsOf_setBits_above (n lo w v : Nat) {lo' w' : Nat} (h : lo + w ≤ lo') :
    bitsOf (setBits n lo w v) lo' w' = bitsOf n lo' w' := by
  have hd : (2 : Nat) ^ lo' = 2 ^ lo * (2 ^ w * 2 ^ (lo' - (lo + w))) := by rw [← Nat.pow_add, ← Nat.pow_add]; congr 1; omega
  have e : setBits n lo w v / 2 ^ lo' = n / 2 ^ lo' := by
    rw [hd, ← Nat.div_div_eq_div_mul, setBits_div, ← Nat.div_div_eq_div_mul, Nat.add_mul_div_left _ _ (Nat.two_pow_pos w),
      Nat.div_eq_of_lt (Nat.mod_lt _ (Nat.two_pow_pos w)), Nat.zero_add, Nat.pow_add, ← Nat.div_div_eq_div_mul,
      ← Nat.div_div_eq_div_mul, ← Nat.div_div_eq_div_mul]
  rw [bitsOf, bitsOf, e]

/-- A word stays a word. -/
theorem setBits_lt (n lo w v : Nat) {m : Nat} (hn : n < 2 ^ m) (h : lo + w ≤ m) : setBits n lo w v < 2 ^ m := by
  have hd : (2 : Nat) ^ m = 2 ^ (lo + w) * 2 ^ (m - (lo + w)) := by rw [← Nat.pow_add]; congr 1; omega
  have h1 : n % 2 ^ lo + 2 ^ lo * (v % 2 ^ w) < 2 ^ (lo + w) := by
    have a := Nat.mod_lt n (Nat.two_pow_pos lo)
    have b := Nat.mod_lt v (Nat.two_pow_pos w)
    calc n % 2 ^ lo + 2 ^ lo * (v % 2 ^ w) < 2 ^ lo + 2 ^ lo * (v % 2 ^ w) := by omega
      _ = 2 ^ lo * (v % 2 ^ w + 1) := by rw [Nat.mul_add, Nat.mul_one, Nat.add_comm]
      _ ≤ 2 ^ lo * 2 ^ w := Nat.mul_le_mul_left _ b
      _ = 2 ^ (lo + w) := (Nat.pow_add _ _ _).symm
  have h2 : n / 2 ^ (lo + w) < 2 ^ (m - (lo + w)) := Nat.div_lt_of_lt_mul (by rw [← hd]; exact hn)
  unfold setBits
  calc n % 2 ^ lo + 2 ^ lo * (v % 2 ^ w) + 2 ^ (lo + w) * (n / 2 ^ (lo + w))
      < 2 ^ (lo + w) + 2 ^ (lo + w) * (n / 2 ^ (lo + w)) := by omega
    _ = 2 ^ (lo + w) * (n / 2 ^ (lo + w) + 1) := by rw [Nat.mul_add, Nat.mul_one, Nat.add_comm]
    _ ≤ 2 ^ (lo + w) * 2 ^ (m - (lo + w)) := Nat.mul_le_mul_left _ h2
    _ = 2 ^ m := hd.symm

/-! ## Words -/

/-- A register reads as it was written. -/
@[simp] theorem State.rd_wr_same (s : State) (a : Nat) (v : Word) : (s.wr a v).rd a = v := by
  simp [State.rd, State.wr]

/-- Another register reads as before. -/
theorem State.rd_wr_other (s : State) {a b : Nat} (v : Word) (h : b ≠ a) : (s.wr a v).rd b = s.rd b := by
  simp [State.rd, State.wr, Store.get_put_other _ _ _ _ h]

/-! ## Fields -/

/-- A field reads as it was stored, within its width. -/
theorem State.get_set_same (s : State) (f : Fld) (v : Nat) (h : f.lo + f.w ≤ 32) : (s.set f v).get f = v % 2 ^ f.w := by
  have hb := setBits_lt (s.rd f.addr).toNat f.lo f.w v (m := 32) (s.rd f.addr).isLt h
  simp only [State.get, State.set, State.rd_wr_same, BitVec.toNat_ofNat, Nat.mod_eq_of_lt hb, bitsOf_setBits_same]

/-- A field of another register reads as before. -/
theorem State.get_set_other (s : State) (f g : Fld) (v : Nat) (h : g.addr ≠ f.addr) : (s.set f v).get g = s.get g := by
  simp [State.get, State.set, State.rd_wr_other _ _ h]

/-- Another field of the same register reads as before. -/
theorem State.get_set_disjoint (s : State) (f g : Fld) (v : Nat) (hf : f.lo + f.w ≤ 32)
    (h : g.lo + g.w ≤ f.lo ∨ f.lo + f.w ≤ g.lo) : (s.set f v).get g = s.get g := by
  by_cases ha : g.addr = f.addr
  · have hb := setBits_lt (s.rd f.addr).toNat f.lo f.w v (m := 32) (s.rd f.addr).isLt hf
    simp only [State.get, State.set, ha, State.rd_wr_same, BitVec.toNat_ofNat, Nat.mod_eq_of_lt hb]
    rcases h with h | h
    · exact bitsOf_setBits_below _ _ _ _ h
    · exact bitsOf_setBits_above _ _ _ _ h
  · exact State.get_set_other _ _ _ _ ha

/-- A register other than the field's reads as before. -/
theorem State.rd_set_other (s : State) (f : Fld) (v : Nat) {a : Nat} (h : a ≠ f.addr) : (s.set f v).rd a = s.rd a := by
  simp [State.set, State.rd_wr_other _ _ h]

/-- A count keeps the registers of other addresses. -/
theorem State.rd_count_other (s : State) (f : Fld) (n : Nat) {a : Nat} (h : a ≠ f.addr) : (s.count f n).rd a = s.rd a := by
  simp [State.count, State.rd_set_other _ _ _ h]

/-- An event touches only the latches of its page. -/
theorem State.rd_raise_other (s : State) (pg n : Nat) {a : Nat} (h1 : a ≠ HDR.IRQ_RAW pg) (h2 : a ≠ HDR.IRQ_PEND pg) :
    (s.raise pg n).rd a = s.rd a := by
  simp [State.raise, State.rd_wr_other _ _ h1, State.rd_wr_other _ _ h2]

/-! ## Errors and events (R43, R521) -/

/-- A field of a register other than the two latches of a page is untouched by an event of it. -/
theorem State.get_raise_other (s : State) (pg n : Nat) (f : Fld) (h1 : f.addr ≠ HDR.IRQ_RAW pg) (h2 : f.addr ≠ HDR.IRQ_PEND pg) :
    (s.raise pg n).get f = s.get f := by
  simp [State.get, State.rd_raise_other _ _ _ h1 h2]

/-- An event sets its bit of the raw latch. -/
theorem State.raise_raw (s : State) (pg n : Nat) :
    (s.raise pg n).rd (HDR.IRQ_RAW pg) = s.rd (HDR.IRQ_RAW pg) ||| BitVec.ofNat 32 (2 ^ n) := by
  have h : HDR.IRQ_RAW pg ≠ HDR.IRQ_PEND pg := by simp [HDR.IRQ_RAW, HDR.IRQ_PEND]
  simp [State.raise, State.rd_wr_other _ _ h]

/-- An event sets its bit of the pending latch. -/
theorem State.raise_pend (s : State) (pg n : Nat) :
    (s.raise pg n).rd (HDR.IRQ_PEND pg) = s.rd (HDR.IRQ_PEND pg) ||| BitVec.ofNat 32 (2 ^ n) := by
  have h : HDR.IRQ_PEND pg ≠ HDR.IRQ_RAW pg := by simp [HDR.IRQ_RAW, HDR.IRQ_PEND]
  simp [State.raise, State.rd_wr_other _ _ h]

/-- A field of another register is untouched by a count. -/
theorem State.get_count_other (s : State) (f g : Fld) (n : Nat) (h : g.addr ≠ f.addr) : (s.count f n).get g = s.get g := by
  simp [State.count, State.get_set_other _ _ _ _ h]

/-- A count holds at its maximum. -/
theorem State.get_count_same (s : State) (f : Fld) (n : Nat) (h : f.lo + f.w ≤ 32) :
    (s.count f n).get f = min (s.get f + n) (2 ^ f.w - 1) := by
  have : 0 < 2 ^ f.w := Nat.two_pow_pos _
  rw [State.count, State.get_set_same _ _ _ h, Nat.mod_eq_of_lt (by omega)]

/-- A logged error leaves its code. -/
theorem State.logErr_code (s : State) (pg c a : Nat) : (s.logErr pg c a).get (HDR.ERR_CODE_code pg) = c % 2 ^ 8 := by
  have h1 : HDR.ERR_CODE pg ≠ HDR.IRQ_RAW pg := by simp [HDR.IRQ_RAW, HDR.ERR_CODE]
  have h2 : HDR.ERR_CODE pg ≠ HDR.IRQ_PEND pg := by simp [HDR.IRQ_PEND, HDR.ERR_CODE]
  have h3 : HDR.ERR_CODE pg ≠ HDR.ERR_ADDR pg := by simp [HDR.ERR_ADDR, HDR.ERR_CODE]
  rw [State.logErr, State.get_raise_other _ _ _ _ h1 h2, State.get_set_other _ _ _ _ h3, State.count,
    State.get_set_disjoint _ (HDR.ERR_CODE_count pg) _ _ (by simp [HDR.ERR_CODE_count]) (.inl (by simp [HDR.ERR_CODE_count, HDR.ERR_CODE_code])),
    State.get_set_same _ (HDR.ERR_CODE_code pg) _ (by simp [HDR.ERR_CODE_code])]
  rfl

/-- A logged error leaves its address. -/
theorem State.logErr_addr (s : State) (pg c a : Nat) : (s.logErr pg c a).get (HDR.ERR_ADDR_addr pg) = a % 2 ^ 32 := by
  have h1 : HDR.ERR_ADDR pg ≠ HDR.IRQ_RAW pg := by simp [HDR.IRQ_RAW, HDR.ERR_ADDR]
  have h2 : HDR.ERR_ADDR pg ≠ HDR.IRQ_PEND pg := by simp [HDR.IRQ_PEND, HDR.ERR_ADDR]
  rw [State.logErr, State.get_raise_other _ _ _ _ h1 h2, State.get_set_same _ _ _ (by decide : 0 + 32 ≤ 32)]
  rfl

/-- A logged error is counted. -/
theorem State.logErr_count (s : State) (pg c a : Nat) :
    (s.logErr pg c a).get (HDR.ERR_CODE_count pg) = min (s.get (HDR.ERR_CODE_count pg) + 1) 255 := by
  have h1 : HDR.ERR_CODE pg ≠ HDR.IRQ_RAW pg := by simp [HDR.IRQ_RAW, HDR.ERR_CODE]
  have h2 : HDR.ERR_CODE pg ≠ HDR.IRQ_PEND pg := by simp [HDR.IRQ_PEND, HDR.ERR_CODE]
  have h3 : HDR.ERR_CODE pg ≠ HDR.ERR_ADDR pg := by simp [HDR.ERR_ADDR, HDR.ERR_CODE]
  rw [State.logErr, State.get_raise_other _ _ _ _ h1 h2, State.get_set_other _ _ _ _ h3,
    State.get_count_same _ (HDR.ERR_CODE_count pg) _ (by simp [HDR.ERR_CODE_count]),
    State.get_set_disjoint _ (HDR.ERR_CODE_code pg) _ _ (by simp [HDR.ERR_CODE_code]) (.inr (by simp [HDR.ERR_CODE_count, HDR.ERR_CODE_code]))]
  rfl

/-- A logged error touches four registers of its page only. -/
theorem State.rd_logErr_other (s : State) (pg c a : Nat) {b : Nat} (h1 : b ≠ HDR.ERR_CODE pg) (h2 : b ≠ HDR.ERR_ADDR pg)
    (h3 : b ≠ HDR.IRQ_RAW pg) (h4 : b ≠ HDR.IRQ_PEND pg) : (s.logErr pg c a).rd b = s.rd b := by
  rw [State.logErr, State.rd_raise_other _ _ _ h3 h4, State.rd_set_other _ (HDR.ERR_ADDR_addr pg) _ h2,
    State.rd_count_other _ (HDR.ERR_CODE_count pg) _ h1, State.rd_set_other _ (HDR.ERR_CODE_code pg) _ h1]
  rfl

/-- A field of any other register is untouched by a logged error. -/
theorem State.get_logErr_other (s : State) (pg c a : Nat) (f : Fld) (h1 : f.addr ≠ HDR.ERR_CODE pg) (h2 : f.addr ≠ HDR.ERR_ADDR pg)
    (h3 : f.addr ≠ HDR.IRQ_RAW pg) (h4 : f.addr ≠ HDR.IRQ_PEND pg) : (s.logErr pg c a).get f = s.get f := by
  simp [State.get, State.rd_logErr_other _ _ _ _ h1 h2 h3 h4]

end Sys2Proof.Machine
end

