-- ==== Sys2Proof/Laws/State.lean ====
section
/-!
SUPPORT. What each basic update of the state leaves alone: one law per update and field, so that no proof unfolds a record update.
-/
namespace Sys2Proof.Machine

variable (s : State)


/-! ### wr -/

@[simp] theorem State.wr_pending (a : Nat) (v : Word) : (s.wr a v).pending = s.pending := rfl
@[simp] theorem State.wr_now (a : Nat) (v : Word) : (s.wr a v).now = s.now := rfl
@[simp] theorem State.wr_dev (a : Nat) (v : Word) : (s.wr a v).dev = s.dev := rfl
@[simp] theorem State.wr_refclk (a : Nat) (v : Word) : (s.wr a v).refclk = s.refclk := rfl
@[simp] theorem State.wr_mem (a : Nat) (v : Word) : (s.wr a v).mem = s.mem := rfl
@[simp] theorem State.wr_upsets (a : Nat) (v : Word) : (s.wr a v).upsets = s.upsets := rfl
@[simp] theorem State.wr_poison (a : Nat) (v : Word) : (s.wr a v).poison = s.poison := rfl
@[simp] theorem State.wr_otp (a : Nat) (v : Word) : (s.wr a v).otp = s.otp := rfl
@[simp] theorem State.wr_drawn (a : Nat) (v : Word) : (s.wr a v).drawn = s.drawn := rfl
@[simp] theorem State.wr_shadow (a : Nat) (v : Word) : (s.wr a v).shadow = s.shadow := rfl
@[simp] theorem State.wr_stage (a : Nat) (v : Word) : (s.wr a v).stage = s.stage := rfl
@[simp] theorem State.wr_resp (a : Nat) (v : Word) : (s.wr a v).resp = s.resp := rfl
@[simp] theorem State.wr_logged (a : Nat) (v : Word) : (s.wr a v).logged = s.logged := rfl
@[simp] theorem State.wr_stalled (a : Nat) (v : Word) : (s.wr a v).stalled = s.stalled := rfl
@[simp] theorem State.wr_gpioPins (a : Nat) (v : Word) : (s.wr a v).gpioPins = s.gpioPins := rfl
@[simp] theorem State.wr_timer (a : Nat) (v : Word) : (s.wr a v).timer = s.timer := rfl
@[simp] theorem State.wr_pwr (a : Nat) (v : Word) : (s.wr a v).pwr = s.pwr := rfl
@[simp] theorem State.wr_rst (a : Nat) (v : Word) : (s.wr a v).rst = s.rst := rfl
@[simp] theorem State.wr_sec (a : Nat) (v : Word) : (s.wr a v).sec = s.sec := rfl
@[simp] theorem State.wr_cores (a : Nat) (v : Word) : (s.wr a v).cores = s.cores := rfl
@[simp] theorem State.wr_cru (a : Nat) (v : Word) : (s.wr a v).cru = s.cru := rfl
@[simp] theorem State.wr_mgmt (a : Nat) (v : Word) : (s.wr a v).mgmt = s.mgmt := rfl
@[simp] theorem State.wr_irqnWriter (a : Nat) (v : Word) : (s.wr a v).irqnWriter = s.irqnWriter := rfl
@[simp] theorem State.wr_timedOut (a : Nat) (v : Word) : (s.wr a v).timedOut = s.timedOut := rfl
@[simp] theorem State.wr_portSt (a : Nat) (v : Word) : (s.wr a v).portSt = s.portSt := rfl
@[simp] theorem State.wr_laneSt (a : Nat) (v : Word) : (s.wr a v).laneSt = s.laneSt := rfl
@[simp] theorem State.wr_prbsSt (a : Nat) (v : Word) : (s.wr a v).prbsSt = s.prbsSt := rfl
@[simp] theorem State.wr_thm (a : Nat) (v : Word) : (s.wr a v).thm = s.thm := rfl
@[simp] theorem State.wr_mgt (a : Nat) (v : Word) : (s.wr a v).mgt = s.mgt := rfl
@[simp] theorem State.wr_jtag (a : Nat) (v : Word) : (s.wr a v).jtag = s.jtag := rfl
@[simp] theorem State.wr_cells (a : Nat) (v : Word) : (s.wr a v).cells = s.cells := rfl
@[simp] theorem State.wr_scl (a : Nat) (v : Word) : (s.wr a v).scl = s.scl := rfl
@[simp] theorem State.wr_link (a : Nat) (v : Word) : (s.wr a v).link = s.link := rfl
@[simp] theorem State.wr_bias (a : Nat) (v : Word) : (s.wr a v).bias = s.bias := rfl
@[simp] theorem State.wr_auxTick (a : Nat) (v : Word) : (s.wr a v).auxTick = s.auxTick := rfl
@[simp] theorem State.wr_prtPaths (a : Nat) (v : Word) : (s.wr a v).prtPaths = s.prtPaths := rfl
@[simp] theorem State.wr_pair (a : Nat) (v : Word) : (s.wr a v).pair = s.pair := rfl
@[simp] theorem State.wr_tx (a : Nat) (v : Word) : (s.wr a v).tx = s.tx := rfl
@[simp] theorem State.wr_dpd (a : Nat) (v : Word) : (s.wr a v).dpd = s.dpd := rfl
@[simp] theorem State.wr_reload (a : Nat) (v : Word) : (s.wr a v).reload = s.reload := rfl
@[simp] theorem State.wr_staged (a : Nat) (v : Word) : (s.wr a v).staged = s.staged := rfl
@[simp] theorem State.wr_capture (a : Nat) (v : Word) : (s.wr a v).capture = s.capture := rfl
@[simp] theorem State.wr_rx (a : Nat) (v : Word) : (s.wr a v).rx = s.rx := rfl
@[simp] theorem State.wr_bf (a : Nat) (v : Word) : (s.wr a v).bf = s.bf := rfl
@[simp] theorem State.wr_cnv (a : Nat) (v : Word) : (s.wr a v).cnv = s.cnv := rfl
@[simp] theorem State.wr_rxSlices (a : Nat) (v : Word) : (s.wr a v).rxSlices = s.rxSlices := rfl
@[simp] theorem State.wr_txSlices (a : Nat) (v : Word) : (s.wr a v).txSlices = s.txSlices := rfl
@[simp] theorem State.wr_eff (a : Nat) (v : Word) : (s.wr a v).eff = s.eff := rfl
@[simp] theorem State.wr_chans (a : Nat) (v : Word) : (s.wr a v).chans = s.chans := rfl
@[simp] theorem State.wr_yLast (a : Nat) (v : Word) : (s.wr a v).yLast = s.yLast := rfl
@[simp] theorem State.byte_wr (a : Nat) (v : Word) (x : Nat) : (s.wr a v).byte x = s.byte x := by simp [State.byte]

/-! ### set -/

@[simp] theorem State.set_pending (f : Fld) (v : Nat) : (s.set f v).pending = s.pending := by simp [State.set]
@[simp] theorem State.set_now (f : Fld) (v : Nat) : (s.set f v).now = s.now := by simp [State.set]
@[simp] theorem State.set_dev (f : Fld) (v : Nat) : (s.set f v).dev = s.dev := by simp [State.set]
@[simp] theorem State.set_refclk (f : Fld) (v : Nat) : (s.set f v).refclk = s.refclk := by simp [State.set]
@[simp] theorem State.set_mem (f : Fld) (v : Nat) : (s.set f v).mem = s.mem := by simp [State.set]
@[simp] theorem State.set_upsets (f : Fld) (v : Nat) : (s.set f v).upsets = s.upsets := by simp [State.set]
@[simp] theorem State.set_poison (f : Fld) (v : Nat) : (s.set f v).poison = s.poison := by simp [State.set]
@[simp] theorem State.set_otp (f : Fld) (v : Nat) : (s.set f v).otp = s.otp := by simp [State.set]
@[simp] theorem State.set_drawn (f : Fld) (v : Nat) : (s.set f v).drawn = s.drawn := by simp [State.set]
@[simp] theorem State.set_shadow (f : Fld) (v : Nat) : (s.set f v).shadow = s.shadow := by simp [State.set]
@[simp] theorem State.set_stage (f : Fld) (v : Nat) : (s.set f v).stage = s.stage := by simp [State.set]
@[simp] theorem State.set_resp (f : Fld) (v : Nat) : (s.set f v).resp = s.resp := by simp [State.set]
@[simp] theorem State.set_logged (f : Fld) (v : Nat) : (s.set f v).logged = s.logged := by simp [State.set]
@[simp] theorem State.set_stalled (f : Fld) (v : Nat) : (s.set f v).stalled = s.stalled := by simp [State.set]
@[simp] theorem State.set_gpioPins (f : Fld) (v : Nat) : (s.set f v).gpioPins = s.gpioPins := by simp [State.set]
@[simp] theorem State.set_timer (f : Fld) (v : Nat) : (s.set f v).timer = s.timer := by simp [State.set]
@[simp] theorem State.set_pwr (f : Fld) (v : Nat) : (s.set f v).pwr = s.pwr := by simp [State.set]
@[simp] theorem State.set_rst (f : Fld) (v : Nat) : (s.set f v).rst = s.rst := by simp [State.set]
@[simp] theorem State.set_sec (f : Fld) (v : Nat) : (s.set f v).sec = s.sec := by simp [State.set]
@[simp] theorem State.set_cores (f : Fld) (v : Nat) : (s.set f v).cores = s.cores := by simp [State.set]
@[simp] theorem State.set_cru (f : Fld) (v : Nat) : (s.set f v).cru = s.cru := by simp [State.set]
@[simp] theorem State.set_mgmt (f : Fld) (v : Nat) : (s.set f v).mgmt = s.mgmt := by simp [State.set]
@[simp] theorem State.set_irqnWriter (f : Fld) (v : Nat) : (s.set f v).irqnWriter = s.irqnWriter := by simp [State.set]
@[simp] theorem State.set_timedOut (f : Fld) (v : Nat) : (s.set f v).timedOut = s.timedOut := by simp [State.set]
@[simp] theorem State.set_portSt (f : Fld) (v : Nat) : (s.set f v).portSt = s.portSt := by simp [State.set]
@[simp] theorem State.set_laneSt (f : Fld) (v : Nat) : (s.set f v).laneSt = s.laneSt := by simp [State.set]
@[simp] theorem State.set_prbsSt (f : Fld) (v : Nat) : (s.set f v).prbsSt = s.prbsSt := by simp [State.set]
@[simp] theorem State.set_thm (f : Fld) (v : Nat) : (s.set f v).thm = s.thm := by simp [State.set]
@[simp] theorem State.set_mgt (f : Fld) (v : Nat) : (s.set f v).mgt = s.mgt := by simp [State.set]
@[simp] theorem State.set_jtag (f : Fld) (v : Nat) : (s.set f v).jtag = s.jtag := by simp [State.set]
@[simp] theorem State.set_cells (f : Fld) (v : Nat) : (s.set f v).cells = s.cells := by simp [State.set]
@[simp] theorem State.set_scl (f : Fld) (v : Nat) : (s.set f v).scl = s.scl := by simp [State.set]
@[simp] theorem State.set_link (f : Fld) (v : Nat) : (s.set f v).link = s.link := by simp [State.set]
@[simp] theorem State.set_bias (f : Fld) (v : Nat) : (s.set f v).bias = s.bias := by simp [State.set]
@[simp] theorem State.set_auxTick (f : Fld) (v : Nat) : (s.set f v).auxTick = s.auxTick := by simp [State.set]
@[simp] theorem State.set_prtPaths (f : Fld) (v : Nat) : (s.set f v).prtPaths = s.prtPaths := by simp [State.set]
@[simp] theorem State.set_pair (f : Fld) (v : Nat) : (s.set f v).pair = s.pair := by simp [State.set]
@[simp] theorem State.set_tx (f : Fld) (v : Nat) : (s.set f v).tx = s.tx := by simp [State.set]
@[simp] theorem State.set_dpd (f : Fld) (v : Nat) : (s.set f v).dpd = s.dpd := by simp [State.set]
@[simp] theorem State.set_reload (f : Fld) (v : Nat) : (s.set f v).reload = s.reload := by simp [State.set]
@[simp] theorem State.set_staged (f : Fld) (v : Nat) : (s.set f v).staged = s.staged := by simp [State.set]
@[simp] theorem State.set_capture (f : Fld) (v : Nat) : (s.set f v).capture = s.capture := by simp [State.set]
@[simp] theorem State.set_rx (f : Fld) (v : Nat) : (s.set f v).rx = s.rx := by simp [State.set]
@[simp] theorem State.set_bf (f : Fld) (v : Nat) : (s.set f v).bf = s.bf := by simp [State.set]
@[simp] theorem State.set_cnv (f : Fld) (v : Nat) : (s.set f v).cnv = s.cnv := by simp [State.set]
@[simp] theorem State.set_rxSlices (f : Fld) (v : Nat) : (s.set f v).rxSlices = s.rxSlices := by simp [State.set]
@[simp] theorem State.set_txSlices (f : Fld) (v : Nat) : (s.set f v).txSlices = s.txSlices := by simp [State.set]
@[simp] theorem State.set_eff (f : Fld) (v : Nat) : (s.set f v).eff = s.eff := by simp [State.set]
@[simp] theorem State.set_chans (f : Fld) (v : Nat) : (s.set f v).chans = s.chans := by simp [State.set]
@[simp] theorem State.set_yLast (f : Fld) (v : Nat) : (s.set f v).yLast = s.yLast := by simp [State.set]
@[simp] theorem State.byte_set (f : Fld) (v : Nat) (x : Nat) : (s.set f v).byte x = s.byte x := by simp [State.byte]

/-! ### setFlag -/

@[simp] theorem State.setFlag_pending (f : Fld) (b : Bool) : (s.setFlag f b).pending = s.pending := by simp [State.setFlag]
@[simp] theorem State.setFlag_now (f : Fld) (b : Bool) : (s.setFlag f b).now = s.now := by simp [State.setFlag]
@[simp] theorem State.setFlag_dev (f : Fld) (b : Bool) : (s.setFlag f b).dev = s.dev := by simp [State.setFlag]
@[simp] theorem State.setFlag_refclk (f : Fld) (b : Bool) : (s.setFlag f b).refclk = s.refclk := by simp [State.setFlag]
@[simp] theorem State.setFlag_mem (f : Fld) (b : Bool) : (s.setFlag f b).mem = s.mem := by simp [State.setFlag]
@[simp] theorem State.setFlag_upsets (f : Fld) (b : Bool) : (s.setFlag f b).upsets = s.upsets := by simp [State.setFlag]
@[simp] theorem State.setFlag_poison (f : Fld) (b : Bool) : (s.setFlag f b).poison = s.poison := by simp [State.setFlag]
@[simp] theorem State.setFlag_otp (f : Fld) (b : Bool) : (s.setFlag f b).otp = s.otp := by simp [State.setFlag]
@[simp] theorem State.setFlag_drawn (f : Fld) (b : Bool) : (s.setFlag f b).drawn = s.drawn := by simp [State.setFlag]
@[simp] theorem State.setFlag_shadow (f : Fld) (b : Bool) : (s.setFlag f b).shadow = s.shadow := by simp [State.setFlag]
@[simp] theorem State.setFlag_stage (f : Fld) (b : Bool) : (s.setFlag f b).stage = s.stage := by simp [State.setFlag]
@[simp] theorem State.setFlag_resp (f : Fld) (b : Bool) : (s.setFlag f b).resp = s.resp := by simp [State.setFlag]
@[simp] theorem State.setFlag_logged (f : Fld) (b : Bool) : (s.setFlag f b).logged = s.logged := by simp [State.setFlag]
@[simp] theorem State.setFlag_stalled (f : Fld) (b : Bool) : (s.setFlag f b).stalled = s.stalled := by simp [State.setFlag]
@[simp] theorem State.setFlag_gpioPins (f : Fld) (b : Bool) : (s.setFlag f b).gpioPins = s.gpioPins := by simp [State.setFlag]
@[simp] theorem State.setFlag_timer (f : Fld) (b : Bool) : (s.setFlag f b).timer = s.timer := by simp [State.setFlag]
@[simp] theorem State.setFlag_pwr (f : Fld) (b : Bool) : (s.setFlag f b).pwr = s.pwr := by simp [State.setFlag]
@[simp] theorem State.setFlag_rst (f : Fld) (b : Bool) : (s.setFlag f b).rst = s.rst := by simp [State.setFlag]
@[simp] theorem State.setFlag_sec (f : Fld) (b : Bool) : (s.setFlag f b).sec = s.sec := by simp [State.setFlag]
@[simp] theorem State.setFlag_cores (f : Fld) (b : Bool) : (s.setFlag f b).cores = s.cores := by simp [State.setFlag]
@[simp] theorem State.setFlag_cru (f : Fld) (b : Bool) : (s.setFlag f b).cru = s.cru := by simp [State.setFlag]
@[simp] theorem State.setFlag_mgmt (f : Fld) (b : Bool) : (s.setFlag f b).mgmt = s.mgmt := by simp [State.setFlag]
@[simp] theorem State.setFlag_irqnWriter (f : Fld) (b : Bool) : (s.setFlag f b).irqnWriter = s.irqnWriter := by simp [State.setFlag]
@[simp] theorem State.setFlag_timedOut (f : Fld) (b : Bool) : (s.setFlag f b).timedOut = s.timedOut := by simp [State.setFlag]
@[simp] theorem State.setFlag_portSt (f : Fld) (b : Bool) : (s.setFlag f b).portSt = s.portSt := by simp [State.setFlag]
@[simp] theorem State.setFlag_laneSt (f : Fld) (b : Bool) : (s.setFlag f b).laneSt = s.laneSt := by simp [State.setFlag]
@[simp] theorem State.setFlag_prbsSt (f : Fld) (b : Bool) : (s.setFlag f b).prbsSt = s.prbsSt := by simp [State.setFlag]
@[simp] theorem State.setFlag_thm (f : Fld) (b : Bool) : (s.setFlag f b).thm = s.thm := by simp [State.setFlag]
@[simp] theorem State.setFlag_mgt (f : Fld) (b : Bool) : (s.setFlag f b).mgt = s.mgt := by simp [State.setFlag]
@[simp] theorem State.setFlag_jtag (f : Fld) (b : Bool) : (s.setFlag f b).jtag = s.jtag := by simp [State.setFlag]
@[simp] theorem State.setFlag_cells (f : Fld) (b : Bool) : (s.setFlag f b).cells = s.cells := by simp [State.setFlag]
@[simp] theorem State.setFlag_scl (f : Fld) (b : Bool) : (s.setFlag f b).scl = s.scl := by simp [State.setFlag]
@[simp] theorem State.setFlag_link (f : Fld) (b : Bool) : (s.setFlag f b).link = s.link := by simp [State.setFlag]
@[simp] theorem State.setFlag_bias (f : Fld) (b : Bool) : (s.setFlag f b).bias = s.bias := by simp [State.setFlag]
@[simp] theorem State.setFlag_auxTick (f : Fld) (b : Bool) : (s.setFlag f b).auxTick = s.auxTick := by simp [State.setFlag]
@[simp] theorem State.setFlag_prtPaths (f : Fld) (b : Bool) : (s.setFlag f b).prtPaths = s.prtPaths := by simp [State.setFlag]
@[simp] theorem State.setFlag_pair (f : Fld) (b : Bool) : (s.setFlag f b).pair = s.pair := by simp [State.setFlag]
@[simp] theorem State.setFlag_tx (f : Fld) (b : Bool) : (s.setFlag f b).tx = s.tx := by simp [State.setFlag]
@[simp] theorem State.setFlag_dpd (f : Fld) (b : Bool) : (s.setFlag f b).dpd = s.dpd := by simp [State.setFlag]
@[simp] theorem State.setFlag_reload (f : Fld) (b : Bool) : (s.setFlag f b).reload = s.reload := by simp [State.setFlag]
@[simp] theorem State.setFlag_staged (f : Fld) (b : Bool) : (s.setFlag f b).staged = s.staged := by simp [State.setFlag]
@[simp] theorem State.setFlag_capture (f : Fld) (b : Bool) : (s.setFlag f b).capture = s.capture := by simp [State.setFlag]
@[simp] theorem State.setFlag_rx (f : Fld) (b : Bool) : (s.setFlag f b).rx = s.rx := by simp [State.setFlag]
@[simp] theorem State.setFlag_bf (f : Fld) (b : Bool) : (s.setFlag f b).bf = s.bf := by simp [State.setFlag]
@[simp] theorem State.setFlag_cnv (f : Fld) (b : Bool) : (s.setFlag f b).cnv = s.cnv := by simp [State.setFlag]
@[simp] theorem State.setFlag_rxSlices (f : Fld) (b : Bool) : (s.setFlag f b).rxSlices = s.rxSlices := by simp [State.setFlag]
@[simp] theorem State.setFlag_txSlices (f : Fld) (b : Bool) : (s.setFlag f b).txSlices = s.txSlices := by simp [State.setFlag]
@[simp] theorem State.setFlag_eff (f : Fld) (b : Bool) : (s.setFlag f b).eff = s.eff := by simp [State.setFlag]
@[simp] theorem State.setFlag_chans (f : Fld) (b : Bool) : (s.setFlag f b).chans = s.chans := by simp [State.setFlag]
@[simp] theorem State.setFlag_yLast (f : Fld) (b : Bool) : (s.setFlag f b).yLast = s.yLast := by simp [State.setFlag]
@[simp] theorem State.byte_setFlag (f : Fld) (b : Bool) (x : Nat) : (s.setFlag f b).byte x = s.byte x := by simp [State.byte]

/-! ### count -/

@[simp] theorem State.count_pending (f : Fld) (n : Nat) : (s.count f n).pending = s.pending := by simp [State.count]
@[simp] theorem State.count_now (f : Fld) (n : Nat) : (s.count f n).now = s.now := by simp [State.count]
@[simp] theorem State.count_dev (f : Fld) (n : Nat) : (s.count f n).dev = s.dev := by simp [State.count]
@[simp] theorem State.count_refclk (f : Fld) (n : Nat) : (s.count f n).refclk = s.refclk := by simp [State.count]
@[simp] theorem State.count_mem (f : Fld) (n : Nat) : (s.count f n).mem = s.mem := by simp [State.count]
@[simp] theorem State.count_upsets (f : Fld) (n : Nat) : (s.count f n).upsets = s.upsets := by simp [State.count]
@[simp] theorem State.count_poison (f : Fld) (n : Nat) : (s.count f n).poison = s.poison := by simp [State.count]
@[simp] theorem State.count_otp (f : Fld) (n : Nat) : (s.count f n).otp = s.otp := by simp [State.count]
@[simp] theorem State.count_drawn (f : Fld) (n : Nat) : (s.count f n).drawn = s.drawn := by simp [State.count]
@[simp] theorem State.count_shadow (f : Fld) (n : Nat) : (s.count f n).shadow = s.shadow := by simp [State.count]
@[simp] theorem State.count_stage (f : Fld) (n : Nat) : (s.count f n).stage = s.stage := by simp [State.count]
@[simp] theorem State.count_resp (f : Fld) (n : Nat) : (s.count f n).resp = s.resp := by simp [State.count]
@[simp] theorem State.count_logged (f : Fld) (n : Nat) : (s.count f n).logged = s.logged := by simp [State.count]
@[simp] theorem State.count_stalled (f : Fld) (n : Nat) : (s.count f n).stalled = s.stalled := by simp [State.count]
@[simp] theorem State.count_gpioPins (f : Fld) (n : Nat) : (s.count f n).gpioPins = s.gpioPins := by simp [State.count]
@[simp] theorem State.count_timer (f : Fld) (n : Nat) : (s.count f n).timer = s.timer := by simp [State.count]
@[simp] theorem State.count_pwr (f : Fld) (n : Nat) : (s.count f n).pwr = s.pwr := by simp [State.count]
@[simp] theorem State.count_rst (f : Fld) (n : Nat) : (s.count f n).rst = s.rst := by simp [State.count]
@[simp] theorem State.count_sec (f : Fld) (n : Nat) : (s.count f n).sec = s.sec := by simp [State.count]
@[simp] theorem State.count_cores (f : Fld) (n : Nat) : (s.count f n).cores = s.cores := by simp [State.count]
@[simp] theorem State.count_cru (f : Fld) (n : Nat) : (s.count f n).cru = s.cru := by simp [State.count]
@[simp] theorem State.count_mgmt (f : Fld) (n : Nat) : (s.count f n).mgmt = s.mgmt := by simp [State.count]
@[simp] theorem State.count_irqnWriter (f : Fld) (n : Nat) : (s.count f n).irqnWriter = s.irqnWriter := by simp [State.count]
@[simp] theorem State.count_timedOut (f : Fld) (n : Nat) : (s.count f n).timedOut = s.timedOut := by simp [State.count]
@[simp] theorem State.count_portSt (f : Fld) (n : Nat) : (s.count f n).portSt = s.portSt := by simp [State.count]
@[simp] theorem State.count_laneSt (f : Fld) (n : Nat) : (s.count f n).laneSt = s.laneSt := by simp [State.count]
@[simp] theorem State.count_prbsSt (f : Fld) (n : Nat) : (s.count f n).prbsSt = s.prbsSt := by simp [State.count]
@[simp] theorem State.count_thm (f : Fld) (n : Nat) : (s.count f n).thm = s.thm := by simp [State.count]
@[simp] theorem State.count_mgt (f : Fld) (n : Nat) : (s.count f n).mgt = s.mgt := by simp [State.count]
@[simp] theorem State.count_jtag (f : Fld) (n : Nat) : (s.count f n).jtag = s.jtag := by simp [State.count]
@[simp] theorem State.count_cells (f : Fld) (n : Nat) : (s.count f n).cells = s.cells := by simp [State.count]
@[simp] theorem State.count_scl (f : Fld) (n : Nat) : (s.count f n).scl = s.scl := by simp [State.count]
@[simp] theorem State.count_link (f : Fld) (n : Nat) : (s.count f n).link = s.link := by simp [State.count]
@[simp] theorem State.count_bias (f : Fld) (n : Nat) : (s.count f n).bias = s.bias := by simp [State.count]
@[simp] theorem State.count_auxTick (f : Fld) (n : Nat) : (s.count f n).auxTick = s.auxTick := by simp [State.count]
@[simp] theorem State.count_prtPaths (f : Fld) (n : Nat) : (s.count f n).prtPaths = s.prtPaths := by simp [State.count]
@[simp] theorem State.count_pair (f : Fld) (n : Nat) : (s.count f n).pair = s.pair := by simp [State.count]
@[simp] theorem State.count_tx (f : Fld) (n : Nat) : (s.count f n).tx = s.tx := by simp [State.count]
@[simp] theorem State.count_dpd (f : Fld) (n : Nat) : (s.count f n).dpd = s.dpd := by simp [State.count]
@[simp] theorem State.count_reload (f : Fld) (n : Nat) : (s.count f n).reload = s.reload := by simp [State.count]
@[simp] theorem State.count_staged (f : Fld) (n : Nat) : (s.count f n).staged = s.staged := by simp [State.count]
@[simp] theorem State.count_capture (f : Fld) (n : Nat) : (s.count f n).capture = s.capture := by simp [State.count]
@[simp] theorem State.count_rx (f : Fld) (n : Nat) : (s.count f n).rx = s.rx := by simp [State.count]
@[simp] theorem State.count_bf (f : Fld) (n : Nat) : (s.count f n).bf = s.bf := by simp [State.count]
@[simp] theorem State.count_cnv (f : Fld) (n : Nat) : (s.count f n).cnv = s.cnv := by simp [State.count]
@[simp] theorem State.count_rxSlices (f : Fld) (n : Nat) : (s.count f n).rxSlices = s.rxSlices := by simp [State.count]
@[simp] theorem State.count_txSlices (f : Fld) (n : Nat) : (s.count f n).txSlices = s.txSlices := by simp [State.count]
@[simp] theorem State.count_eff (f : Fld) (n : Nat) : (s.count f n).eff = s.eff := by simp [State.count]
@[simp] theorem State.count_chans (f : Fld) (n : Nat) : (s.count f n).chans = s.chans := by simp [State.count]
@[simp] theorem State.count_yLast (f : Fld) (n : Nat) : (s.count f n).yLast = s.yLast := by simp [State.count]
@[simp] theorem State.byte_count (f : Fld) (n : Nat) (x : Nat) : (s.count f n).byte x = s.byte x := by simp [State.byte]

/-! ### wr64 -/

@[simp] theorem State.wr64_pending (a v : Nat) : (s.wr64 a v).pending = s.pending := by simp [State.wr64]
@[simp] theorem State.wr64_now (a v : Nat) : (s.wr64 a v).now = s.now := by simp [State.wr64]
@[simp] theorem State.wr64_dev (a v : Nat) : (s.wr64 a v).dev = s.dev := by simp [State.wr64]
@[simp] theorem State.wr64_refclk (a v : Nat) : (s.wr64 a v).refclk = s.refclk := by simp [State.wr64]
@[simp] theorem State.wr64_mem (a v : Nat) : (s.wr64 a v).mem = s.mem := by simp [State.wr64]
@[simp] theorem State.wr64_upsets (a v : Nat) : (s.wr64 a v).upsets = s.upsets := by simp [State.wr64]
@[simp] theorem State.wr64_poison (a v : Nat) : (s.wr64 a v).poison = s.poison := by simp [State.wr64]
@[simp] theorem State.wr64_otp (a v : Nat) : (s.wr64 a v).otp = s.otp := by simp [State.wr64]
@[simp] theorem State.wr64_drawn (a v : Nat) : (s.wr64 a v).drawn = s.drawn := by simp [State.wr64]
@[simp] theorem State.wr64_shadow (a v : Nat) : (s.wr64 a v).shadow = s.shadow := by simp [State.wr64]
@[simp] theorem State.wr64_stage (a v : Nat) : (s.wr64 a v).stage = s.stage := by simp [State.wr64]
@[simp] theorem State.wr64_resp (a v : Nat) : (s.wr64 a v).resp = s.resp := by simp [State.wr64]
@[simp] theorem State.wr64_logged (a v : Nat) : (s.wr64 a v).logged = s.logged := by simp [State.wr64]
@[simp] theorem State.wr64_stalled (a v : Nat) : (s.wr64 a v).stalled = s.stalled := by simp [State.wr64]
@[simp] theorem State.wr64_gpioPins (a v : Nat) : (s.wr64 a v).gpioPins = s.gpioPins := by simp [State.wr64]
@[simp] theorem State.wr64_timer (a v : Nat) : (s.wr64 a v).timer = s.timer := by simp [State.wr64]
@[simp] theorem State.wr64_pwr (a v : Nat) : (s.wr64 a v).pwr = s.pwr := by simp [State.wr64]
@[simp] theorem State.wr64_rst (a v : Nat) : (s.wr64 a v).rst = s.rst := by simp [State.wr64]
@[simp] theorem State.wr64_sec (a v : Nat) : (s.wr64 a v).sec = s.sec := by simp [State.wr64]
@[simp] theorem State.wr64_cores (a v : Nat) : (s.wr64 a v).cores = s.cores := by simp [State.wr64]
@[simp] theorem State.wr64_cru (a v : Nat) : (s.wr64 a v).cru = s.cru := by simp [State.wr64]
@[simp] theorem State.wr64_mgmt (a v : Nat) : (s.wr64 a v).mgmt = s.mgmt := by simp [State.wr64]
@[simp] theorem State.wr64_irqnWriter (a v : Nat) : (s.wr64 a v).irqnWriter = s.irqnWriter := by simp [State.wr64]
@[simp] theorem State.wr64_timedOut (a v : Nat) : (s.wr64 a v).timedOut = s.timedOut := by simp [State.wr64]
@[simp] theorem State.wr64_portSt (a v : Nat) : (s.wr64 a v).portSt = s.portSt := by simp [State.wr64]
@[simp] theorem State.wr64_laneSt (a v : Nat) : (s.wr64 a v).laneSt = s.laneSt := by simp [State.wr64]
@[simp] theorem State.wr64_prbsSt (a v : Nat) : (s.wr64 a v).prbsSt = s.prbsSt := by simp [State.wr64]
@[simp] theorem State.wr64_thm (a v : Nat) : (s.wr64 a v).thm = s.thm := by simp [State.wr64]
@[simp] theorem State.wr64_mgt (a v : Nat) : (s.wr64 a v).mgt = s.mgt := by simp [State.wr64]
@[simp] theorem State.wr64_jtag (a v : Nat) : (s.wr64 a v).jtag = s.jtag := by simp [State.wr64]
@[simp] theorem State.wr64_cells (a v : Nat) : (s.wr64 a v).cells = s.cells := by simp [State.wr64]
@[simp] theorem State.wr64_scl (a v : Nat) : (s.wr64 a v).scl = s.scl := by simp [State.wr64]
@[simp] theorem State.wr64_link (a v : Nat) : (s.wr64 a v).link = s.link := by simp [State.wr64]
@[simp] theorem State.wr64_bias (a v : Nat) : (s.wr64 a v).bias = s.bias := by simp [State.wr64]
@[simp] theorem State.wr64_auxTick (a v : Nat) : (s.wr64 a v).auxTick = s.auxTick := by simp [State.wr64]
@[simp] theorem State.wr64_prtPaths (a v : Nat) : (s.wr64 a v).prtPaths = s.prtPaths := by simp [State.wr64]
@[simp] theorem State.wr64_pair (a v : Nat) : (s.wr64 a v).pair = s.pair := by simp [State.wr64]
@[simp] theorem State.wr64_tx (a v : Nat) : (s.wr64 a v).tx = s.tx := by simp [State.wr64]
@[simp] theorem State.wr64_dpd (a v : Nat) : (s.wr64 a v).dpd = s.dpd := by simp [State.wr64]
@[simp] theorem State.wr64_reload (a v : Nat) : (s.wr64 a v).reload = s.reload := by simp [State.wr64]
@[simp] theorem State.wr64_staged (a v : Nat) : (s.wr64 a v).staged = s.staged := by simp [State.wr64]
@[simp] theorem State.wr64_capture (a v : Nat) : (s.wr64 a v).capture = s.capture := by simp [State.wr64]
@[simp] theorem State.wr64_rx (a v : Nat) : (s.wr64 a v).rx = s.rx := by simp [State.wr64]
@[simp] theorem State.wr64_bf (a v : Nat) : (s.wr64 a v).bf = s.bf := by simp [State.wr64]
@[simp] theorem State.wr64_cnv (a v : Nat) : (s.wr64 a v).cnv = s.cnv := by simp [State.wr64]
@[simp] theorem State.wr64_rxSlices (a v : Nat) : (s.wr64 a v).rxSlices = s.rxSlices := by simp [State.wr64]
@[simp] theorem State.wr64_txSlices (a v : Nat) : (s.wr64 a v).txSlices = s.txSlices := by simp [State.wr64]
@[simp] theorem State.wr64_eff (a v : Nat) : (s.wr64 a v).eff = s.eff := by simp [State.wr64]
@[simp] theorem State.wr64_chans (a v : Nat) : (s.wr64 a v).chans = s.chans := by simp [State.wr64]
@[simp] theorem State.wr64_yLast (a v : Nat) : (s.wr64 a v).yLast = s.yLast := by simp [State.wr64]
@[simp] theorem State.byte_wr64 (a v : Nat) (x : Nat) : (s.wr64 a v).byte x = s.byte x := by simp [State.byte]

/-! ### raise -/

@[simp] theorem State.raise_pending (p n : Nat) : (s.raise p n).pending = s.pending := by simp [State.raise]
@[simp] theorem State.raise_now (p n : Nat) : (s.raise p n).now = s.now := by simp [State.raise]
@[simp] theorem State.raise_dev (p n : Nat) : (s.raise p n).dev = s.dev := by simp [State.raise]
@[simp] theorem State.raise_refclk (p n : Nat) : (s.raise p n).refclk = s.refclk := by simp [State.raise]
@[simp] theorem State.raise_mem (p n : Nat) : (s.raise p n).mem = s.mem := by simp [State.raise]
@[simp] theorem State.raise_upsets (p n : Nat) : (s.raise p n).upsets = s.upsets := by simp [State.raise]
@[simp] theorem State.raise_poison (p n : Nat) : (s.raise p n).poison = s.poison := by simp [State.raise]
@[simp] theorem State.raise_otp (p n : Nat) : (s.raise p n).otp = s.otp := by simp [State.raise]
@[simp] theorem State.raise_drawn (p n : Nat) : (s.raise p n).drawn = s.drawn := by simp [State.raise]
@[simp] theorem State.raise_shadow (p n : Nat) : (s.raise p n).shadow = s.shadow := by simp [State.raise]
@[simp] theorem State.raise_stage (p n : Nat) : (s.raise p n).stage = s.stage := by simp [State.raise]
@[simp] theorem State.raise_resp (p n : Nat) : (s.raise p n).resp = s.resp := by simp [State.raise]
@[simp] theorem State.raise_logged (p n : Nat) : (s.raise p n).logged = s.logged := by simp [State.raise]
@[simp] theorem State.raise_stalled (p n : Nat) : (s.raise p n).stalled = s.stalled := by simp [State.raise]
@[simp] theorem State.raise_gpioPins (p n : Nat) : (s.raise p n).gpioPins = s.gpioPins := by simp [State.raise]
@[simp] theorem State.raise_timer (p n : Nat) : (s.raise p n).timer = s.timer := by simp [State.raise]
@[simp] theorem State.raise_pwr (p n : Nat) : (s.raise p n).pwr = s.pwr := by simp [State.raise]
@[simp] theorem State.raise_rst (p n : Nat) : (s.raise p n).rst = s.rst := by simp [State.raise]
@[simp] theorem State.raise_sec (p n : Nat) : (s.raise p n).sec = s.sec := by simp [State.raise]
@[simp] theorem State.raise_cores (p n : Nat) : (s.raise p n).cores = s.cores := by simp [State.raise]
@[simp] theorem State.raise_cru (p n : Nat) : (s.raise p n).cru = s.cru := by simp [State.raise]
@[simp] theorem State.raise_mgmt (p n : Nat) : (s.raise p n).mgmt = s.mgmt := by simp [State.raise]
@[simp] theorem State.raise_irqnWriter (p n : Nat) : (s.raise p n).irqnWriter = s.irqnWriter := by simp [State.raise]
@[simp] theorem State.raise_timedOut (p n : Nat) : (s.raise p n).timedOut = s.timedOut := by simp [State.raise]
@[simp] theorem State.raise_portSt (p n : Nat) : (s.raise p n).portSt = s.portSt := by simp [State.raise]
@[simp] theorem State.raise_laneSt (p n : Nat) : (s.raise p n).laneSt = s.laneSt := by simp [State.raise]
@[simp] theorem State.raise_prbsSt (p n : Nat) : (s.raise p n).prbsSt = s.prbsSt := by simp [State.raise]
@[simp] theorem State.raise_thm (p n : Nat) : (s.raise p n).thm = s.thm := by simp [State.raise]
@[simp] theorem State.raise_mgt (p n : Nat) : (s.raise p n).mgt = s.mgt := by simp [State.raise]
@[simp] theorem State.raise_jtag (p n : Nat) : (s.raise p n).jtag = s.jtag := by simp [State.raise]
@[simp] theorem State.raise_cells (p n : Nat) : (s.raise p n).cells = s.cells := by simp [State.raise]
@[simp] theorem State.raise_scl (p n : Nat) : (s.raise p n).scl = s.scl := by simp [State.raise]
@[simp] theorem State.raise_link (p n : Nat) : (s.raise p n).link = s.link := by simp [State.raise]
@[simp] theorem State.raise_bias (p n : Nat) : (s.raise p n).bias = s.bias := by simp [State.raise]
@[simp] theorem State.raise_auxTick (p n : Nat) : (s.raise p n).auxTick = s.auxTick := by simp [State.raise]
@[simp] theorem State.raise_prtPaths (p n : Nat) : (s.raise p n).prtPaths = s.prtPaths := by simp [State.raise]
@[simp] theorem State.raise_pair (p n : Nat) : (s.raise p n).pair = s.pair := by simp [State.raise]
@[simp] theorem State.raise_tx (p n : Nat) : (s.raise p n).tx = s.tx := by simp [State.raise]
@[simp] theorem State.raise_dpd (p n : Nat) : (s.raise p n).dpd = s.dpd := by simp [State.raise]
@[simp] theorem State.raise_reload (p n : Nat) : (s.raise p n).reload = s.reload := by simp [State.raise]
@[simp] theorem State.raise_staged (p n : Nat) : (s.raise p n).staged = s.staged := by simp [State.raise]
@[simp] theorem State.raise_capture (p n : Nat) : (s.raise p n).capture = s.capture := by simp [State.raise]
@[simp] theorem State.raise_rx (p n : Nat) : (s.raise p n).rx = s.rx := by simp [State.raise]
@[simp] theorem State.raise_bf (p n : Nat) : (s.raise p n).bf = s.bf := by simp [State.raise]
@[simp] theorem State.raise_cnv (p n : Nat) : (s.raise p n).cnv = s.cnv := by simp [State.raise]
@[simp] theorem State.raise_rxSlices (p n : Nat) : (s.raise p n).rxSlices = s.rxSlices := by simp [State.raise]
@[simp] theorem State.raise_txSlices (p n : Nat) : (s.raise p n).txSlices = s.txSlices := by simp [State.raise]
@[simp] theorem State.raise_eff (p n : Nat) : (s.raise p n).eff = s.eff := by simp [State.raise]
@[simp] theorem State.raise_chans (p n : Nat) : (s.raise p n).chans = s.chans := by simp [State.raise]
@[simp] theorem State.raise_yLast (p n : Nat) : (s.raise p n).yLast = s.yLast := by simp [State.raise]
@[simp] theorem State.byte_raise (p n : Nat) (x : Nat) : (s.raise p n).byte x = s.byte x := by simp [State.byte]

/-! ### logErr -/

@[simp] theorem State.logErr_pending (p c a : Nat) : (s.logErr p c a).pending = s.pending := by simp [State.logErr]
@[simp] theorem State.logErr_now (p c a : Nat) : (s.logErr p c a).now = s.now := by simp [State.logErr]
@[simp] theorem State.logErr_dev (p c a : Nat) : (s.logErr p c a).dev = s.dev := by simp [State.logErr]
@[simp] theorem State.logErr_refclk (p c a : Nat) : (s.logErr p c a).refclk = s.refclk := by simp [State.logErr]
@[simp] theorem State.logErr_mem (p c a : Nat) : (s.logErr p c a).mem = s.mem := by simp [State.logErr]
@[simp] theorem State.logErr_upsets (p c a : Nat) : (s.logErr p c a).upsets = s.upsets := by simp [State.logErr]
@[simp] theorem State.logErr_poison (p c a : Nat) : (s.logErr p c a).poison = s.poison := by simp [State.logErr]
@[simp] theorem State.logErr_otp (p c a : Nat) : (s.logErr p c a).otp = s.otp := by simp [State.logErr]
@[simp] theorem State.logErr_drawn (p c a : Nat) : (s.logErr p c a).drawn = s.drawn := by simp [State.logErr]
@[simp] theorem State.logErr_shadow (p c a : Nat) : (s.logErr p c a).shadow = s.shadow := by simp [State.logErr]
@[simp] theorem State.logErr_stage (p c a : Nat) : (s.logErr p c a).stage = s.stage := by simp [State.logErr]
@[simp] theorem State.logErr_resp (p c a : Nat) : (s.logErr p c a).resp = s.resp := by simp [State.logErr]
@[simp] theorem State.logErr_stalled (p c a : Nat) : (s.logErr p c a).stalled = s.stalled := by simp [State.logErr]
@[simp] theorem State.logErr_gpioPins (p c a : Nat) : (s.logErr p c a).gpioPins = s.gpioPins := by simp [State.logErr]
@[simp] theorem State.logErr_timer (p c a : Nat) : (s.logErr p c a).timer = s.timer := by simp [State.logErr]
@[simp] theorem State.logErr_pwr (p c a : Nat) : (s.logErr p c a).pwr = s.pwr := by simp [State.logErr]
@[simp] theorem State.logErr_rst (p c a : Nat) : (s.logErr p c a).rst = s.rst := by simp [State.logErr]
@[simp] theorem State.logErr_sec (p c a : Nat) : (s.logErr p c a).sec = s.sec := by simp [State.logErr]
@[simp] theorem State.logErr_cores (p c a : Nat) : (s.logErr p c a).cores = s.cores := by simp [State.logErr]
@[simp] theorem State.logErr_cru (p c a : Nat) : (s.logErr p c a).cru = s.cru := by simp [State.logErr]
@[simp] theorem State.logErr_mgmt (p c a : Nat) : (s.logErr p c a).mgmt = s.mgmt := by simp [State.logErr]
@[simp] theorem State.logErr_irqnWriter (p c a : Nat) : (s.logErr p c a).irqnWriter = s.irqnWriter := by simp [State.logErr]
@[simp] theorem State.logErr_timedOut (p c a : Nat) : (s.logErr p c a).timedOut = s.timedOut := by simp [State.logErr]
@[simp] theorem State.logErr_portSt (p c a : Nat) : (s.logErr p c a).portSt = s.portSt := by simp [State.logErr]
@[simp] theorem State.logErr_laneSt (p c a : Nat) : (s.logErr p c a).laneSt = s.laneSt := by simp [State.logErr]
@[simp] theorem State.logErr_prbsSt (p c a : Nat) : (s.logErr p c a).prbsSt = s.prbsSt := by simp [State.logErr]
@[simp] theorem State.logErr_thm (p c a : Nat) : (s.logErr p c a).thm = s.thm := by simp [State.logErr]
@[simp] theorem State.logErr_mgt (p c a : Nat) : (s.logErr p c a).mgt = s.mgt := by simp [State.logErr]
@[simp] theorem State.logErr_jtag (p c a : Nat) : (s.logErr p c a).jtag = s.jtag := by simp [State.logErr]
@[simp] theorem State.logErr_cells (p c a : Nat) : (s.logErr p c a).cells = s.cells := by simp [State.logErr]
@[simp] theorem State.logErr_scl (p c a : Nat) : (s.logErr p c a).scl = s.scl := by simp [State.logErr]
@[simp] theorem State.logErr_link (p c a : Nat) : (s.logErr p c a).link = s.link := by simp [State.logErr]
@[simp] theorem State.logErr_bias (p c a : Nat) : (s.logErr p c a).bias = s.bias := by simp [State.logErr]
@[simp] theorem State.logErr_auxTick (p c a : Nat) : (s.logErr p c a).auxTick = s.auxTick := by simp [State.logErr]
@[simp] theorem State.logErr_prtPaths (p c a : Nat) : (s.logErr p c a).prtPaths = s.prtPaths := by simp [State.logErr]
@[simp] theorem State.logErr_pair (p c a : Nat) : (s.logErr p c a).pair = s.pair := by simp [State.logErr]
@[simp] theorem State.logErr_tx (p c a : Nat) : (s.logErr p c a).tx = s.tx := by simp [State.logErr]
@[simp] theorem State.logErr_dpd (p c a : Nat) : (s.logErr p c a).dpd = s.dpd := by simp [State.logErr]
@[simp] theorem State.logErr_reload (p c a : Nat) : (s.logErr p c a).reload = s.reload := by simp [State.logErr]
@[simp] theorem State.logErr_staged (p c a : Nat) : (s.logErr p c a).staged = s.staged := by simp [State.logErr]
@[simp] theorem State.logErr_capture (p c a : Nat) : (s.logErr p c a).capture = s.capture := by simp [State.logErr]
@[simp] theorem State.logErr_rx (p c a : Nat) : (s.logErr p c a).rx = s.rx := by simp [State.logErr]
@[simp] theorem State.logErr_bf (p c a : Nat) : (s.logErr p c a).bf = s.bf := by simp [State.logErr]
@[simp] theorem State.logErr_cnv (p c a : Nat) : (s.logErr p c a).cnv = s.cnv := by simp [State.logErr]
@[simp] theorem State.logErr_rxSlices (p c a : Nat) : (s.logErr p c a).rxSlices = s.rxSlices := by simp [State.logErr]
@[simp] theorem State.logErr_txSlices (p c a : Nat) : (s.logErr p c a).txSlices = s.txSlices := by simp [State.logErr]
@[simp] theorem State.logErr_eff (p c a : Nat) : (s.logErr p c a).eff = s.eff := by simp [State.logErr]
@[simp] theorem State.logErr_chans (p c a : Nat) : (s.logErr p c a).chans = s.chans := by simp [State.logErr]
@[simp] theorem State.logErr_yLast (p c a : Nat) : (s.logErr p c a).yLast = s.yLast := by simp [State.logErr]
@[simp] theorem State.byte_logErr (p c a : Nat) (x : Nat) : (s.logErr p c a).byte x = s.byte x := by simp [State.byte]

/-! ### advance -/

@[simp] theorem State.advance_pending (n : Nat) : (s.advance n).pending = s.pending := rfl
@[simp] theorem State.advance_refclk (n : Nat) : (s.advance n).refclk = s.refclk := rfl
@[simp] theorem State.advance_regs (n : Nat) : (s.advance n).regs = s.regs := rfl
@[simp] theorem State.advance_mem (n : Nat) : (s.advance n).mem = s.mem := rfl
@[simp] theorem State.advance_upsets (n : Nat) : (s.advance n).upsets = s.upsets := rfl
@[simp] theorem State.advance_poison (n : Nat) : (s.advance n).poison = s.poison := rfl
@[simp] theorem State.advance_otp (n : Nat) : (s.advance n).otp = s.otp := rfl
@[simp] theorem State.advance_drawn (n : Nat) : (s.advance n).drawn = s.drawn := rfl
@[simp] theorem State.advance_shadow (n : Nat) : (s.advance n).shadow = s.shadow := rfl
@[simp] theorem State.advance_stage (n : Nat) : (s.advance n).stage = s.stage := rfl
@[simp] theorem State.advance_resp (n : Nat) : (s.advance n).resp = s.resp := rfl
@[simp] theorem State.advance_logged (n : Nat) : (s.advance n).logged = s.logged := rfl
@[simp] theorem State.advance_stalled (n : Nat) : (s.advance n).stalled = s.stalled := rfl
@[simp] theorem State.advance_gpioPins (n : Nat) : (s.advance n).gpioPins = s.gpioPins := rfl
@[simp] theorem State.advance_timer (n : Nat) : (s.advance n).timer = s.timer := rfl
@[simp] theorem State.advance_pwr (n : Nat) : (s.advance n).pwr = s.pwr := rfl
@[simp] theorem State.advance_rst (n : Nat) : (s.advance n).rst = s.rst := rfl
@[simp] theorem State.advance_sec (n : Nat) : (s.advance n).sec = s.sec := rfl
@[simp] theorem State.advance_cores (n : Nat) : (s.advance n).cores = s.cores := rfl
@[simp] theorem State.advance_cru (n : Nat) : (s.advance n).cru = s.cru := rfl
@[simp] theorem State.advance_mgmt (n : Nat) : (s.advance n).mgmt = s.mgmt := rfl
@[simp] theorem State.advance_irqnWriter (n : Nat) : (s.advance n).irqnWriter = s.irqnWriter := rfl
@[simp] theorem State.advance_timedOut (n : Nat) : (s.advance n).timedOut = s.timedOut := rfl
@[simp] theorem State.advance_portSt (n : Nat) : (s.advance n).portSt = s.portSt := rfl
@[simp] theorem State.advance_laneSt (n : Nat) : (s.advance n).laneSt = s.laneSt := rfl
@[simp] theorem State.advance_prbsSt (n : Nat) : (s.advance n).prbsSt = s.prbsSt := rfl
@[simp] theorem State.advance_thm (n : Nat) : (s.advance n).thm = s.thm := rfl
@[simp] theorem State.advance_mgt (n : Nat) : (s.advance n).mgt = s.mgt := rfl
@[simp] theorem State.advance_jtag (n : Nat) : (s.advance n).jtag = s.jtag := rfl
@[simp] theorem State.advance_cells (n : Nat) : (s.advance n).cells = s.cells := rfl
@[simp] theorem State.advance_scl (n : Nat) : (s.advance n).scl = s.scl := rfl
@[simp] theorem State.advance_link (n : Nat) : (s.advance n).link = s.link := rfl
@[simp] theorem State.advance_bias (n : Nat) : (s.advance n).bias = s.bias := rfl
@[simp] theorem State.advance_auxTick (n : Nat) : (s.advance n).auxTick = s.auxTick := rfl
@[simp] theorem State.advance_prtPaths (n : Nat) : (s.advance n).prtPaths = s.prtPaths := rfl
@[simp] theorem State.advance_pair (n : Nat) : (s.advance n).pair = s.pair := rfl
@[simp] theorem State.advance_tx (n : Nat) : (s.advance n).tx = s.tx := rfl
@[simp] theorem State.advance_dpd (n : Nat) : (s.advance n).dpd = s.dpd := rfl
@[simp] theorem State.advance_reload (n : Nat) : (s.advance n).reload = s.reload := rfl
@[simp] theorem State.advance_staged (n : Nat) : (s.advance n).staged = s.staged := rfl
@[simp] theorem State.advance_capture (n : Nat) : (s.advance n).capture = s.capture := rfl
@[simp] theorem State.advance_rx (n : Nat) : (s.advance n).rx = s.rx := rfl
@[simp] theorem State.advance_bf (n : Nat) : (s.advance n).bf = s.bf := rfl
@[simp] theorem State.advance_cnv (n : Nat) : (s.advance n).cnv = s.cnv := rfl
@[simp] theorem State.advance_rxSlices (n : Nat) : (s.advance n).rxSlices = s.rxSlices := rfl
@[simp] theorem State.advance_txSlices (n : Nat) : (s.advance n).txSlices = s.txSlices := rfl
@[simp] theorem State.advance_eff (n : Nat) : (s.advance n).eff = s.eff := rfl
@[simp] theorem State.advance_chans (n : Nat) : (s.advance n).chans = s.chans := rfl
@[simp] theorem State.advance_yLast (n : Nat) : (s.advance n).yLast = s.yLast := rfl
@[simp] theorem State.rd_advance (n : Nat) (x : Nat) : (s.advance n).rd x = s.rd x := by simp [State.rd]
@[simp] theorem State.get_advance (n : Nat) (x : Fld) : (s.advance n).get x = s.get x := by simp [State.get]
@[simp] theorem State.flag_advance (n : Nat) (x : Fld) : (s.advance n).flag x = s.flag x := by simp [State.flag]
@[simp] theorem State.byte_advance (n : Nat) (x : Nat) : (s.advance n).byte x = s.byte x := by simp [State.byte]

/-! ### atCt -/

@[simp] theorem State.atCt_pending (n : Nat) : (s.atCt n).pending = s.pending := by simp [State.atCt]
@[simp] theorem State.atCt_refclk (n : Nat) : (s.atCt n).refclk = s.refclk := by simp [State.atCt]
@[simp] theorem State.atCt_regs (n : Nat) : (s.atCt n).regs = s.regs := by simp [State.atCt]
@[simp] theorem State.atCt_mem (n : Nat) : (s.atCt n).mem = s.mem := by simp [State.atCt]
@[simp] theorem State.atCt_upsets (n : Nat) : (s.atCt n).upsets = s.upsets := by simp [State.atCt]
@[simp] theorem State.atCt_poison (n : Nat) : (s.atCt n).poison = s.poison := by simp [State.atCt]
@[simp] theorem State.atCt_otp (n : Nat) : (s.atCt n).otp = s.otp := by simp [State.atCt]
@[simp] theorem State.atCt_drawn (n : Nat) : (s.atCt n).drawn = s.drawn := by simp [State.atCt]
@[simp] theorem State.atCt_shadow (n : Nat) : (s.atCt n).shadow = s.shadow := by simp [State.atCt]
@[simp] theorem State.atCt_stage (n : Nat) : (s.atCt n).stage = s.stage := by simp [State.atCt]
@[simp] theorem State.atCt_resp (n : Nat) : (s.atCt n).resp = s.resp := by simp [State.atCt]
@[simp] theorem State.atCt_logged (n : Nat) : (s.atCt n).logged = s.logged := by simp [State.atCt]
@[simp] theorem State.atCt_stalled (n : Nat) : (s.atCt n).stalled = s.stalled := by simp [State.atCt]
@[simp] theorem State.atCt_gpioPins (n : Nat) : (s.atCt n).gpioPins = s.gpioPins := by simp [State.atCt]
@[simp] theorem State.atCt_timer (n : Nat) : (s.atCt n).timer = s.timer := by simp [State.atCt]
@[simp] theorem State.atCt_pwr (n : Nat) : (s.atCt n).pwr = s.pwr := by simp [State.atCt]
@[simp] theorem State.atCt_rst (n : Nat) : (s.atCt n).rst = s.rst := by simp [State.atCt]
@[simp] theorem State.atCt_sec (n : Nat) : (s.atCt n).sec = s.sec := by simp [State.atCt]
@[simp] theorem State.atCt_cores (n : Nat) : (s.atCt n).cores = s.cores := by simp [State.atCt]
@[simp] theorem State.atCt_cru (n : Nat) : (s.atCt n).cru = s.cru := by simp [State.atCt]
@[simp] theorem State.atCt_mgmt (n : Nat) : (s.atCt n).mgmt = s.mgmt := by simp [State.atCt]
@[simp] theorem State.atCt_irqnWriter (n : Nat) : (s.atCt n).irqnWriter = s.irqnWriter := by simp [State.atCt]
@[simp] theorem State.atCt_timedOut (n : Nat) : (s.atCt n).timedOut = s.timedOut := by simp [State.atCt]
@[simp] theorem State.atCt_portSt (n : Nat) : (s.atCt n).portSt = s.portSt := by simp [State.atCt]
@[simp] theorem State.atCt_laneSt (n : Nat) : (s.atCt n).laneSt = s.laneSt := by simp [State.atCt]
@[simp] theorem State.atCt_prbsSt (n : Nat) : (s.atCt n).prbsSt = s.prbsSt := by simp [State.atCt]
@[simp] theorem State.atCt_thm (n : Nat) : (s.atCt n).thm = s.thm := by simp [State.atCt]
@[simp] theorem State.atCt_mgt (n : Nat) : (s.atCt n).mgt = s.mgt := by simp [State.atCt]
@[simp] theorem State.atCt_jtag (n : Nat) : (s.atCt n).jtag = s.jtag := by simp [State.atCt]
@[simp] theorem State.atCt_cells (n : Nat) : (s.atCt n).cells = s.cells := by simp [State.atCt]
@[simp] theorem State.atCt_scl (n : Nat) : (s.atCt n).scl = s.scl := by simp [State.atCt]
@[simp] theorem State.atCt_link (n : Nat) : (s.atCt n).link = s.link := by simp [State.atCt]
@[simp] theorem State.atCt_bias (n : Nat) : (s.atCt n).bias = s.bias := by simp [State.atCt]
@[simp] theorem State.atCt_auxTick (n : Nat) : (s.atCt n).auxTick = s.auxTick := by simp [State.atCt]
@[simp] theorem State.atCt_prtPaths (n : Nat) : (s.atCt n).prtPaths = s.prtPaths := by simp [State.atCt]
@[simp] theorem State.atCt_pair (n : Nat) : (s.atCt n).pair = s.pair := by simp [State.atCt]
@[simp] theorem State.atCt_tx (n : Nat) : (s.atCt n).tx = s.tx := by simp [State.atCt]
@[simp] theorem State.atCt_dpd (n : Nat) : (s.atCt n).dpd = s.dpd := by simp [State.atCt]
@[simp] theorem State.atCt_reload (n : Nat) : (s.atCt n).reload = s.reload := by simp [State.atCt]
@[simp] theorem State.atCt_staged (n : Nat) : (s.atCt n).staged = s.staged := by simp [State.atCt]
@[simp] theorem State.atCt_capture (n : Nat) : (s.atCt n).capture = s.capture := by simp [State.atCt]
@[simp] theorem State.atCt_rx (n : Nat) : (s.atCt n).rx = s.rx := by simp [State.atCt]
@[simp] theorem State.atCt_bf (n : Nat) : (s.atCt n).bf = s.bf := by simp [State.atCt]
@[simp] theorem State.atCt_cnv (n : Nat) : (s.atCt n).cnv = s.cnv := by simp [State.atCt]
@[simp] theorem State.atCt_rxSlices (n : Nat) : (s.atCt n).rxSlices = s.rxSlices := by simp [State.atCt]
@[simp] theorem State.atCt_txSlices (n : Nat) : (s.atCt n).txSlices = s.txSlices := by simp [State.atCt]
@[simp] theorem State.atCt_eff (n : Nat) : (s.atCt n).eff = s.eff := by simp [State.atCt]
@[simp] theorem State.atCt_chans (n : Nat) : (s.atCt n).chans = s.chans := by simp [State.atCt]
@[simp] theorem State.atCt_yLast (n : Nat) : (s.atCt n).yLast = s.yLast := by simp [State.atCt]
@[simp] theorem State.rd_atCt (n : Nat) (x : Nat) : (s.atCt n).rd x = s.rd x := by simp [State.rd]
@[simp] theorem State.get_atCt (n : Nat) (x : Fld) : (s.atCt n).get x = s.get x := by simp [State.get]
@[simp] theorem State.flag_atCt (n : Nat) (x : Fld) : (s.atCt n).flag x = s.flag x := by simp [State.flag]
@[simp] theorem State.byte_atCt (n : Nat) (x : Nat) : (s.atCt n).byte x = s.byte x := by simp [State.byte]

/-! ### atBt -/

@[simp] theorem State.atBt_pending (n : Int) : (s.atBt n).pending = s.pending := by simp [State.atBt]
@[simp] theorem State.atBt_refclk (n : Int) : (s.atBt n).refclk = s.refclk := by simp [State.atBt]
@[simp] theorem State.atBt_regs (n : Int) : (s.atBt n).regs = s.regs := by simp [State.atBt]
@[simp] theorem State.atBt_mem (n : Int) : (s.atBt n).mem = s.mem := by simp [State.atBt]
@[simp] theorem State.atBt_upsets (n : Int) : (s.atBt n).upsets = s.upsets := by simp [State.atBt]
@[simp] theorem State.atBt_poison (n : Int) : (s.atBt n).poison = s.poison := by simp [State.atBt]
@[simp] theorem State.atBt_otp (n : Int) : (s.atBt n).otp = s.otp := by simp [State.atBt]
@[simp] theorem State.atBt_drawn (n : Int) : (s.atBt n).drawn = s.drawn := by simp [State.atBt]
@[simp] theorem State.atBt_shadow (n : Int) : (s.atBt n).shadow = s.shadow := by simp [State.atBt]
@[simp] theorem State.atBt_stage (n : Int) : (s.atBt n).stage = s.stage := by simp [State.atBt]
@[simp] theorem State.atBt_resp (n : Int) : (s.atBt n).resp = s.resp := by simp [State.atBt]
@[simp] theorem State.atBt_logged (n : Int) : (s.atBt n).logged = s.logged := by simp [State.atBt]
@[simp] theorem State.atBt_stalled (n : Int) : (s.atBt n).stalled = s.stalled := by simp [State.atBt]
@[simp] theorem State.atBt_gpioPins (n : Int) : (s.atBt n).gpioPins = s.gpioPins := by simp [State.atBt]
@[simp] theorem State.atBt_timer (n : Int) : (s.atBt n).timer = s.timer := by simp [State.atBt]
@[simp] theorem State.atBt_pwr (n : Int) : (s.atBt n).pwr = s.pwr := by simp [State.atBt]
@[simp] theorem State.atBt_rst (n : Int) : (s.atBt n).rst = s.rst := by simp [State.atBt]
@[simp] theorem State.atBt_sec (n : Int) : (s.atBt n).sec = s.sec := by simp [State.atBt]
@[simp] theorem State.atBt_cores (n : Int) : (s.atBt n).cores = s.cores := by simp [State.atBt]
@[simp] theorem State.atBt_cru (n : Int) : (s.atBt n).cru = s.cru := by simp [State.atBt]
@[simp] theorem State.atBt_mgmt (n : Int) : (s.atBt n).mgmt = s.mgmt := by simp [State.atBt]
@[simp] theorem State.atBt_irqnWriter (n : Int) : (s.atBt n).irqnWriter = s.irqnWriter := by simp [State.atBt]
@[simp] theorem State.atBt_timedOut (n : Int) : (s.atBt n).timedOut = s.timedOut := by simp [State.atBt]
@[simp] theorem State.atBt_portSt (n : Int) : (s.atBt n).portSt = s.portSt := by simp [State.atBt]
@[simp] theorem State.atBt_laneSt (n : Int) : (s.atBt n).laneSt = s.laneSt := by simp [State.atBt]
@[simp] theorem State.atBt_prbsSt (n : Int) : (s.atBt n).prbsSt = s.prbsSt := by simp [State.atBt]
@[simp] theorem State.atBt_thm (n : Int) : (s.atBt n).thm = s.thm := by simp [State.atBt]
@[simp] theorem State.atBt_mgt (n : Int) : (s.atBt n).mgt = s.mgt := by simp [State.atBt]
@[simp] theorem State.atBt_jtag (n : Int) : (s.atBt n).jtag = s.jtag := by simp [State.atBt]
@[simp] theorem State.atBt_cells (n : Int) : (s.atBt n).cells = s.cells := by simp [State.atBt]
@[simp] theorem State.atBt_scl (n : Int) : (s.atBt n).scl = s.scl := by simp [State.atBt]
@[simp] theorem State.atBt_link (n : Int) : (s.atBt n).link = s.link := by simp [State.atBt]
@[simp] theorem State.atBt_bias (n : Int) : (s.atBt n).bias = s.bias := by simp [State.atBt]
@[simp] theorem State.atBt_auxTick (n : Int) : (s.atBt n).auxTick = s.auxTick := by simp [State.atBt]
@[simp] theorem State.atBt_prtPaths (n : Int) : (s.atBt n).prtPaths = s.prtPaths := by simp [State.atBt]
@[simp] theorem State.atBt_pair (n : Int) : (s.atBt n).pair = s.pair := by simp [State.atBt]
@[simp] theorem State.atBt_tx (n : Int) : (s.atBt n).tx = s.tx := by simp [State.atBt]
@[simp] theorem State.atBt_dpd (n : Int) : (s.atBt n).dpd = s.dpd := by simp [State.atBt]
@[simp] theorem State.atBt_reload (n : Int) : (s.atBt n).reload = s.reload := by simp [State.atBt]
@[simp] theorem State.atBt_staged (n : Int) : (s.atBt n).staged = s.staged := by simp [State.atBt]
@[simp] theorem State.atBt_capture (n : Int) : (s.atBt n).capture = s.capture := by simp [State.atBt]
@[simp] theorem State.atBt_rx (n : Int) : (s.atBt n).rx = s.rx := by simp [State.atBt]
@[simp] theorem State.atBt_bf (n : Int) : (s.atBt n).bf = s.bf := by simp [State.atBt]
@[simp] theorem State.atBt_cnv (n : Int) : (s.atBt n).cnv = s.cnv := by simp [State.atBt]
@[simp] theorem State.atBt_rxSlices (n : Int) : (s.atBt n).rxSlices = s.rxSlices := by simp [State.atBt]
@[simp] theorem State.atBt_txSlices (n : Int) : (s.atBt n).txSlices = s.txSlices := by simp [State.atBt]
@[simp] theorem State.atBt_eff (n : Int) : (s.atBt n).eff = s.eff := by simp [State.atBt]
@[simp] theorem State.atBt_chans (n : Int) : (s.atBt n).chans = s.chans := by simp [State.atBt]
@[simp] theorem State.atBt_yLast (n : Int) : (s.atBt n).yLast = s.yLast := by simp [State.atBt]
@[simp] theorem State.rd_atBt (n : Int) (x : Nat) : (s.atBt n).rd x = s.rd x := by simp [State.rd]
@[simp] theorem State.get_atBt (n : Int) (x : Fld) : (s.atBt n).get x = s.get x := by simp [State.get]
@[simp] theorem State.flag_atBt (n : Int) (x : Fld) : (s.atBt n).flag x = s.flag x := by simp [State.flag]
@[simp] theorem State.byte_atBt (n : Int) (x : Nat) : (s.atBt n).byte x = s.byte x := by simp [State.byte]

/-! ### atNow -/

@[simp] theorem State.atNow_pending (n : Nat) : (s.atNow n).pending = s.pending := by simp [State.atNow]
@[simp] theorem State.atNow_refclk (n : Nat) : (s.atNow n).refclk = s.refclk := by simp [State.atNow]
@[simp] theorem State.atNow_regs (n : Nat) : (s.atNow n).regs = s.regs := by simp [State.atNow]
@[simp] theorem State.atNow_mem (n : Nat) : (s.atNow n).mem = s.mem := by simp [State.atNow]
@[simp] theorem State.atNow_upsets (n : Nat) : (s.atNow n).upsets = s.upsets := by simp [State.atNow]
@[simp] theorem State.atNow_poison (n : Nat) : (s.atNow n).poison = s.poison := by simp [State.atNow]
@[simp] theorem State.atNow_otp (n : Nat) : (s.atNow n).otp = s.otp := by simp [State.atNow]
@[simp] theorem State.atNow_drawn (n : Nat) : (s.atNow n).drawn = s.drawn := by simp [State.atNow]
@[simp] theorem State.atNow_shadow (n : Nat) : (s.atNow n).shadow = s.shadow := by simp [State.atNow]
@[simp] theorem State.atNow_stage (n : Nat) : (s.atNow n).stage = s.stage := by simp [State.atNow]
@[simp] theorem State.atNow_resp (n : Nat) : (s.atNow n).resp = s.resp := by simp [State.atNow]
@[simp] theorem State.atNow_logged (n : Nat) : (s.atNow n).logged = s.logged := by simp [State.atNow]
@[simp] theorem State.atNow_stalled (n : Nat) : (s.atNow n).stalled = s.stalled := by simp [State.atNow]
@[simp] theorem State.atNow_gpioPins (n : Nat) : (s.atNow n).gpioPins = s.gpioPins := by simp [State.atNow]
@[simp] theorem State.atNow_timer (n : Nat) : (s.atNow n).timer = s.timer := by simp [State.atNow]
@[simp] theorem State.atNow_pwr (n : Nat) : (s.atNow n).pwr = s.pwr := by simp [State.atNow]
@[simp] theorem State.atNow_rst (n : Nat) : (s.atNow n).rst = s.rst := by simp [State.atNow]
@[simp] theorem State.atNow_sec (n : Nat) : (s.atNow n).sec = s.sec := by simp [State.atNow]
@[simp] theorem State.atNow_cores (n : Nat) : (s.atNow n).cores = s.cores := by simp [State.atNow]
@[simp] theorem State.atNow_cru (n : Nat) : (s.atNow n).cru = s.cru := by simp [State.atNow]
@[simp] theorem State.atNow_mgmt (n : Nat) : (s.atNow n).mgmt = s.mgmt := by simp [State.atNow]
@[simp] theorem State.atNow_irqnWriter (n : Nat) : (s.atNow n).irqnWriter = s.irqnWriter := by simp [State.atNow]
@[simp] theorem State.atNow_timedOut (n : Nat) : (s.atNow n).timedOut = s.timedOut := by simp [State.atNow]
@[simp] theorem State.atNow_portSt (n : Nat) : (s.atNow n).portSt = s.portSt := by simp [State.atNow]
@[simp] theorem State.atNow_laneSt (n : Nat) : (s.atNow n).laneSt = s.laneSt := by simp [State.atNow]
@[simp] theorem State.atNow_prbsSt (n : Nat) : (s.atNow n).prbsSt = s.prbsSt := by simp [State.atNow]
@[simp] theorem State.atNow_thm (n : Nat) : (s.atNow n).thm = s.thm := by simp [State.atNow]
@[simp] theorem State.atNow_mgt (n : Nat) : (s.atNow n).mgt = s.mgt := by simp [State.atNow]
@[simp] theorem State.atNow_jtag (n : Nat) : (s.atNow n).jtag = s.jtag := by simp [State.atNow]
@[simp] theorem State.atNow_cells (n : Nat) : (s.atNow n).cells = s.cells := by simp [State.atNow]
@[simp] theorem State.atNow_scl (n : Nat) : (s.atNow n).scl = s.scl := by simp [State.atNow]
@[simp] theorem State.atNow_link (n : Nat) : (s.atNow n).link = s.link := by simp [State.atNow]
@[simp] theorem State.atNow_bias (n : Nat) : (s.atNow n).bias = s.bias := by simp [State.atNow]
@[simp] theorem State.atNow_auxTick (n : Nat) : (s.atNow n).auxTick = s.auxTick := by simp [State.atNow]
@[simp] theorem State.atNow_prtPaths (n : Nat) : (s.atNow n).prtPaths = s.prtPaths := by simp [State.atNow]
@[simp] theorem State.atNow_pair (n : Nat) : (s.atNow n).pair = s.pair := by simp [State.atNow]
@[simp] theorem State.atNow_tx (n : Nat) : (s.atNow n).tx = s.tx := by simp [State.atNow]
@[simp] theorem State.atNow_dpd (n : Nat) : (s.atNow n).dpd = s.dpd := by simp [State.atNow]
@[simp] theorem State.atNow_reload (n : Nat) : (s.atNow n).reload = s.reload := by simp [State.atNow]
@[simp] theorem State.atNow_staged (n : Nat) : (s.atNow n).staged = s.staged := by simp [State.atNow]
@[simp] theorem State.atNow_capture (n : Nat) : (s.atNow n).capture = s.capture := by simp [State.atNow]
@[simp] theorem State.atNow_rx (n : Nat) : (s.atNow n).rx = s.rx := by simp [State.atNow]
@[simp] theorem State.atNow_bf (n : Nat) : (s.atNow n).bf = s.bf := by simp [State.atNow]
@[simp] theorem State.atNow_cnv (n : Nat) : (s.atNow n).cnv = s.cnv := by simp [State.atNow]
@[simp] theorem State.atNow_rxSlices (n : Nat) : (s.atNow n).rxSlices = s.rxSlices := by simp [State.atNow]
@[simp] theorem State.atNow_txSlices (n : Nat) : (s.atNow n).txSlices = s.txSlices := by simp [State.atNow]
@[simp] theorem State.atNow_eff (n : Nat) : (s.atNow n).eff = s.eff := by simp [State.atNow]
@[simp] theorem State.atNow_chans (n : Nat) : (s.atNow n).chans = s.chans := by simp [State.atNow]
@[simp] theorem State.atNow_yLast (n : Nat) : (s.atNow n).yLast = s.yLast := by simp [State.atNow]
@[simp] theorem State.rd_atNow (n : Nat) (x : Nat) : (s.atNow n).rd x = s.rd x := by simp [State.rd]
@[simp] theorem State.get_atNow (n : Nat) (x : Fld) : (s.atNow n).get x = s.get x := by simp [State.get]
@[simp] theorem State.flag_atNow (n : Nat) (x : Fld) : (s.atNow n).flag x = s.flag x := by simp [State.flag]
@[simp] theorem State.byte_atNow (n : Nat) (x : Nat) : (s.atNow n).byte x = s.byte x := by simp [State.byte]

/-! ### answer -/

@[simp] theorem State.answer_pending (v : Nat) : (s.answer v).pending = s.pending := rfl
@[simp] theorem State.answer_now (v : Nat) : (s.answer v).now = s.now := rfl
@[simp] theorem State.answer_dev (v : Nat) : (s.answer v).dev = s.dev := rfl
@[simp] theorem State.answer_refclk (v : Nat) : (s.answer v).refclk = s.refclk := rfl
@[simp] theorem State.answer_regs (v : Nat) : (s.answer v).regs = s.regs := rfl
@[simp] theorem State.answer_mem (v : Nat) : (s.answer v).mem = s.mem := rfl
@[simp] theorem State.answer_upsets (v : Nat) : (s.answer v).upsets = s.upsets := rfl
@[simp] theorem State.answer_poison (v : Nat) : (s.answer v).poison = s.poison := rfl
@[simp] theorem State.answer_otp (v : Nat) : (s.answer v).otp = s.otp := rfl
@[simp] theorem State.answer_drawn (v : Nat) : (s.answer v).drawn = s.drawn := rfl
@[simp] theorem State.answer_shadow (v : Nat) : (s.answer v).shadow = s.shadow := rfl
@[simp] theorem State.answer_stage (v : Nat) : (s.answer v).stage = s.stage := rfl
@[simp] theorem State.answer_logged (v : Nat) : (s.answer v).logged = s.logged := rfl
@[simp] theorem State.answer_stalled (v : Nat) : (s.answer v).stalled = s.stalled := rfl
@[simp] theorem State.answer_gpioPins (v : Nat) : (s.answer v).gpioPins = s.gpioPins := rfl
@[simp] theorem State.answer_timer (v : Nat) : (s.answer v).timer = s.timer := rfl
@[simp] theorem State.answer_pwr (v : Nat) : (s.answer v).pwr = s.pwr := rfl
@[simp] theorem State.answer_rst (v : Nat) : (s.answer v).rst = s.rst := rfl
@[simp] theorem State.answer_sec (v : Nat) : (s.answer v).sec = s.sec := rfl
@[simp] theorem State.answer_cores (v : Nat) : (s.answer v).cores = s.cores := rfl
@[simp] theorem State.answer_cru (v : Nat) : (s.answer v).cru = s.cru := rfl
@[simp] theorem State.answer_mgmt (v : Nat) : (s.answer v).mgmt = s.mgmt := rfl
@[simp] theorem State.answer_irqnWriter (v : Nat) : (s.answer v).irqnWriter = s.irqnWriter := rfl
@[simp] theorem State.answer_timedOut (v : Nat) : (s.answer v).timedOut = s.timedOut := rfl
@[simp] theorem State.answer_portSt (v : Nat) : (s.answer v).portSt = s.portSt := rfl
@[simp] theorem State.answer_laneSt (v : Nat) : (s.answer v).laneSt = s.laneSt := rfl
@[simp] theorem State.answer_prbsSt (v : Nat) : (s.answer v).prbsSt = s.prbsSt := rfl
@[simp] theorem State.answer_thm (v : Nat) : (s.answer v).thm = s.thm := rfl
@[simp] theorem State.answer_mgt (v : Nat) : (s.answer v).mgt = s.mgt := rfl
@[simp] theorem State.answer_jtag (v : Nat) : (s.answer v).jtag = s.jtag := rfl
@[simp] theorem State.answer_cells (v : Nat) : (s.answer v).cells = s.cells := rfl
@[simp] theorem State.answer_scl (v : Nat) : (s.answer v).scl = s.scl := rfl
@[simp] theorem State.answer_link (v : Nat) : (s.answer v).link = s.link := rfl
@[simp] theorem State.answer_bias (v : Nat) : (s.answer v).bias = s.bias := rfl
@[simp] theorem State.answer_auxTick (v : Nat) : (s.answer v).auxTick = s.auxTick := rfl
@[simp] theorem State.answer_prtPaths (v : Nat) : (s.answer v).prtPaths = s.prtPaths := rfl
@[simp] theorem State.answer_pair (v : Nat) : (s.answer v).pair = s.pair := rfl
@[simp] theorem State.answer_tx (v : Nat) : (s.answer v).tx = s.tx := rfl
@[simp] theorem State.answer_dpd (v : Nat) : (s.answer v).dpd = s.dpd := rfl
@[simp] theorem State.answer_reload (v : Nat) : (s.answer v).reload = s.reload := rfl
@[simp] theorem State.answer_staged (v : Nat) : (s.answer v).staged = s.staged := rfl
@[simp] theorem State.answer_capture (v : Nat) : (s.answer v).capture = s.capture := rfl
@[simp] theorem State.answer_rx (v : Nat) : (s.answer v).rx = s.rx := rfl
@[simp] theorem State.answer_bf (v : Nat) : (s.answer v).bf = s.bf := rfl
@[simp] theorem State.answer_cnv (v : Nat) : (s.answer v).cnv = s.cnv := rfl
@[simp] theorem State.answer_rxSlices (v : Nat) : (s.answer v).rxSlices = s.rxSlices := rfl
@[simp] theorem State.answer_txSlices (v : Nat) : (s.answer v).txSlices = s.txSlices := rfl
@[simp] theorem State.answer_eff (v : Nat) : (s.answer v).eff = s.eff := rfl
@[simp] theorem State.answer_chans (v : Nat) : (s.answer v).chans = s.chans := rfl
@[simp] theorem State.answer_yLast (v : Nat) : (s.answer v).yLast = s.yLast := rfl
@[simp] theorem State.rd_answer (v : Nat) (x : Nat) : (s.answer v).rd x = s.rd x := by simp [State.rd]
@[simp] theorem State.get_answer (v : Nat) (x : Fld) : (s.answer v).get x = s.get x := by simp [State.get]
@[simp] theorem State.flag_answer (v : Nat) (x : Fld) : (s.answer v).flag x = s.flag x := by simp [State.flag]
@[simp] theorem State.byte_answer (v : Nat) (x : Nat) : (s.answer v).byte x = s.byte x := by simp [State.byte]

/-! ### answerW -/

@[simp] theorem State.answerW_pending (v : Word) : (s.answerW v).pending = s.pending := by simp [State.answerW]
@[simp] theorem State.answerW_now (v : Word) : (s.answerW v).now = s.now := by simp [State.answerW]
@[simp] theorem State.answerW_dev (v : Word) : (s.answerW v).dev = s.dev := by simp [State.answerW]
@[simp] theorem State.answerW_refclk (v : Word) : (s.answerW v).refclk = s.refclk := by simp [State.answerW]
@[simp] theorem State.answerW_regs (v : Word) : (s.answerW v).regs = s.regs := by simp [State.answerW]
@[simp] theorem State.answerW_mem (v : Word) : (s.answerW v).mem = s.mem := by simp [State.answerW]
@[simp] theorem State.answerW_upsets (v : Word) : (s.answerW v).upsets = s.upsets := by simp [State.answerW]
@[simp] theorem State.answerW_poison (v : Word) : (s.answerW v).poison = s.poison := by simp [State.answerW]
@[simp] theorem State.answerW_otp (v : Word) : (s.answerW v).otp = s.otp := by simp [State.answerW]
@[simp] theorem State.answerW_drawn (v : Word) : (s.answerW v).drawn = s.drawn := by simp [State.answerW]
@[simp] theorem State.answerW_shadow (v : Word) : (s.answerW v).shadow = s.shadow := by simp [State.answerW]
@[simp] theorem State.answerW_stage (v : Word) : (s.answerW v).stage = s.stage := by simp [State.answerW]
@[simp] theorem State.answerW_logged (v : Word) : (s.answerW v).logged = s.logged := by simp [State.answerW]
@[simp] theorem State.answerW_stalled (v : Word) : (s.answerW v).stalled = s.stalled := by simp [State.answerW]
@[simp] theorem State.answerW_gpioPins (v : Word) : (s.answerW v).gpioPins = s.gpioPins := by simp [State.answerW]
@[simp] theorem State.answerW_timer (v : Word) : (s.answerW v).timer = s.timer := by simp [State.answerW]
@[simp] theorem State.answerW_pwr (v : Word) : (s.answerW v).pwr = s.pwr := by simp [State.answerW]
@[simp] theorem State.answerW_rst (v : Word) : (s.answerW v).rst = s.rst := by simp [State.answerW]
@[simp] theorem State.answerW_sec (v : Word) : (s.answerW v).sec = s.sec := by simp [State.answerW]
@[simp] theorem State.answerW_cores (v : Word) : (s.answerW v).cores = s.cores := by simp [State.answerW]
@[simp] theorem State.answerW_cru (v : Word) : (s.answerW v).cru = s.cru := by simp [State.answerW]
@[simp] theorem State.answerW_mgmt (v : Word) : (s.answerW v).mgmt = s.mgmt := by simp [State.answerW]
@[simp] theorem State.answerW_irqnWriter (v : Word) : (s.answerW v).irqnWriter = s.irqnWriter := by simp [State.answerW]
@[simp] theorem State.answerW_timedOut (v : Word) : (s.answerW v).timedOut = s.timedOut := by simp [State.answerW]
@[simp] theorem State.answerW_portSt (v : Word) : (s.answerW v).portSt = s.portSt := by simp [State.answerW]
@[simp] theorem State.answerW_laneSt (v : Word) : (s.answerW v).laneSt = s.laneSt := by simp [State.answerW]
@[simp] theorem State.answerW_prbsSt (v : Word) : (s.answerW v).prbsSt = s.prbsSt := by simp [State.answerW]
@[simp] theorem State.answerW_thm (v : Word) : (s.answerW v).thm = s.thm := by simp [State.answerW]
@[simp] theorem State.answerW_mgt (v : Word) : (s.answerW v).mgt = s.mgt := by simp [State.answerW]
@[simp] theorem State.answerW_jtag (v : Word) : (s.answerW v).jtag = s.jtag := by simp [State.answerW]
@[simp] theorem State.answerW_cells (v : Word) : (s.answerW v).cells = s.cells := by simp [State.answerW]
@[simp] theorem State.answerW_scl (v : Word) : (s.answerW v).scl = s.scl := by simp [State.answerW]
@[simp] theorem State.answerW_link (v : Word) : (s.answerW v).link = s.link := by simp [State.answerW]
@[simp] theorem State.answerW_bias (v : Word) : (s.answerW v).bias = s.bias := by simp [State.answerW]
@[simp] theorem State.answerW_auxTick (v : Word) : (s.answerW v).auxTick = s.auxTick := by simp [State.answerW]
@[simp] theorem State.answerW_prtPaths (v : Word) : (s.answerW v).prtPaths = s.prtPaths := by simp [State.answerW]
@[simp] theorem State.answerW_pair (v : Word) : (s.answerW v).pair = s.pair := by simp [State.answerW]
@[simp] theorem State.answerW_tx (v : Word) : (s.answerW v).tx = s.tx := by simp [State.answerW]
@[simp] theorem State.answerW_dpd (v : Word) : (s.answerW v).dpd = s.dpd := by simp [State.answerW]
@[simp] theorem State.answerW_reload (v : Word) : (s.answerW v).reload = s.reload := by simp [State.answerW]
@[simp] theorem State.answerW_staged (v : Word) : (s.answerW v).staged = s.staged := by simp [State.answerW]
@[simp] theorem State.answerW_capture (v : Word) : (s.answerW v).capture = s.capture := by simp [State.answerW]
@[simp] theorem State.answerW_rx (v : Word) : (s.answerW v).rx = s.rx := by simp [State.answerW]
@[simp] theorem State.answerW_bf (v : Word) : (s.answerW v).bf = s.bf := by simp [State.answerW]
@[simp] theorem State.answerW_cnv (v : Word) : (s.answerW v).cnv = s.cnv := by simp [State.answerW]
@[simp] theorem State.answerW_rxSlices (v : Word) : (s.answerW v).rxSlices = s.rxSlices := by simp [State.answerW]
@[simp] theorem State.answerW_txSlices (v : Word) : (s.answerW v).txSlices = s.txSlices := by simp [State.answerW]
@[simp] theorem State.answerW_eff (v : Word) : (s.answerW v).eff = s.eff := by simp [State.answerW]
@[simp] theorem State.answerW_chans (v : Word) : (s.answerW v).chans = s.chans := by simp [State.answerW]
@[simp] theorem State.answerW_yLast (v : Word) : (s.answerW v).yLast = s.yLast := by simp [State.answerW]
@[simp] theorem State.rd_answerW (v : Word) (x : Nat) : (s.answerW v).rd x = s.rd x := by simp [State.rd]
@[simp] theorem State.get_answerW (v : Word) (x : Fld) : (s.answerW v).get x = s.get x := by simp [State.get]
@[simp] theorem State.flag_answerW (v : Word) (x : Fld) : (s.answerW v).flag x = s.flag x := by simp [State.flag]
@[simp] theorem State.byte_answerW (v : Word) (x : Nat) : (s.answerW v).byte x = s.byte x := by simp [State.byte]

/-! ### done -/

@[simp] theorem State.done_pending : (s.done).pending = s.pending := rfl
@[simp] theorem State.done_now : (s.done).now = s.now := rfl
@[simp] theorem State.done_dev : (s.done).dev = s.dev := rfl
@[simp] theorem State.done_refclk : (s.done).refclk = s.refclk := rfl
@[simp] theorem State.done_regs : (s.done).regs = s.regs := rfl
@[simp] theorem State.done_mem : (s.done).mem = s.mem := rfl
@[simp] theorem State.done_upsets : (s.done).upsets = s.upsets := rfl
@[simp] theorem State.done_poison : (s.done).poison = s.poison := rfl
@[simp] theorem State.done_otp : (s.done).otp = s.otp := rfl
@[simp] theorem State.done_drawn : (s.done).drawn = s.drawn := rfl
@[simp] theorem State.done_shadow : (s.done).shadow = s.shadow := rfl
@[simp] theorem State.done_stage : (s.done).stage = s.stage := rfl
@[simp] theorem State.done_logged : (s.done).logged = s.logged := rfl
@[simp] theorem State.done_stalled : (s.done).stalled = s.stalled := rfl
@[simp] theorem State.done_gpioPins : (s.done).gpioPins = s.gpioPins := rfl
@[simp] theorem State.done_timer : (s.done).timer = s.timer := rfl
@[simp] theorem State.done_pwr : (s.done).pwr = s.pwr := rfl
@[simp] theorem State.done_rst : (s.done).rst = s.rst := rfl
@[simp] theorem State.done_sec : (s.done).sec = s.sec := rfl
@[simp] theorem State.done_cores : (s.done).cores = s.cores := rfl
@[simp] theorem State.done_cru : (s.done).cru = s.cru := rfl
@[simp] theorem State.done_mgmt : (s.done).mgmt = s.mgmt := rfl
@[simp] theorem State.done_irqnWriter : (s.done).irqnWriter = s.irqnWriter := rfl
@[simp] theorem State.done_timedOut : (s.done).timedOut = s.timedOut := rfl
@[simp] theorem State.done_portSt : (s.done).portSt = s.portSt := rfl
@[simp] theorem State.done_laneSt : (s.done).laneSt = s.laneSt := rfl
@[simp] theorem State.done_prbsSt : (s.done).prbsSt = s.prbsSt := rfl
@[simp] theorem State.done_thm : (s.done).thm = s.thm := rfl
@[simp] theorem State.done_mgt : (s.done).mgt = s.mgt := rfl
@[simp] theorem State.done_jtag : (s.done).jtag = s.jtag := rfl
@[simp] theorem State.done_cells : (s.done).cells = s.cells := rfl
@[simp] theorem State.done_scl : (s.done).scl = s.scl := rfl
@[simp] theorem State.done_link : (s.done).link = s.link := rfl
@[simp] theorem State.done_bias : (s.done).bias = s.bias := rfl
@[simp] theorem State.done_auxTick : (s.done).auxTick = s.auxTick := rfl
@[simp] theorem State.done_prtPaths : (s.done).prtPaths = s.prtPaths := rfl
@[simp] theorem State.done_pair : (s.done).pair = s.pair := rfl
@[simp] theorem State.done_tx : (s.done).tx = s.tx := rfl
@[simp] theorem State.done_dpd : (s.done).dpd = s.dpd := rfl
@[simp] theorem State.done_reload : (s.done).reload = s.reload := rfl
@[simp] theorem State.done_staged : (s.done).staged = s.staged := rfl
@[simp] theorem State.done_capture : (s.done).capture = s.capture := rfl
@[simp] theorem State.done_rx : (s.done).rx = s.rx := rfl
@[simp] theorem State.done_bf : (s.done).bf = s.bf := rfl
@[simp] theorem State.done_cnv : (s.done).cnv = s.cnv := rfl
@[simp] theorem State.done_rxSlices : (s.done).rxSlices = s.rxSlices := rfl
@[simp] theorem State.done_txSlices : (s.done).txSlices = s.txSlices := rfl
@[simp] theorem State.done_eff : (s.done).eff = s.eff := rfl
@[simp] theorem State.done_chans : (s.done).chans = s.chans := rfl
@[simp] theorem State.done_yLast : (s.done).yLast = s.yLast := rfl
@[simp] theorem State.rd_done (x : Nat) : (s.done).rd x = s.rd x := by simp [State.rd]
@[simp] theorem State.get_done (x : Fld) : (s.done).get x = s.get x := by simp [State.get]
@[simp] theorem State.flag_done (x : Fld) : (s.done).flag x = s.flag x := by simp [State.flag]
@[simp] theorem State.byte_done (x : Nat) : (s.done).byte x = s.byte x := by simp [State.byte]

/-! ### detected -/

@[simp] theorem State.detected_pending : (s.detected).pending = s.pending := rfl
@[simp] theorem State.detected_now : (s.detected).now = s.now := rfl
@[simp] theorem State.detected_dev : (s.detected).dev = s.dev := rfl
@[simp] theorem State.detected_refclk : (s.detected).refclk = s.refclk := rfl
@[simp] theorem State.detected_regs : (s.detected).regs = s.regs := rfl
@[simp] theorem State.detected_mem : (s.detected).mem = s.mem := rfl
@[simp] theorem State.detected_upsets : (s.detected).upsets = s.upsets := rfl
@[simp] theorem State.detected_poison : (s.detected).poison = s.poison := rfl
@[simp] theorem State.detected_otp : (s.detected).otp = s.otp := rfl
@[simp] theorem State.detected_drawn : (s.detected).drawn = s.drawn := rfl
@[simp] theorem State.detected_shadow : (s.detected).shadow = s.shadow := rfl
@[simp] theorem State.detected_stage : (s.detected).stage = s.stage := rfl
@[simp] theorem State.detected_logged : (s.detected).logged = s.logged := rfl
@[simp] theorem State.detected_stalled : (s.detected).stalled = s.stalled := rfl
@[simp] theorem State.detected_gpioPins : (s.detected).gpioPins = s.gpioPins := rfl
@[simp] theorem State.detected_timer : (s.detected).timer = s.timer := rfl
@[simp] theorem State.detected_pwr : (s.detected).pwr = s.pwr := rfl
@[simp] theorem State.detected_rst : (s.detected).rst = s.rst := rfl
@[simp] theorem State.detected_sec : (s.detected).sec = s.sec := rfl
@[simp] theorem State.detected_cores : (s.detected).cores = s.cores := rfl
@[simp] theorem State.detected_cru : (s.detected).cru = s.cru := rfl
@[simp] theorem State.detected_mgmt : (s.detected).mgmt = s.mgmt := rfl
@[simp] theorem State.detected_irqnWriter : (s.detected).irqnWriter = s.irqnWriter := rfl
@[simp] theorem State.detected_timedOut : (s.detected).timedOut = s.timedOut := rfl
@[simp] theorem State.detected_portSt : (s.detected).portSt = s.portSt := rfl
@[simp] theorem State.detected_laneSt : (s.detected).laneSt = s.laneSt := rfl
@[simp] theorem State.detected_prbsSt : (s.detected).prbsSt = s.prbsSt := rfl
@[simp] theorem State.detected_thm : (s.detected).thm = s.thm := rfl
@[simp] theorem State.detected_mgt : (s.detected).mgt = s.mgt := rfl
@[simp] theorem State.detected_jtag : (s.detected).jtag = s.jtag := rfl
@[simp] theorem State.detected_cells : (s.detected).cells = s.cells := rfl
@[simp] theorem State.detected_scl : (s.detected).scl = s.scl := rfl
@[simp] theorem State.detected_link : (s.detected).link = s.link := rfl
@[simp] theorem State.detected_bias : (s.detected).bias = s.bias := rfl
@[simp] theorem State.detected_auxTick : (s.detected).auxTick = s.auxTick := rfl
@[simp] theorem State.detected_prtPaths : (s.detected).prtPaths = s.prtPaths := rfl
@[simp] theorem State.detected_pair : (s.detected).pair = s.pair := rfl
@[simp] theorem State.detected_tx : (s.detected).tx = s.tx := rfl
@[simp] theorem State.detected_dpd : (s.detected).dpd = s.dpd := rfl
@[simp] theorem State.detected_reload : (s.detected).reload = s.reload := rfl
@[simp] theorem State.detected_staged : (s.detected).staged = s.staged := rfl
@[simp] theorem State.detected_capture : (s.detected).capture = s.capture := rfl
@[simp] theorem State.detected_rx : (s.detected).rx = s.rx := rfl
@[simp] theorem State.detected_bf : (s.detected).bf = s.bf := rfl
@[simp] theorem State.detected_cnv : (s.detected).cnv = s.cnv := rfl
@[simp] theorem State.detected_rxSlices : (s.detected).rxSlices = s.rxSlices := rfl
@[simp] theorem State.detected_txSlices : (s.detected).txSlices = s.txSlices := rfl
@[simp] theorem State.detected_eff : (s.detected).eff = s.eff := rfl
@[simp] theorem State.detected_chans : (s.detected).chans = s.chans := rfl
@[simp] theorem State.detected_yLast : (s.detected).yLast = s.yLast := rfl
@[simp] theorem State.rd_detected (x : Nat) : (s.detected).rd x = s.rd x := by simp [State.rd]
@[simp] theorem State.get_detected (x : Fld) : (s.detected).get x = s.get x := by simp [State.get]
@[simp] theorem State.flag_detected (x : Fld) : (s.detected).flag x = s.flag x := by simp [State.flag]
@[simp] theorem State.byte_detected (x : Nat) : (s.detected).byte x = s.byte x := by simp [State.byte]

/-! ### errResp -/

@[simp] theorem State.errResp_pending (d : Bool) : (s.errResp d).pending = s.pending := rfl
@[simp] theorem State.errResp_now (d : Bool) : (s.errResp d).now = s.now := rfl
@[simp] theorem State.errResp_dev (d : Bool) : (s.errResp d).dev = s.dev := rfl
@[simp] theorem State.errResp_refclk (d : Bool) : (s.errResp d).refclk = s.refclk := rfl
@[simp] theorem State.errResp_regs (d : Bool) : (s.errResp d).regs = s.regs := rfl
@[simp] theorem State.errResp_mem (d : Bool) : (s.errResp d).mem = s.mem := rfl
@[simp] theorem State.errResp_upsets (d : Bool) : (s.errResp d).upsets = s.upsets := rfl
@[simp] theorem State.errResp_poison (d : Bool) : (s.errResp d).poison = s.poison := rfl
@[simp] theorem State.errResp_otp (d : Bool) : (s.errResp d).otp = s.otp := rfl
@[simp] theorem State.errResp_drawn (d : Bool) : (s.errResp d).drawn = s.drawn := rfl
@[simp] theorem State.errResp_shadow (d : Bool) : (s.errResp d).shadow = s.shadow := rfl
@[simp] theorem State.errResp_stage (d : Bool) : (s.errResp d).stage = s.stage := rfl
@[simp] theorem State.errResp_logged (d : Bool) : (s.errResp d).logged = s.logged := rfl
@[simp] theorem State.errResp_stalled (d : Bool) : (s.errResp d).stalled = s.stalled := rfl
@[simp] theorem State.errResp_gpioPins (d : Bool) : (s.errResp d).gpioPins = s.gpioPins := rfl
@[simp] theorem State.errResp_timer (d : Bool) : (s.errResp d).timer = s.timer := rfl
@[simp] theorem State.errResp_pwr (d : Bool) : (s.errResp d).pwr = s.pwr := rfl
@[simp] theorem State.errResp_rst (d : Bool) : (s.errResp d).rst = s.rst := rfl
@[simp] theorem State.errResp_sec (d : Bool) : (s.errResp d).sec = s.sec := rfl
@[simp] theorem State.errResp_cores (d : Bool) : (s.errResp d).cores = s.cores := rfl
@[simp] theorem State.errResp_cru (d : Bool) : (s.errResp d).cru = s.cru := rfl
@[simp] theorem State.errResp_mgmt (d : Bool) : (s.errResp d).mgmt = s.mgmt := rfl
@[simp] theorem State.errResp_irqnWriter (d : Bool) : (s.errResp d).irqnWriter = s.irqnWriter := rfl
@[simp] theorem State.errResp_timedOut (d : Bool) : (s.errResp d).timedOut = s.timedOut := rfl
@[simp] theorem State.errResp_portSt (d : Bool) : (s.errResp d).portSt = s.portSt := rfl
@[simp] theorem State.errResp_laneSt (d : Bool) : (s.errResp d).laneSt = s.laneSt := rfl
@[simp] theorem State.errResp_prbsSt (d : Bool) : (s.errResp d).prbsSt = s.prbsSt := rfl
@[simp] theorem State.errResp_thm (d : Bool) : (s.errResp d).thm = s.thm := rfl
@[simp] theorem State.errResp_mgt (d : Bool) : (s.errResp d).mgt = s.mgt := rfl
@[simp] theorem State.errResp_jtag (d : Bool) : (s.errResp d).jtag = s.jtag := rfl
@[simp] theorem State.errResp_cells (d : Bool) : (s.errResp d).cells = s.cells := rfl
@[simp] theorem State.errResp_scl (d : Bool) : (s.errResp d).scl = s.scl := rfl
@[simp] theorem State.errResp_link (d : Bool) : (s.errResp d).link = s.link := rfl
@[simp] theorem State.errResp_bias (d : Bool) : (s.errResp d).bias = s.bias := rfl
@[simp] theorem State.errResp_auxTick (d : Bool) : (s.errResp d).auxTick = s.auxTick := rfl
@[simp] theorem State.errResp_prtPaths (d : Bool) : (s.errResp d).prtPaths = s.prtPaths := rfl
@[simp] theorem State.errResp_pair (d : Bool) : (s.errResp d).pair = s.pair := rfl
@[simp] theorem State.errResp_tx (d : Bool) : (s.errResp d).tx = s.tx := rfl
@[simp] theorem State.errResp_dpd (d : Bool) : (s.errResp d).dpd = s.dpd := rfl
@[simp] theorem State.errResp_reload (d : Bool) : (s.errResp d).reload = s.reload := rfl
@[simp] theorem State.errResp_staged (d : Bool) : (s.errResp d).staged = s.staged := rfl
@[simp] theorem State.errResp_capture (d : Bool) : (s.errResp d).capture = s.capture := rfl
@[simp] theorem State.errResp_rx (d : Bool) : (s.errResp d).rx = s.rx := rfl
@[simp] theorem State.errResp_bf (d : Bool) : (s.errResp d).bf = s.bf := rfl
@[simp] theorem State.errResp_cnv (d : Bool) : (s.errResp d).cnv = s.cnv := rfl
@[simp] theorem State.errResp_rxSlices (d : Bool) : (s.errResp d).rxSlices = s.rxSlices := rfl
@[simp] theorem State.errResp_txSlices (d : Bool) : (s.errResp d).txSlices = s.txSlices := rfl
@[simp] theorem State.errResp_eff (d : Bool) : (s.errResp d).eff = s.eff := rfl
@[simp] theorem State.errResp_chans (d : Bool) : (s.errResp d).chans = s.chans := rfl
@[simp] theorem State.errResp_yLast (d : Bool) : (s.errResp d).yLast = s.yLast := rfl
@[simp] theorem State.rd_errResp (d : Bool) (x : Nat) : (s.errResp d).rd x = s.rd x := by simp [State.rd]
@[simp] theorem State.get_errResp (d : Bool) (x : Fld) : (s.errResp d).get x = s.get x := by simp [State.get]
@[simp] theorem State.flag_errResp (d : Bool) (x : Fld) : (s.errResp d).flag x = s.flag x := by simp [State.flag]
@[simp] theorem State.byte_errResp (d : Bool) (x : Nat) : (s.errResp d).byte x = s.byte x := by simp [State.byte]

/-! ### setByte -/

@[simp] theorem State.setByte_pending (a : Nat) (v : Byte) : (s.setByte a v).pending = s.pending := rfl
@[simp] theorem State.setByte_now (a : Nat) (v : Byte) : (s.setByte a v).now = s.now := rfl
@[simp] theorem State.setByte_dev (a : Nat) (v : Byte) : (s.setByte a v).dev = s.dev := rfl
@[simp] theorem State.setByte_refclk (a : Nat) (v : Byte) : (s.setByte a v).refclk = s.refclk := rfl
@[simp] theorem State.setByte_regs (a : Nat) (v : Byte) : (s.setByte a v).regs = s.regs := rfl
@[simp] theorem State.setByte_upsets (a : Nat) (v : Byte) : (s.setByte a v).upsets = s.upsets := rfl
@[simp] theorem State.setByte_poison (a : Nat) (v : Byte) : (s.setByte a v).poison = s.poison := rfl
@[simp] theorem State.setByte_otp (a : Nat) (v : Byte) : (s.setByte a v).otp = s.otp := rfl
@[simp] theorem State.setByte_drawn (a : Nat) (v : Byte) : (s.setByte a v).drawn = s.drawn := rfl
@[simp] theorem State.setByte_shadow (a : Nat) (v : Byte) : (s.setByte a v).shadow = s.shadow := rfl
@[simp] theorem State.setByte_stage (a : Nat) (v : Byte) : (s.setByte a v).stage = s.stage := rfl
@[simp] theorem State.setByte_resp (a : Nat) (v : Byte) : (s.setByte a v).resp = s.resp := rfl
@[simp] theorem State.setByte_logged (a : Nat) (v : Byte) : (s.setByte a v).logged = s.logged := rfl
@[simp] theorem State.setByte_stalled (a : Nat) (v : Byte) : (s.setByte a v).stalled = s.stalled := rfl
@[simp] theorem State.setByte_gpioPins (a : Nat) (v : Byte) : (s.setByte a v).gpioPins = s.gpioPins := rfl
@[simp] theorem State.setByte_timer (a : Nat) (v : Byte) : (s.setByte a v).timer = s.timer := rfl
@[simp] theorem State.setByte_pwr (a : Nat) (v : Byte) : (s.setByte a v).pwr = s.pwr := rfl
@[simp] theorem State.setByte_rst (a : Nat) (v : Byte) : (s.setByte a v).rst = s.rst := rfl
@[simp] theorem State.setByte_sec (a : Nat) (v : Byte) : (s.setByte a v).sec = s.sec := rfl
@[simp] theorem State.setByte_cores (a : Nat) (v : Byte) : (s.setByte a v).cores = s.cores := rfl
@[simp] theorem State.setByte_cru (a : Nat) (v : Byte) : (s.setByte a v).cru = s.cru := rfl
@[simp] theorem State.setByte_mgmt (a : Nat) (v : Byte) : (s.setByte a v).mgmt = s.mgmt := rfl
@[simp] theorem State.setByte_irqnWriter (a : Nat) (v : Byte) : (s.setByte a v).irqnWriter = s.irqnWriter := rfl
@[simp] theorem State.setByte_timedOut (a : Nat) (v : Byte) : (s.setByte a v).timedOut = s.timedOut := rfl
@[simp] theorem State.setByte_portSt (a : Nat) (v : Byte) : (s.setByte a v).portSt = s.portSt := rfl
@[simp] theorem State.setByte_laneSt (a : Nat) (v : Byte) : (s.setByte a v).laneSt = s.laneSt := rfl
@[simp] theorem State.setByte_prbsSt (a : Nat) (v : Byte) : (s.setByte a v).prbsSt = s.prbsSt := rfl
@[simp] theorem State.setByte_thm (a : Nat) (v : Byte) : (s.setByte a v).thm = s.thm := rfl
@[simp] theorem State.setByte_mgt (a : Nat) (v : Byte) : (s.setByte a v).mgt = s.mgt := rfl
@[simp] theorem State.setByte_jtag (a : Nat) (v : Byte) : (s.setByte a v).jtag = s.jtag := rfl
@[simp] theorem State.setByte_cells (a : Nat) (v : Byte) : (s.setByte a v).cells = s.cells := rfl
@[simp] theorem State.setByte_scl (a : Nat) (v : Byte) : (s.setByte a v).scl = s.scl := rfl
@[simp] theorem State.setByte_link (a : Nat) (v : Byte) : (s.setByte a v).link = s.link := rfl
@[simp] theorem State.setByte_bias (a : Nat) (v : Byte) : (s.setByte a v).bias = s.bias := rfl
@[simp] theorem State.setByte_auxTick (a : Nat) (v : Byte) : (s.setByte a v).auxTick = s.auxTick := rfl
@[simp] theorem State.setByte_prtPaths (a : Nat) (v : Byte) : (s.setByte a v).prtPaths = s.prtPaths := rfl
@[simp] theorem State.setByte_pair (a : Nat) (v : Byte) : (s.setByte a v).pair = s.pair := rfl
@[simp] theorem State.setByte_tx (a : Nat) (v : Byte) : (s.setByte a v).tx = s.tx := rfl
@[simp] theorem State.setByte_dpd (a : Nat) (v : Byte) : (s.setByte a v).dpd = s.dpd := rfl
@[simp] theorem State.setByte_reload (a : Nat) (v : Byte) : (s.setByte a v).reload = s.reload := rfl
@[simp] theorem State.setByte_staged (a : Nat) (v : Byte) : (s.setByte a v).staged = s.staged := rfl
@[simp] theorem State.setByte_capture (a : Nat) (v : Byte) : (s.setByte a v).capture = s.capture := rfl
@[simp] theorem State.setByte_rx (a : Nat) (v : Byte) : (s.setByte a v).rx = s.rx := rfl
@[simp] theorem State.setByte_bf (a : Nat) (v : Byte) : (s.setByte a v).bf = s.bf := rfl
@[simp] theorem State.setByte_cnv (a : Nat) (v : Byte) : (s.setByte a v).cnv = s.cnv := rfl
@[simp] theorem State.setByte_rxSlices (a : Nat) (v : Byte) : (s.setByte a v).rxSlices = s.rxSlices := rfl
@[simp] theorem State.setByte_txSlices (a : Nat) (v : Byte) : (s.setByte a v).txSlices = s.txSlices := rfl
@[simp] theorem State.setByte_eff (a : Nat) (v : Byte) : (s.setByte a v).eff = s.eff := rfl
@[simp] theorem State.setByte_chans (a : Nat) (v : Byte) : (s.setByte a v).chans = s.chans := rfl
@[simp] theorem State.setByte_yLast (a : Nat) (v : Byte) : (s.setByte a v).yLast = s.yLast := rfl
@[simp] theorem State.rd_setByte (a : Nat) (v : Byte) (x : Nat) : (s.setByte a v).rd x = s.rd x := by simp [State.rd]
@[simp] theorem State.get_setByte (a : Nat) (v : Byte) (x : Fld) : (s.setByte a v).get x = s.get x := by simp [State.get]
@[simp] theorem State.flag_setByte (a : Nat) (v : Byte) (x : Fld) : (s.setByte a v).flag x = s.flag x := by simp [State.flag]

/-! ### hit -/

@[simp] theorem State.hit_pending (a : Nat) (u : Upset) : (s.hit a u).pending = s.pending := rfl
@[simp] theorem State.hit_now (a : Nat) (u : Upset) : (s.hit a u).now = s.now := rfl
@[simp] theorem State.hit_dev (a : Nat) (u : Upset) : (s.hit a u).dev = s.dev := rfl
@[simp] theorem State.hit_refclk (a : Nat) (u : Upset) : (s.hit a u).refclk = s.refclk := rfl
@[simp] theorem State.hit_regs (a : Nat) (u : Upset) : (s.hit a u).regs = s.regs := rfl
@[simp] theorem State.hit_mem (a : Nat) (u : Upset) : (s.hit a u).mem = s.mem := rfl
@[simp] theorem State.hit_poison (a : Nat) (u : Upset) : (s.hit a u).poison = s.poison := rfl
@[simp] theorem State.hit_otp (a : Nat) (u : Upset) : (s.hit a u).otp = s.otp := rfl
@[simp] theorem State.hit_drawn (a : Nat) (u : Upset) : (s.hit a u).drawn = s.drawn := rfl
@[simp] theorem State.hit_shadow (a : Nat) (u : Upset) : (s.hit a u).shadow = s.shadow := rfl
@[simp] theorem State.hit_stage (a : Nat) (u : Upset) : (s.hit a u).stage = s.stage := rfl
@[simp] theorem State.hit_resp (a : Nat) (u : Upset) : (s.hit a u).resp = s.resp := rfl
@[simp] theorem State.hit_logged (a : Nat) (u : Upset) : (s.hit a u).logged = s.logged := rfl
@[simp] theorem State.hit_stalled (a : Nat) (u : Upset) : (s.hit a u).stalled = s.stalled := rfl
@[simp] theorem State.hit_gpioPins (a : Nat) (u : Upset) : (s.hit a u).gpioPins = s.gpioPins := rfl
@[simp] theorem State.hit_timer (a : Nat) (u : Upset) : (s.hit a u).timer = s.timer := rfl
@[simp] theorem State.hit_pwr (a : Nat) (u : Upset) : (s.hit a u).pwr = s.pwr := rfl
@[simp] theorem State.hit_rst (a : Nat) (u : Upset) : (s.hit a u).rst = s.rst := rfl
@[simp] theorem State.hit_sec (a : Nat) (u : Upset) : (s.hit a u).sec = s.sec := rfl
@[simp] theorem State.hit_cores (a : Nat) (u : Upset) : (s.hit a u).cores = s.cores := rfl
@[simp] theorem State.hit_cru (a : Nat) (u : Upset) : (s.hit a u).cru = s.cru := rfl
@[simp] theorem State.hit_mgmt (a : Nat) (u : Upset) : (s.hit a u).mgmt = s.mgmt := rfl
@[simp] theorem State.hit_irqnWriter (a : Nat) (u : Upset) : (s.hit a u).irqnWriter = s.irqnWriter := rfl
@[simp] theorem State.hit_timedOut (a : Nat) (u : Upset) : (s.hit a u).timedOut = s.timedOut := rfl
@[simp] theorem State.hit_portSt (a : Nat) (u : Upset) : (s.hit a u).portSt = s.portSt := rfl
@[simp] theorem State.hit_laneSt (a : Nat) (u : Upset) : (s.hit a u).laneSt = s.laneSt := rfl
@[simp] theorem State.hit_prbsSt (a : Nat) (u : Upset) : (s.hit a u).prbsSt = s.prbsSt := rfl
@[simp] theorem State.hit_thm (a : Nat) (u : Upset) : (s.hit a u).thm = s.thm := rfl
@[simp] theorem State.hit_mgt (a : Nat) (u : Upset) : (s.hit a u).mgt = s.mgt := rfl
@[simp] theorem State.hit_jtag (a : Nat) (u : Upset) : (s.hit a u).jtag = s.jtag := rfl
@[simp] theorem State.hit_cells (a : Nat) (u : Upset) : (s.hit a u).cells = s.cells := rfl
@[simp] theorem State.hit_scl (a : Nat) (u : Upset) : (s.hit a u).scl = s.scl := rfl
@[simp] theorem State.hit_link (a : Nat) (u : Upset) : (s.hit a u).link = s.link := rfl
@[simp] theorem State.hit_bias (a : Nat) (u : Upset) : (s.hit a u).bias = s.bias := rfl
@[simp] theorem State.hit_auxTick (a : Nat) (u : Upset) : (s.hit a u).auxTick = s.auxTick := rfl
@[simp] theorem State.hit_prtPaths (a : Nat) (u : Upset) : (s.hit a u).prtPaths = s.prtPaths := rfl
@[simp] theorem State.hit_pair (a : Nat) (u : Upset) : (s.hit a u).pair = s.pair := rfl
@[simp] theorem State.hit_tx (a : Nat) (u : Upset) : (s.hit a u).tx = s.tx := rfl
@[simp] theorem State.hit_dpd (a : Nat) (u : Upset) : (s.hit a u).dpd = s.dpd := rfl
@[simp] theorem State.hit_reload (a : Nat) (u : Upset) : (s.hit a u).reload = s.reload := rfl
@[simp] theorem State.hit_staged (a : Nat) (u : Upset) : (s.hit a u).staged = s.staged := rfl
@[simp] theorem State.hit_capture (a : Nat) (u : Upset) : (s.hit a u).capture = s.capture := rfl
@[simp] theorem State.hit_rx (a : Nat) (u : Upset) : (s.hit a u).rx = s.rx := rfl
@[simp] theorem State.hit_bf (a : Nat) (u : Upset) : (s.hit a u).bf = s.bf := rfl
@[simp] theorem State.hit_cnv (a : Nat) (u : Upset) : (s.hit a u).cnv = s.cnv := rfl
@[simp] theorem State.hit_rxSlices (a : Nat) (u : Upset) : (s.hit a u).rxSlices = s.rxSlices := rfl
@[simp] theorem State.hit_txSlices (a : Nat) (u : Upset) : (s.hit a u).txSlices = s.txSlices := rfl
@[simp] theorem State.hit_eff (a : Nat) (u : Upset) : (s.hit a u).eff = s.eff := rfl
@[simp] theorem State.hit_chans (a : Nat) (u : Upset) : (s.hit a u).chans = s.chans := rfl
@[simp] theorem State.hit_yLast (a : Nat) (u : Upset) : (s.hit a u).yLast = s.yLast := rfl
@[simp] theorem State.rd_hit (a : Nat) (u : Upset) (x : Nat) : (s.hit a u).rd x = s.rd x := by simp [State.rd]
@[simp] theorem State.get_hit (a : Nat) (u : Upset) (x : Fld) : (s.hit a u).get x = s.get x := by simp [State.get]
@[simp] theorem State.flag_hit (a : Nat) (u : Upset) (x : Fld) : (s.hit a u).flag x = s.flag x := by simp [State.flag]
@[simp] theorem State.byte_hit (a : Nat) (u : Upset) (x : Nat) : (s.hit a u).byte x = s.byte x := by simp [State.byte]

/-! ### touch -/

@[simp] theorem State.touch_pending (a : Nat) : (s.touch a).pending = s.pending := by
  unfold State.touch; repeat' split
  all_goals rfl
@[simp] theorem State.touch_now (a : Nat) : (s.touch a).now = s.now := by
  unfold State.touch; repeat' split
  all_goals rfl
@[simp] theorem State.touch_dev (a : Nat) : (s.touch a).dev = s.dev := by
  unfold State.touch; repeat' split
  all_goals rfl
@[simp] theorem State.touch_refclk (a : Nat) : (s.touch a).refclk = s.refclk := by
  unfold State.touch; repeat' split
  all_goals rfl
@[simp] theorem State.touch_regs (a : Nat) : (s.touch a).regs = s.regs := by
  unfold State.touch; repeat' split
  all_goals rfl
@[simp] theorem State.touch_mem (a : Nat) : (s.touch a).mem = s.mem := by
  unfold State.touch; repeat' split
  all_goals rfl
@[simp] theorem State.touch_upsets (a : Nat) : (s.touch a).upsets = s.upsets := by
  unfold State.touch; repeat' split
  all_goals rfl
@[simp] theorem State.touch_poison (a : Nat) : (s.touch a).poison = s.poison := by
  unfold State.touch; repeat' split
  all_goals rfl
@[simp] theorem State.touch_otp (a : Nat) : (s.touch a).otp = s.otp := by
  unfold State.touch; repeat' split
  all_goals rfl
@[simp] theorem State.touch_drawn (a : Nat) : (s.touch a).drawn = s.drawn := by
  unfold State.touch; repeat' split
  all_goals rfl
@[simp] theorem State.touch_shadow (a : Nat) : (s.touch a).shadow = s.shadow := by
  unfold State.touch; repeat' split
  all_goals rfl
@[simp] theorem State.touch_stage (a : Nat) : (s.touch a).stage = s.stage := by
  unfold State.touch; repeat' split
  all_goals rfl
@[simp] theorem State.touch_resp (a : Nat) : (s.touch a).resp = s.resp := by
  unfold State.touch; repeat' split
  all_goals rfl
@[simp] theorem State.touch_logged (a : Nat) : (s.touch a).logged = s.logged := by
  unfold State.touch; repeat' split
  all_goals rfl
@[simp] theorem State.touch_stalled (a : Nat) : (s.touch a).stalled = s.stalled := by
  unfold State.touch; repeat' split
  all_goals rfl
@[simp] theorem State.touch_gpioPins (a : Nat) : (s.touch a).gpioPins = s.gpioPins := by
  unfold State.touch; repeat' split
  all_goals rfl
@[simp] theorem State.touch_timer (a : Nat) : (s.touch a).timer = s.timer := by
  unfold State.touch; repeat' split
  all_goals rfl
@[simp] theorem State.touch_pwr (a : Nat) : (s.touch a).pwr = s.pwr := by
  unfold State.touch; repeat' split
  all_goals rfl
@[simp] theorem State.touch_rst (a : Nat) : (s.touch a).rst = s.rst := by
  unfold State.touch; repeat' split
  all_goals rfl
@[simp] theorem State.touch_sec (a : Nat) : (s.touch a).sec = s.sec := by
  unfold State.touch; repeat' split
  all_goals rfl
@[simp] theorem State.touch_cores (a : Nat) : (s.touch a).cores = s.cores := by
  unfold State.touch; repeat' split
  all_goals rfl
@[simp] theorem State.touch_cru (a : Nat) : (s.touch a).cru = s.cru := by
  unfold State.touch; repeat' split
  all_goals rfl
@[simp] theorem State.touch_mgmt (a : Nat) : (s.touch a).mgmt = s.mgmt := by
  unfold State.touch; repeat' split
  all_goals rfl
@[simp] theorem State.touch_irqnWriter (a : Nat) : (s.touch a).irqnWriter = s.irqnWriter := by
  unfold State.touch; repeat' split
  all_goals rfl
@[simp] theorem State.touch_timedOut (a : Nat) : (s.touch a).timedOut = s.timedOut := by
  unfold State.touch; repeat' split
  all_goals rfl
@[simp] theorem State.touch_portSt (a : Nat) : (s.touch a).portSt = s.portSt := by
  unfold State.touch; repeat' split
  all_goals rfl
@[simp] theorem State.touch_laneSt (a : Nat) : (s.touch a).laneSt = s.laneSt := by
  unfold State.touch; repeat' split
  all_goals rfl
@[simp] theorem State.touch_prbsSt (a : Nat) : (s.touch a).prbsSt = s.prbsSt := by
  unfold State.touch; repeat' split
  all_goals rfl
@[simp] theorem State.touch_thm (a : Nat) : (s.touch a).thm = s.thm := by
  unfold State.touch; repeat' split
  all_goals rfl
@[simp] theorem State.touch_mgt (a : Nat) : (s.touch a).mgt = s.mgt := by
  unfold State.touch; repeat' split
  all_goals rfl
@[simp] theorem State.touch_jtag (a : Nat) : (s.touch a).jtag = s.jtag := by
  unfold State.touch; repeat' split
  all_goals rfl
@[simp] theorem State.touch_cells (a : Nat) : (s.touch a).cells = s.cells := by
  unfold State.touch; repeat' split
  all_goals rfl
@[simp] theorem State.touch_scl (a : Nat) : (s.touch a).scl = s.scl := by
  unfold State.touch; repeat' split
  all_goals rfl
@[simp] theorem State.touch_link (a : Nat) : (s.touch a).link = s.link := by
  unfold State.touch; repeat' split
  all_goals rfl
@[simp] theorem State.touch_bias (a : Nat) : (s.touch a).bias = s.bias := by
  unfold State.touch; repeat' split
  all_goals rfl
@[simp] theorem State.touch_auxTick (a : Nat) : (s.touch a).auxTick = s.auxTick := by
  unfold State.touch; repeat' split
  all_goals rfl
@[simp] theorem State.touch_prtPaths (a : Nat) : (s.touch a).prtPaths = s.prtPaths := by
  unfold State.touch; repeat' split
  all_goals rfl
@[simp] theorem State.touch_tx (a : Nat) : (s.touch a).tx = s.tx := by
  unfold State.touch; repeat' split
  all_goals rfl
@[simp] theorem State.touch_dpd (a : Nat) : (s.touch a).dpd = s.dpd := by
  unfold State.touch; repeat' split
  all_goals rfl
@[simp] theorem State.touch_reload (a : Nat) : (s.touch a).reload = s.reload := by
  unfold State.touch; repeat' split
  all_goals rfl
@[simp] theorem State.touch_staged (a : Nat) : (s.touch a).staged = s.staged := by
  unfold State.touch; repeat' split
  all_goals rfl
@[simp] theorem State.touch_capture (a : Nat) : (s.touch a).capture = s.capture := by
  unfold State.touch; repeat' split
  all_goals rfl
@[simp] theorem State.touch_rx (a : Nat) : (s.touch a).rx = s.rx := by
  unfold State.touch; repeat' split
  all_goals rfl
@[simp] theorem State.touch_bf (a : Nat) : (s.touch a).bf = s.bf := by
  unfold State.touch; repeat' split
  all_goals rfl
@[simp] theorem State.touch_cnv (a : Nat) : (s.touch a).cnv = s.cnv := by
  unfold State.touch; repeat' split
  all_goals rfl
@[simp] theorem State.touch_rxSlices (a : Nat) : (s.touch a).rxSlices = s.rxSlices := by
  unfold State.touch; repeat' split
  all_goals rfl
@[simp] theorem State.touch_txSlices (a : Nat) : (s.touch a).txSlices = s.txSlices := by
  unfold State.touch; repeat' split
  all_goals rfl
@[simp] theorem State.touch_eff (a : Nat) : (s.touch a).eff = s.eff := by
  unfold State.touch; repeat' split
  all_goals rfl
@[simp] theorem State.touch_chans (a : Nat) : (s.touch a).chans = s.chans := by
  unfold State.touch; repeat' split
  all_goals rfl
@[simp] theorem State.touch_yLast (a : Nat) : (s.touch a).yLast = s.yLast := by
  unfold State.touch; repeat' split
  all_goals rfl
@[simp] theorem State.rd_touch (a : Nat) (x : Nat) : (s.touch a).rd x = s.rd x := by simp [State.rd]
@[simp] theorem State.get_touch (a : Nat) (x : Fld) : (s.touch a).get x = s.get x := by simp [State.get]
@[simp] theorem State.flag_touch (a : Nat) (x : Fld) : (s.touch a).flag x = s.flag x := by simp [State.flag]
@[simp] theorem State.byte_touch (a : Nat) (x : Nat) : (s.touch a).byte x = s.byte x := by simp [State.byte]

end Sys2Proof.Machine
end

