-- ==== Sys2Proof/Laws/Access.lean ====
section
/-!
SUPPORT. Laws of accesses: what an access does where the rule of R54 lets it through at once.
-/
namespace Sys2Proof.Machine

/-- Where no flow-table command is over, looking for one changes nothing. -/
theorem State.flowSettle_idle (s : State) (h : s.flowIdle = true) : s.flowSettle = s := by
  unfold State.flowSettle
  split
  · rename_i v t e
    rw [if_neg]
    simp only [State.flowIdle, e, Option.all_some, decide_eq_true_eq] at h
    omega
  · rfl

/-- An address that is ready has no flow-table command to complete. -/
theorem State.flowSettle_ready (s : State) {a : Nat} (h : s.ready a = true) : s.flowSettle = s := by
  simp only [State.ready, Bool.and_eq_true] at h
  exact s.flowSettle_idle h.2

/-- An access that is ready is performed. -/
theorem State.gated_ready (s : State) (acc : Access) (f : State → State)
    (h : s.ready acc.addr.toNat = true) : s.gated acc f = f s := by
  have e : BitVec.ofNat 32 acc.addr.toNat = acc.addr := by simp
  simp only [State.ready, Bool.and_eq_true, Bool.not_eq_true', Option.isNone_iff_eq_none, Bool.or_eq_true, beq_iff_eq, e] at h
  obtain ⟨⟨⟨⟨ho, ht⟩, hs⟩, hd⟩, -⟩ := h
  simp only [State.gated, State.gatedBy, State.optClosed, ho, ht, Bool.false_and, Bool.false_eq_true, false_or]
  rcases hs with hs | hs <;> simp [hs, hd]

/-- The address of an access comes back as given, within 32 bits. -/
theorem ready_mod (s : State) (a : Nat) : s.ready (BitVec.ofNat 32 a).toNat = s.ready a := by
  simp [State.ready]

/-- A register write that is ready. -/
theorem State.writeCmd_ready (s : State) (id : ReqId) (a : Nat) (v : Word) (f : State → State) (h : s.ready a = true) :
    s.writeCmd id a v f = ((f s).done).touch a := by
  unfold State.writeCmd
  exact State.gated_ready s (wrAcc id a v) _ (by rw [← ready_mod] at h; exact h)

/-- A register read that is ready. -/
theorem State.gated_read_ready (s : State) (id : ReqId) (a : Nat) (f : State → State) (h : s.ready a = true) :
    s.gated (rdAcc id a) f = f s :=
  State.gated_ready s (rdAcc id a) f (by rw [← ready_mod] at h; exact h)

/-- An access on the bus that is decoded, of a right size and ready is performed. -/
theorem State.bus_ready (s : State) (acc : Access) {d : Nat} (hd : domOf acc.addr.toNat = some d)
    (hz : sizeOk acc.addr.toNat acc.size acc.write = true) (h : s.ready acc.addr.toNat = true) : s.bus acc = s.perform acc := by
  have g := State.gated_ready s acc (·.perform acc) h
  simp only [State.gated, hd, Option.getD_some] at g
  simp only [State.bus, hd, hz, if_true]
  exact g

/-- The bus writes a register: an aligned address of a page, in a domain that is on. -/
theorem State.bus_write_reg (s : State) (id : ReqId) (a : Nat) (v : Word) {k : PageKind} {n : Nat} (ha : a < 2 ^ 32)
    (hp : pageAt a = some (k, n)) (hm : memAt a = none) (h4 : a % 4 = 0) (h : s.ready a = true) :
    s.bus (wrAcc id a v) = (s.regWrite id a v).done := by
  have e : (BitVec.ofNat 32 a).toNat = a := by rw [BitVec.toNat_ofNat, Nat.mod_eq_of_lt ha]
  have hd : ∃ d, domOf (wrAcc id a v).addr.toNat = some d := by
    simp only [wrAcc, e, domOf, hm, hp]
    exact ⟨_, rfl⟩
  obtain ⟨d, hd⟩ := hd
  rw [State.bus_ready s (wrAcc id a v) hd (by simp [wrAcc, sizeOk, e, hm, h4]) (by simpa [wrAcc, e] using h)]
  simp [State.perform, wrAcc, e, hm, s.flowSettle_ready h]

/-- The bus reads a register. -/
theorem State.bus_read_reg (s : State) (id : ReqId) (a : Nat) {k : PageKind} {n : Nat} (ha : a < 2 ^ 32)
    (hp : pageAt a = some (k, n)) (hm : memAt a = none) (h4 : a % 4 = 0) (h : s.ready a = true) :
    s.bus (rdAcc id a) = s.regRead id a := by
  have e : (BitVec.ofNat 32 a).toNat = a := by rw [BitVec.toNat_ofNat, Nat.mod_eq_of_lt ha]
  have hd : ∃ d, domOf (rdAcc id a).addr.toNat = some d := by
    simp only [rdAcc, e, domOf, hm, hp]
    exact ⟨_, rfl⟩
  obtain ⟨d, hd⟩ := hd
  rw [State.bus_ready s (rdAcc id a) hd (by simp [rdAcc, sizeOk, e, hm, h4]) (by simpa [rdAcc, e] using h)]
  simp [State.perform, rdAcc, e, hm, s.flowSettle_ready h]

/-- A register from offset 0x040 on that is no half of a wide value is written by the rules of its page; a setting that takes effect
at an entry start does so at once while the timer stands. -/
theorem State.regWrite_body (s : State) (id : ReqId) (a : Nat) (v : Word) {k : PageKind} {n : Nat} (hp : pageAt a = some (k, n))
    (hr : (rowAt k (a % 0x1000)).isNone = false) (ho : ¬a % 0x1000 < 0x40) (hh : wideHi k (a % 0x1000) = false)
    (hl : wideLo k (a % 0x1000) = false) :
    s.regWrite id a v = (if deferredRegs.contains a then (s.bodyWrite id k n a (a % 0x1000) v).refreshIfStopped
      else s.bodyWrite id k n a (a % 0x1000) v).touch a := by
  simp only [State.regWrite, hp, hr, ho, hh, hl, Bool.false_eq_true, if_false]

/-- A register of the header is written by the rules of the header. -/
theorem State.regWrite_header (s : State) (id : ReqId) (a : Nat) (v : Word) {k : PageKind} {n : Nat} (hp : pageAt a = some (k, n))
    (hr : (rowAt k (a % 0x1000)).isNone = false) (ho : a % 0x1000 < 0x40) :
    s.regWrite id a v = (if deferredRegs.contains a then (s.hdrWrite k n (pageBase a) (a % 0x1000) v).refreshIfStopped
      else s.hdrWrite k n (pageBase a) (a % 0x1000) v).touch a := by
  simp only [State.regWrite, hp, hr, ho, Bool.false_eq_true, if_false, if_true]

end Sys2Proof.Machine
end

