-- ==== Sys2Proof/Laws/Memory.lean ====
section
/-!
SUPPORT. Laws of memory: what a read gives after a write, and that every operation on memory keeps its canonical form.
-/
namespace Sys2Proof.Machine

/-! ## Reads after writes -/

/-- A byte reads as it was stored. -/
@[simp] theorem State.byte_setByte_same (s : State) (a : Nat) (v : Byte) : (s.setByte a v).byte a = v :=
  Store.get_put_same ..

/-- Another byte reads as before. -/
theorem State.byte_setByte_other (s : State) {a b : Nat} (v : Byte) (h : b ≠ a) : (s.setByte a v).byte b = s.byte b :=
  Store.get_put_other _ _ _ _ h

/-- A byte outside the n bytes stored at an address reads as before. -/
theorem State.byte_store_other (s : State) (a v n b : Nat) (h : b < a ∨ a + n ≤ b) : (s.store a v n).byte b = s.byte b := by
  induction n generalizing s a v with
  | zero => rfl
  | succ n ih =>
    rw [State.store, ih _ _ _ (by omega), State.byte_setByte_other _ _ (by omega)]

/-- A byte inside the n bytes stored at an address is the number's byte of that place (R7). -/
theorem State.byte_store_same (s : State) (a v n k : Nat) (h : k < n) :
    (s.store a v n).byte (a + k) = BitVec.ofNat 8 (v / 256 ^ k) := by
  induction n generalizing s a v k with
  | zero => omega
  | succ n ih =>
    rw [State.store]
    cases k with
    | zero => rw [State.byte_store_other _ _ _ _ _ (by omega)]; simp
    | succ k =>
      have e : a + (k + 1) = a + 1 + k := by omega
      rw [e, ih _ _ _ _ (by omega), Nat.div_div_eq_div_mul, Nat.pow_succ, Nat.mul_comm]

/-- What is loaded from bytes that read the same is the same. -/
theorem State.load_congr {s t : State} (a n : Nat) (h : ∀ k, k < n → t.byte (a + k) = s.byte (a + k)) :
    t.load a n = s.load a n := by
  induction n generalizing a with
  | zero => rfl
  | succ n ih =>
    rw [State.load, State.load, ih (a + 1) (fun k hk => by have := h (k + 1) (by omega); rwa [show a + (k + 1) = a + 1 + k by omega] at this)]
    have h0 := h 0 (by omega)
    rw [Nat.add_zero] at h0
    rw [h0]

/-- n bytes load as the number stored in them, within their width. -/
theorem State.load_store_same (s : State) (a v n : Nat) : (s.store a v n).load a n = v % 256 ^ n := by
  induction n generalizing s a v with
  | zero => simp [State.load, Nat.mod_one]
  | succ n ih =>
    rw [State.store, State.load, ih, State.byte_store_other _ _ _ _ _ (by omega), State.byte_setByte_same, BitVec.toNat_ofNat,
      show 256 ^ (n + 1) = 256 * 256 ^ n by rw [Nat.pow_succ, Nat.mul_comm], Nat.mod_mul]

/-- Bytes apart from those stored load as before. -/
theorem State.load_store_other (s : State) (a v n b m : Nat) (h : b + m ≤ a ∨ a + n ≤ b) :
    (s.store a v n).load b m = s.load b m :=
  State.load_congr _ _ fun k _ => State.byte_store_other _ _ _ _ _ (by omega)

/-- A word reads as it was stored. -/
@[simp] theorem State.word_setWord_same (s : State) (a : Nat) (v : Word) : (s.setWord a v).word a = v := by
  have h : v.toNat < 256 ^ 4 := by have := v.isLt; omega
  rw [State.word, State.setWord, State.load_store_same, Nat.mod_eq_of_lt h, BitVec.ofNat_toNat, BitVec.setWidth_eq]

/-- A word apart from the one stored reads as before. -/
theorem State.word_setWord_other (s : State) {a b : Nat} (v : Word) (h : b + 4 ≤ a ∨ a + 4 ≤ b) :
    (s.setWord a v).word b = s.word b := by
  rw [State.word, State.setWord, State.load_store_other _ _ _ _ _ _ h, State.word]

/-! ## Upsets leave memory as it is -/

/-- The end of an upset changes no stored byte. -/
@[simp] theorem State.heal_mem (s : State) (a : Nat) : (s.heal a).mem = s.mem := rfl

/-- A store of a parity word stores that word. -/
@[simp] theorem State.setParityWord_mem (s : State) (a : Nat) (v : Word) : (s.setParityWord a v).mem = (s.setWord a v).mem :=
  State.heal_mem _ _

/-! ## The canonical form -/

/-- What is left of rising keys rises. -/
theorem Store.sortedFrom_filter {α : Type} (p : Nat × α → Bool) (m : Store α) {lo : Nat} (h : Store.sortedFrom lo m = true) :
    Store.sortedFrom lo (m.filter p) = true := by
  induction m generalizing lo with
  | nil => rfl
  | cons e t ih =>
    obtain ⟨a, b⟩ := e
    simp [Store.sortedFrom] at h
    by_cases hp : p (a, b) = true
    · simp [hp, Store.sortedFrom, h.1, ih h.2]
    · simp only [List.filter_cons, hp]
      exact Store.sortedFrom_mono _ (by omega) (ih h.2)

/-- What is left of storage in its canonical form is in it. -/
theorem Store.wf_filter {α : Type} [DecidableEq α] (f : Nat → α) (p : Nat × α → Bool) (m : Store α) (h : Store.wf f m = true) :
    Store.wf f (m.filter p) = true := by
  simp only [Store.wf, Bool.and_eq_true, List.all_eq_true] at h ⊢
  exact ⟨Store.sortedFrom_filter _ _ h.1, fun e he => h.2 e ((List.mem_filter.mp he).1)⟩

/-- After reset memory lists nothing, which is the canonical form. -/
theorem State.memWf_reset : State.reset.memWf = true := by decide

/-- Memory that another state shares is in the form there too. -/
theorem State.memWf_congr {s t : State} (h : t.mem = s.mem) : t.memWf = s.memWf := by
  unfold State.memWf; rw [h]

/-- A stored byte keeps the form. -/
theorem State.memWf_setByte {s : State} (a : Nat) (v : Byte) (h : s.memWf = true) : (s.setByte a v).memWf = true :=
  Store.wf_put memDefault s.mem a v h

/-- Stored bytes of a number keep the form. -/
theorem State.memWf_store {s : State} (a v n : Nat) (h : s.memWf = true) : (s.store a v n).memWf = true := by
  induction n generalizing s a v with
  | zero => exact h
  | succ n ih => exact ih _ _ (State.memWf_setByte _ _ h)

/-- A stored word keeps the form. -/
theorem State.memWf_setWord {s : State} (a : Nat) (v : Word) (h : s.memWf = true) : (s.setWord a v).memWf = true :=
  State.memWf_store _ _ _ h

/-- Stored bytes keep the form. -/
theorem State.memWf_putBytes {s : State} (a : Nat) (bs : List Byte) (h : s.memWf = true) : (s.putBytes a bs).memWf = true := by
  induction bs generalizing s a with
  | nil => exact h
  | cons b t ih => exact ih _ (State.memWf_setByte _ _ h)

/-- A stored parity word keeps the form. -/
theorem State.memWf_setParityWord {s : State} (a : Nat) (v : Word) (h : s.memWf = true) : (s.setParityWord a v).memWf = true := by
  rw [State.memWf_congr (State.setParityWord_mem s a v)]; exact State.memWf_setWord a v h

/-- Forgotten bytes keep the form. -/
theorem State.memWf_wipe {s : State} (lo hi : Nat) (h : s.memWf = true) : (s.wipe lo hi).memWf = true :=
  Store.wf_filter _ _ _ h

/-- The cold values keep the form. -/
theorem State.memWf_coldClear {s : State} (keep : Nat → Bool) (aon : Bool) (h : s.memWf = true) :
    (s.coldClear keep aon).memWf = true :=
  Store.wf_filter _ _ _ h

/-- The warm values keep the form. -/
theorem State.memWf_warmClear {s : State} (h : s.memWf = true) : s.warmClear.memWf = true :=
  State.memWf_wipe _ _ (State.memWf_wipe _ _ (State.memWf_wipe _ _ h))

end Sys2Proof.Machine
end

