-- ==== Sys2Proof/Rom.lean ====
section
/-!
DEFINITION. What the spec says of the filter tables in the ROMs, of which it prints no tap (R130, log 24): the responses of the preset
filters and of the first decimator, as a condition on the constants of Config.
-/
namespace Sys2Proof.Rom

/-- The response of a filter at x cycles per sample, relative to its response at 0 (R131: gain 1 at the slice frequency). -/
noncomputable def response (taps : List Int) (x : ℝ) : ℂ :=
  ((taps.zip (List.range taps.length)).map fun t => (t.1 : ℂ) * Complex.exp (-2 * Real.pi * x * t.2 * Complex.I)).sum /
    ((taps.sum : Int) : ℂ)

/-- A ratio of amplitudes of so many decibels. -/
noncomputable def dB (v : ℝ) : ℝ := (10 : ℝ) ^ (v / 20)

/-- The row of R130 for a preset code: half the usable band and the stopband edge as parts of the rate, ripple and attenuation in dB. -/
noncomputable def presetRow : Nat → ℝ × ℝ × ℝ × ℝ
  | 0 => (0.41, 0.590, 0.01, 100)
  | 1 => (0.40, 0.600, 0.02, 85)
  | _ => (0.375, 0.625, 0.05, 70)

/-- A preset filter at 64 / 2^n samples per output meets its row: the ripple in the usable band, the attenuation from the edge of the
stopband up to half the sampling rate. -/
def PresetOk (taps : List Int) (preset n : Nat) : Prop :=
  let row := presetRow preset
  let rate : ℝ := (2 : ℝ) ^ n / 64
  ∀ x : ℝ, |x| ≤ 1 / 2 →
    (|x| ≤ row.1 * rate → ‖response taps x‖ ≤ dB row.2.2.1 ∧ dB (-row.2.2.1) ≤ ‖response taps x‖) ∧
    (row.2.1 * rate ≤ |x| → ‖response taps x‖ ≤ dB (-row.2.2.2))

/-- The first decimator rejects by 100 dB what would alias into its window of ±200 MHz: divisor 4 from 7.86432 GSa/s, or 2 from
3.93216 GSa/s (R91, R130). -/
def DecimatorOk (taps : List Int) (half : Bool) : Prop :=
  let out : ℝ := if half then 1 / 2 else 1 / 4
  let window : ℝ := 200 / 1966.08 * out
  ∀ x : ℝ, |x| ≤ 1 / 2 → ∀ k : ℤ, k ≠ 0 → |x - k * out| ≤ window → ‖response taps x‖ ≤ dB (-100) * ‖response taps (x - k * out)‖

/-- The ROMs of the part are those that R130 describes. -/
def RomOk : Prop :=
  (∀ preset n : Nat, ∀ tx : Bool, preset < 3 → n < 5 → PresetOk (Config.presetFilter preset n tx) preset n) ∧
    ∀ half : Bool, DecimatorOk (Config.firstDecimator half) half

end Sys2Proof.Rom
end

