-- ==== Sys2Proof/Tests/Slice0.lean ====
section
/-!
SUPPORT. Tests of the model: operands that are no command of the spec, single commands whose results the manual states, and for every
statement of Certificates/Slice0 with hypotheses a state and operands that meet them, clause by clause.
-/
namespace Sys2Proof.Tests
open Sys2Proof Sys2Proof.Machine

set_option synthInstance.maxSize 2000
set_option synthInstance.maxHeartbeats 400000
set_option linter.unusedVariables false
set_option Elab.async false

/-- The state as changed by a function. -/
abbrev given (s : State) (f : State → State) : State := f s

/-- The outcome is a next state. -/
def goesOn (o : Host.Outcome State Fault Refusal) : Bool := match o with | .next _ => true | _ => false

/-- Every command of a list answers a next state after reset. -/
def goOn (l : List Instr) : Bool := l.all fun c => goesOn (exec c State.reset)

/-- What a test reads of the state after a command. -/
def after {α : Type} (s : State) (c : Instr) (f : State → α) : Option α := match exec c s with | .next t => some (f t) | _ => none

/-- A schedule list of two entries. -/
def l0 : SchedList := ⟨0, 2, 20000⟩

/-- An entry of that list. -/
def ent (pos st : Nat) (dir : Nat) : Entry := ⟨l0, pos, 0, 100, st, dir, false, [0,1,2,3], 0, 0xF, 0, [], false, false⟩

/-- A list with one element changed. -/
def upd {α} (l : List α) (i : Nat) (f : α → α) : List α := (List.range l.length).zip l |>.map fun p => if p.1 = i then f p.2 else p.2

/-- A list with every element changed by its place. -/
def upds {α} (l : List α) (f : Nat → α → α) : List α := (List.range l.length).zip l |>.map fun p => f p.1 p.2

/-- A device at work: the timer runs, slices, a core, a port, a channel and a pair are active. -/
def busy (s0 : State) : State :=
  let s : State := { s0 with
    pending := [.entryStart, .auxTickSlew], now := 1000000, dev := 6400000#64,
    timer := { s0.timer with running := some l0, cur := some (ent 0 99000 3), fetched := some (ent 1 101000 1), pending := some ⟨8, 1, 5000⟩, edges := [⟨3, 100500, true⟩, ⟨3, 100600, false⟩], fesQueue := [⟨0, 5, 100400, 0, 0, 0, false, 99000⟩], fesBusy := [⟨1, 2, 100300, 12, 7, 160, false, 99000⟩] },
    cores := upd s0.cores 0 fun c => { c with mode := .running, pc := 5, ist := 1, latched := 3 },
    rxSlices := upds s0.rxSlices fun i c => if i < 2 then { c with phase := .started 6000000 } else c,
    txSlices := upds s0.txSlices fun i c => if i < 2 then { c with phase := .started 6000000 } else c,
    tx := { s0.tx with muted := 0xF0, paths := upds s0.tx.paths fun i p => if i < 8 then { p with active := true, runCt := 6390000, inN := 2000, outN := 1900 } else p },
    pair := { s0.pair with dirty := [(3, 10), (7, 20)], unacked := [(1, 5)], hbTx := 100000, hbWin := 90000, hbRx := some 95000 },
    chans := upd s0.chans 4 fun c => { c with desc := some ⟨0x10000100, 0x10000200, 64, 0, 0, 0, 0, 0, false, false, false, false⟩ } }
  let s := (s.set CLK.PLL_CTRL_en 1).set CLK.PLL_STAT_locked 1
  let s := (s.set (HDR.BLK_CTRL_enable FTM.base) 1).set FTM.CTRL_run 1
  let s := (List.range 8).foldl (fun s k => (s.set (STD.CNV_CTRL_adc k) 0xFF).set (STD.CNV_CTRL_dac k) 0xFF) s
  let s := (s.set (HDR.BLK_CTRL_enable BF.base) 1)
  let s := ((s.set (BFG.PORTS_rx 0) 8).set (BFG.PORTS_tx 0) 8).set (BFG.PORTS_rx 1) 4
  let s := (s.set (HDR.BLK_CTRL_enable (PORT.base 0)) 1).set (PORT.STAT_state 0) 2
  let s := (s.set (YCH.CTRL_en 4) 1)
  let s := ((s.set PAR.CFG_en 1).set PAR.STAT_role 2).set PAR.CFG_miss 3
  s
@[noinline] def basesN : Bool := true

/-- The configuration words of a flow entry. -/
def flowW (i : Nat) (w0 w1 w2 w3 : Nat) (s : State) : State :=
  ((((s.setWord (0x38000000 + 32*i) (BitVec.ofNat 32 w0)).setWord (0x38000004 + 32*i) (BitVec.ofNat 32 w1)).setWord (0x38000008 + 32*i) (BitVec.ofNat 32 w2)).setWord (0x3800000C + 32*i) (BitVec.ofNat 32 w3))

/-- The flow entries that are allocated. -/
def alloc (l : List Nat) (s : State) : State := { s with link := { s.link with alloc := l } }

/-- A change of the timer. -/
def tmr (f : Timer → Timer) (s : State) : State := { s with timer := f s.timer }

/-- Word 0 of a flow entry. -/
def w0f (fid ty port : Nat) (eg : Bool) (fmt : Nat) (en : Bool) : Nat := fid + ty * 4096 + port * 65536 + (if eg then 2^18 else 0) + fmt * 2^20 + (if en then 2^31 else 0)

/-- Word 1 of a flow entry. -/
def w1f (v0 np g blocks : Nat) (used : Bool) : Nat := v0 + np * 256 + g * 2^16 + (blocks - 1) * 2^20 + (if used then 2^27 else 0)


/-! States built for one statement: the letters follow the field that each changes. -/

def put (s : State) : State := (((s.setWord (schedAddr 1 0) 0x03000800).setWord (schedAddr 1 1) 0x04030201).setWord (schedAddr 1 2) 0x800F0009).setWord (schedAddr 1 3) 0x00008185
def tm (f : Timer → Timer) (s : State) : State := { s with timer := f s.timer }
def en (s : State) : State := ((s.set (FTM.FES_CFG_en 0) 1).set (FTM.FES_CFG_en 1) 1).set (FTM.FES_CFG_en 2) 1
def st (s : State) : State := tm (fun t => { t with running := none, accepted := none, pending := none }) s
def en2 (s : State) : State := (s.set (HDR.BLK_CTRL_enable FTM.base) 1)
def lk (s : State) : State := ((s.set CLK.PLL_CTRL_en 1).set CLK.PLL_STAT_locked 1)
def off (s : State) : State := (List.range 8).foldl (fun s k => (s.wr (STD.CNV_CTRL k) 0)) (s.set TXC.CAL_CTRL_en 0)
def sl (ph : SlicePhase) (s : State) : State := { s with rxSlices := s.rxSlices.map fun c => { c with phase := ph }, txSlices := s.txSlices.map fun c => { c with phase := ph } }
def cl (s : State) : State := s.set ⟨SYS.CLAIM 43, 0, 8⟩ 1
def fw : Nat := 3500000000 * 2^48 / 7864320000
def ok3 (s : State) : State := (List.range 8).foldl (fun s st => (s.wr64 (sliceWordAddr false st 3) fw).wr64 (centreAddr false st) fw) s
def sl2 (ph : SlicePhase) (s : State) : State := { s with rxSlices := s.rxSlices.map fun c => { c with phase := ph } }
def wbs (b : Nat) (s : State) : State := { s with rx := { s.rx with lvlWait := [b], paths := upds s.rx.paths fun i p => { p with wb := [(b, ⟨i * 1000000, 10 + i, i * 997⟩)] } } }
def op (x : Nat) (s : State) : State := { s with bf := { s.bf with ctxs := upd s.bf.ctxs x fun _ => ⟨true, 3⟩ } }
def pa (f : TxPath → TxPath) (s : State) : State := { s with tx := { s.tx with paths := s.tx.paths.map f } }
def tmd (s : State) : State := tmr (fun t => { t with running := some l0, cur := some { ent 1 99000 1 with frameBt := 98000 }, fetched := some (ent 1 101000 1) }) s
def dp (f : DpdPath → DpdPath) (s : State) : State := { s with dpd := s.dpd.map f }
def on (s : State) : State := (List.range 8).foldl (fun s k => s.set (DPD.CTRL_en k) 1) s
def off2 (s : State) : State := (List.range 8).foldl (fun s k => s.set (DPD.CTRL_en k) 0) s
def onn (v : Nat) (s : State) : State := sl .stopped ((List.range 8).foldl (fun s k => s.set (DPD.CTRL_en k) v) s)
def cl2 (s : State) : State := s.set ⟨SYS.CLAIM 42, 0, 8⟩ 1
def z (f : SclCh → SclCh) (s : State) : State := { ((s.set (SCL.SEQ_CFG_run 0) 1).set (SCL.SEQ_CFG_run 1) 1) with scl := s.scl.map f }
def ln (s : State) : State := (s.set (SCL.SEQ_CFG_len 0) 3).set (SCL.SEQ_CFG_len 1) 1
def req : SclReq := ⟨3, 4000, 12, 1, 4, 77⟩
def z2 (f : SclCh → SclCh) (s : State) : State := { s with scl := s.scl.map f }
def cl3 (s : State) : State := (s.set ⟨SYS.CLAIM 40, 0, 8⟩ 1).set ⟨SYS.CLAIM 41, 0, 8⟩ 1
def tp (v : Nat) (s : State) : State := (List.range 40).foldl (fun s u => s.set (THM.TEMP_rep u) v) s
def cf (w r : Nat) (al au : Nat) (s : State) : State := (List.range 4).foldl (fun s q => ((((s.set (PORT.CFG_width q) w).set (PORT.CFG_rate q) r).set (PORT.CFG_allow_rev q) al).set (PORT.CFG_auto_retrain q) au)) s
def st2 (v : Nat) (s : State) : State := (List.range 4).foldl (fun s q => ((s.set (PORT.PRBS_CTRL_en q) 0).set (PORT.STAT_state q) v).set (HDR.BLK_CTRL_enable (PORT.base q)) (if v = 0 then 0 else 1)) s
def tma (v : Nat) (s : State) : State := (List.range 4).foldl (fun s q => (s.set (PORT.STAT_timed_armed q) v)) s
def li (v : Nat) (s : State) : State := (List.range 16).foldl (fun s q => (s.set (LANE.VIOL_LIM_lim q) v)) s
def st3 (v : Nat) (s : State) : State := (List.range 4).foldl (fun s q => (s.set (PORT.STAT_state q) v).set (HDR.BLK_CTRL_enable (PORT.base q)) (if v = 0 then 0 else 1)) s
def cl4 (s : State) : State := (List.range 4).foldl (fun s q => s.set ⟨SYS.CLAIM (44 + q), 0, 8⟩ 1) s
def pr (v : Nat) (m : Nat) (s : State) : State := (List.range 4).foldl (fun s q => (s.wr (PORT.PRBS_CTRL q) (BitVec.ofNat 32 v)).set (PORT.PRBS_LANES_mask q) m) s
def sy (v : Nat) (s : State) : State := (List.range 4).foldl (fun s q => (s.set (PORT.PRBS_STAT_sync q) v)) s
def fl (en : Bool) (s : State) : State := flowW 3 (w0f 7 2 0 false 0 en) 5 0 0 (flowW 5 (w0f 8 2 0 false 0 en) 6 0 0 (flowW 0 (w0f 9 4 1 true 0 en) 0 0 0 (flowW 639 (w0f 8 5 2 true 0 en) 0 0 0 (((s.wr PNL.FLOW_CMD 0))))))
def up (s0 : State) : State := let s : State := (List.range 4).foldl (fun (s : State) q => s.set (PORT.PRBS_CTRL_en q) 0) s0; { (s.set (PORT.STAT_state 0) 2).wr CAS.CFG 0 with link := { s.link with alloc := [3] } }
def f (ty : Nat) (w4 : Nat) (s : State) : State := (flowW 3 (w0f 7 ty 0 false 1 true) (w1f 0 1 0 1 true) 100000 4 s).setWord (flowAddr 3 4) (BitVec.ofNat 32 w4)
def f2 (ty : Nat) (w4 : Nat) (s : State) : State := (flowW 3 (w0f 7 ty 0 true 1 true) (w1f 0 1 0 1 true) 100000 4 s).setWord (flowAddr 3 4) (BitVec.ofNat 32 w4)
def op2 (ty : Nat) (s : State) : State := { s with link := { s.link with out := [[⟨3, 7, ty, none, none, 0, 0, 0, [1,2,3], 6400010, none⟩, ⟨3, 7, ty, some 9, some 8, 1, 0, 0, [1,2,3,4], 6400010, none⟩],[⟨3, 7, ty, some 9, some 8, 1, 0, 0, [1,2,3,4], 6400010, none⟩],[],[⟨5, 7, ty, some 9, some 8, 1, 0, 0, [1,2,3,4], 6400010, none⟩]] } }
def stg (s : State) : State := { s with staged := (List.range 4).map fun k => ⟨3, 0, 1, 0, true, 100000 + k, [[]], 0, false, 5, false⟩ }
def pr2 (s : State) : State := { s.wr CAS.CFG 0x1 with link := { s.link with prog := [⟨3, (s.flow 3), 99000, 3, 0, 0, none, 0⟩] } }
def a (s : State) : State := (s.wr PAR.CFG 0x0301).set PAR.STAT_role 2
def pp (f : Pair → Pair) (s : State) : State := { s with pair := f s.pair }
def a2 (r : Nat) (s : State) : State := (s.wr PAR.CFG 0x0301).set PAR.STAT_role r
def bw (m0 m1 l s_ : Nat) (x : Nat := 0) : Nat := m0 * 2^124 + m1 * 2^94 + l * 2^64 + s_ * 2^34 + x
def co (f : Core → Core) (s : State) : State := { s with cores := s.cores.map f, upsets := [], poison := [] }
def put2 (w : Nat) (s : State) : State := [0,1,4,7].foldl (fun s c => s.store (bundleAddr c 5) w 16) s
def run (w : Nat) (f : Core → Core) (s : State) : State := put2 w (co (fun c => f { c with mode := .running, pc := 5 }) s)
def dm (s : State) : State := { s with cores := upds s.cores fun i c => { c with ap := [(0, BitVec.ofNat 32 (0x08080010 + i * 0x100000))], g := [(2, 0x55), (3, 0x66)] } }
def mo : MemOp := ⟨0, .indirect, 4, false⟩
def rem (a : Nat) (f : Core → Core) (s : State) : State := let s := { s with cores := s.cores.map fun c => f { c with mode := .remote, pc := 5, remote := some ⟨.nop, .nop, .load mo 7, .nop, none, none⟩, ap := [(0, BitVec.ofNat 32 a)] } }
  [0,1,4,7].foldl (fun s c => s.store (bundleAddr c 5) (bw 0 0 1 0) 16) s
def ae (s : State) : State := (List.range 8).foldl (fun s c => s.set (CORE.CTRL_aerr_exc c) 1) s
def en3 (s : State) : State := (List.range 8).foldl (fun s c => (s.wr (CORE.INT_EN_LO c) 0xFFFFFFFF)) s
def md (m : Mode) (f : Core → Core) (s : State) : State := { s with cores := s.cores.map fun c => f { c with mode := m } }
def d0 : Desc := ⟨0x10000100, 0x10000200, 64, 0, 0, 0, 0, 0, false, false, false, false⟩
def ch (f : Chan → Chan) (s : State) : State := { s with chans := s.chans.map f }
def r1 (k : Nat) (s : State) : State := (((s.wr (YCH.RING_BASE k) 0x10000000).wr (YCH.RING_SIZE k) 3).wr (YCH.CTRL k) 1).wr (YCH.PROD k) 1
def ch2 (f : Chan → Chan) (s : State) : State := { s with chans := s.chans.map f, poison := [], upsets := [] }
def dsc (w : List Nat) (s : State) : State := ((List.range w.length).zip w).foldl (fun s p => s.setWord (0x10000000 + 4 * p.1) (BitVec.ofNat 32 p.2)) s
def d02 : Desc := ⟨0x10000100, 0x10000200, 64, 0, 0, 0, 0, 4, false, false, false, false⟩
def ring (l : Nat) (s : State) : State := (List.range 32).foldl (fun s k => (((s.wr (YCH.RING_BASE k) 0x10000000).wr (YCH.RING_SIZE k) (BitVec.ofNat 32 l)).wr (YCH.CTRL k) 1).wr (YCH.PROD k) 1 |>.wr (YCH.CONS k) 0) s
def only (k : Nat) (f : Chan → Chan) (s : State) : State := let s := ch2 (fun _ => Chan.reset) s; { (List.range 32).foldl (fun s j => if j = k then s else s.wr (YCH.CTRL j) 0) s with chans := upd s.chans k f }
def cr (w : Option (Word × Nat × Nat)) (s : State) : State := { s.set MEM.CRU_CTRL_en 1 with cru := ⟨5, w⟩, upsets := [], poison := [] }
def pw (f : Pwr → Pwr) (s : State) : State := { s with pwr := f s.pwr }
def vd (v : Nat) (s : State) : State := s.set PWR.PL_STAT_vid v
def hs : Handshake := ⟨1, false, [.port], 0, []⟩
def hs2 (t : Nat) (l : List Part) : Handshake := ⟨t, false, l, 0, []⟩
def we (v : Nat) (s : State) : State := s.set PWR.WAKE_EN_src v
def ac (a : Word) : Access := ⟨1, true, a, 4, 0x55, false⟩
def rs (f : Rst → Rst) (s : State) : State := { s with rst := f s.rst }
def s0 (f : Sec → Sec) (s : State) : State := { (s.wr SEC.CTRL 0).wr SEC.LOCKS 0 with sec := f s.sec }
def ad (s : State) : State := s.set SEC.CMD_ADDR_addr 0x04000040
def cmd (l : List Nat) (s : State) : State := ((List.range l.length).zip l).foldl (fun s p => s.setByte (0x10000100 + p.1) (BitVec.ofNat 8 p.2)) (ad s)

/-! ## Commands that the spec does not describe -/

/-- An access to a register of the SYS page. -/
def acc (size : Nat) (data : Wide) : Access := ⟨1, true, 0x40000008, size, data, false⟩

/-- A bundle that loads with a memory operand. -/
def loads (m : MemOp) : BundleOps := ⟨.nop, .nop, .load m 1, .nop, none, none⟩

theorem test_ill_formed_accesses : ([.registerWrite (acc 3 0), .registerWrite (acc 2 0x10000), .domainWakeOnAccess (acc 5 0),
    .memoryAccess (acc 0 0) none, .memoryAccess (acc 4 0) (some (.flip 72)), .memoryAccess (acc 4 0) (some (.stuck 72)),
    .cruiserStep (some (.flip 72)), .cruiserStep (some (.stuck 99)), .cruiserStep (some (.stuckMore 72))] : List Instr).all (fun c => !c.wf) = true := by decide +kernel

theorem test_ill_formed_addresses : ([.countClear 1 0x3FFFFFFC 0, .wideReadLo 1 0x40000042, .wideReadHi 1 0x41000000,
    .wideWriteHi 1 0x40000001 0, .wideWriteLo 1 0 0, .sliceWordWrite 1 0x4001000A 0, .dpdTermsWrite 1 0x40048103 0] :
    List Instr).all (fun c => !c.wf) = true := by decide +kernel

theorem test_ill_formed_lengths : ([.mgtWriteBurst 0 0 [], .mgtWriteBurst 0 0 (List.replicate 257 0), .mgtFrameCut [],
    .txReleaseStart 0 (some (0, 8)), .thermalReadingUpdate (List.replicate 39 0), .laneFault 0 0, .laneFault 15 7, .trainingComplete 0 (List.replicate 15 0) 0,
    .packetReceived 0 [1, 2] [2]] : List Instr).all (fun c => !c.wf) = true := by decide +kernel

theorem test_ill_formed_bundles : ([.bundleIssue 0 (loads ⟨0, .indirect, 3, false⟩), .bundleIssue 0 (loads ⟨0, .indirect, 4, true⟩),
    .bundleIssue 0 { loads ⟨0, .indirect, 4, false⟩ with fetchUpset := some (.flip 72) },
    .bundleIssue 0 { loads ⟨0, .indirect, 4, false⟩ with loadUpset := some (.stuck 72) }] : List Instr).all (fun c => !c.wf) = true := by
  decide

theorem test_well_formed : ([.registerWrite (acc 4 0xFFFFFFFF), .memoryAccess (acc 8 0) (some (.flip 71)), .countClear 1 0x40FFFFFC 0,
    .mgtWriteBurst 0 0 (List.replicate 256 0), .laneFault 15 6, .thermalReadingUpdate (List.replicate 40 0),
    .bundleIssue 7 (loads ⟨0, .indirect, 2, true⟩)] : List Instr).all Instr.wf = true := by decide +kernel

/-- No row of the table has bits. -/
theorem test_no_word_spells_a_command : decodeTableWord 32 0x40000000 = none := rfl

/-! ## Results that the manual works out -/

/-- 02_register_pages.md: DPD 5 lies at 0x4004_D000 and reads BLK_ID = 0x0048_0501 and BLK_VER = 1. -/
theorem test_block_id : DPD.base 5 = 0x4004D000 ∧ State.reset.view 0x4004D000 = 0x00480501#32 ∧ State.reset.view 0x4004D004 = 1#32 := by
  decide +kernel

/-- 02_register_pages.md: a device of grade AX reads SYS.ID = 0x1640_0000. -/
theorem test_device_id : State.reset.view SYS.ID = 0x16400000#32 := by decide +kernel

/-- 02_register_pages.md: core 3 takes resource 5 by writing 0x13 to 0x4000_0114. -/
theorem test_claim_taken : after State.reset (.claimWrite 0x13 5 0x13) (fun t => (SYS.CLAIM 5, t.owner 5)) = some (0x40000114, 0x13) := by
  decide +kernel

/-- 02_register_pages.md: the host's write has then no effect, and ERR_CODE reads 0x0000_0102 with ERR_ADDR 0x4000_0114. -/
theorem test_claim_held : after (State.reset.set ⟨SYS.CLAIM 5, 0, 8⟩ 0x13) (.claimWrite 1 5 1)
    (fun t => (t.owner 5, t.view (HDR.ERR_CODE SYS.base), t.view (HDR.ERR_ADDR SYS.base))) = some (0x13, 0x102#32, 0x40000114#32) := by
  decide +kernel

/-- 02_register_pages.md: in Dormant the command byte 0x31 of the device at MADR 3 wakes it, and the frame is kept. -/
theorem test_frame_wakes : after (given State.reset fun s => { s with rst := { s.rst with madr := 3 }, pwr := { s.pwr with sleep := .dormant } })
    (.mgtRead 3 0x4000B040) (fun t => (t.mgt.held, t.get ⟨PWR.WAKE_CAUSE, 0, 1⟩)) =
    some ([[0x31#8, 0x40#8, 0x00#8, 0xB0#8, 0x40#8]], 1) := by decide +kernel

/-- 06_beamformer.md: the sum 429,391,872 gives 13,104 at shift 0, and at shift 5 the tie 409.5 goes to 410. -/
theorem test_beam_rounding : rhe 429391872 (2 ^ 15) = 13104 ∧ rhe 429391872 (2 ^ 20) = 410 := by decide +kernel

/-- 12_punor_link.md: the BFP9 block with the sample (6,700, -5,000) and a part of 48 starts 0x56, 0x8D. -/
theorem test_bfp9_encodes : (encBlock 4 ([6700, -5000, 48] ++ List.replicate 21 0)).take 2 = [0x56#8, 0x8D#8] := by decide +kernel

/-- 12_punor_link.md: and decodes to 6,688, -4,992 and 64. -/
theorem test_bfp9_decodes : (decBlock 4 (encBlock 4 ([6700, -5000, 48] ++ List.replicate 21 0))).1.take 3 = [6688, -4992, 64] := by
  decide +kernel

/-- 14_renelo_cores.md: from 0x0808_1FF8 a step of 16 in a buffer of 2^12 bytes leads to 0x0808_1008. -/
theorem test_circular_buffer : postMod 0x08081FF8 16 12 = 0x08081008 := by decide +kernel

/-- 14_renelo_cores.md: a maximum search over 5, 9, 9 and 3 ends with 9 · 2^15, index 1, count 4. -/
theorem test_maximum_search : [5, 9, 9, 3].foldl (fun st (v : Int) => searchStep true st (v * 2 ^ 15)) (0, 0, 0) = (9 * 2 ^ 15, 1, 4) := by
  decide +kernel

/-- Channel 4 with a ring of 16, CONS at index 1, PROD at index 0 with wrap 1 (15_yarder.md). -/
def ring16 : State := ((State.reset.wr (YCH.RING_SIZE 4) 0xF).wr (YCH.CONS 4) 1).wr (YCH.PROD 4) 0x10000

/-- 15_yarder.md: PROD = 0x0001_0001 is then accepted, since 16 descriptors are outstanding. -/
theorem test_ring_full : after ring16 (.yarderProdWrite 0x13 4 0x10001) (fun t => t.rd (YCH.PROD 4)) = some 0x10001#32 := by decide +kernel

/-- 15_yarder.md: 0x0001_0002 would pass the ring: no effect, code 0x41. -/
theorem test_ring_passed : after ring16 (.yarderProdWrite 0x13 4 0x10002)
    (fun t => (t.rd (YCH.PROD 4), t.get (HDR.ERR_CODE_code (YCH.base 4)))) = some (0x10000#32, 0x41) := by decide +kernel

/-- 10_thermal.md: the third deviant reading of site 10 (93.50 °C beside 84.25 and 84.75) marks it: TEMP_10 reads 0x05D8_0548, bit 10
of SUSPECT_LO is 1 and event bit 2 is raised. -/
theorem test_suspect_site : after (given State.reset fun s => { s with thm := { s.thm with cnt := s.thm.cnt.set 10 2 } })
    (.thermalReadingUpdate (((List.replicate 40 34120).set 9 34116 |>.set 10 34264).set 11 34124))
    (fun t => (t.view (THM.TEMP 10), (t.rd THM.SUSPECT_LO).getLsbD 10, (t.rd (HDR.IRQ_RAW THM.base)).getLsbD 2)) =
    some (0x05D80548#32, true, true) := by decide +kernel

/-- RFC 3720, named by R302: the CRC-32C of 32 zero bytes. -/
theorem test_crc32c : crc32c (List.replicate 32 0) = 0x8A9136AA#32 := by decide +kernel

/-- FIPS 180-4, named by R472: the digest of the three bytes abc (log 27). -/
theorem test_sha256 : beBytes 32 0xba7816bf8f01cfea414140de5dae2223b00361a396177a9cb410ff61f20015ad =
    ((List.range 32).map fun i => BitVec.ofNat 8 ((sha256 [0x61, 0x62, 0x63]).toNat / 256 ^ i)) := by decide +kernel

/-! ## Hypotheses of the statements are met -/

theorem test_hypotheses_StepRunsFront :
    let s : State := given State.reset fun s => { s with pending := [.entryStart] };
      (match s.pending with | _ :: _ => true | _ => false) = true := by
  decide +kernel

theorem test_hypotheses_IdleStepTicks :
    let s : State := given State.reset fun s => { s with pending := [] }; s.pending = [] := by
  decide +kernel

theorem test_hypotheses_QueueFirstInFirstOut :
    let s : State := { State.reset with pending := [.entryStart, .fenceComplete 7] }; s.queueWf = true ∧ goesOn (step s) = true := by
  decide +kernel

theorem test_hypotheses_AccessesMeetDomains_AccessPerformed :
    let s : State := State.reset;
      let a : Access := { id := 0x01#8, write := true, addr := 0x40000040#32, size := 4, data := 0x0000000123456789#64, poison := false };
      (match domOf a.addr.toNat with | some _ => decide (sizeOk a.addr.toNat a.size a.write = true ∧ s.ready a.addr.toNat = true) | _ => false) = true := by
  decide +kernel

theorem test_hypotheses_AccessesMeetDomains_AccessToDomainOff :
    (let s : State := given State.reset fun s => ({ s with pwr := { s.pwr with domOn := 1 } } : State).set (HDR.BLK_CTRL_wake_ok LND.base) 0;
      let a : Access := { id := 0x01#8, write := true, addr := 0x40000040#32, size := 4, data := 0x0000000123456789#64, poison := false };
      (match domOf a.addr.toNat with | some d => decide (sizeOk a.addr.toNat a.size a.write = true ∧ s.rst.optFault = false ∧ s.timedOut = none ∧ s.pwr.sleep = .run ∧ s.on d = false ∧ d < 27 ∧ s.wakeOk a.addr.toNat d) | _ => false) = true) ∧
    (let s : State := given State.reset fun s => ({ s with pwr := { s.pwr with domOn := 1 } } : State).set (HDR.BLK_CTRL_wake_ok LND.base) 0;
      let a : Access := { id := 0x01#8, write := false, addr := 0x20000000#32, size := 4, data := 0x0000000123456789#64, poison := false };
      (match domOf a.addr.toNat with | some d => decide (sizeOk a.addr.toNat a.size a.write = true ∧ s.rst.optFault = false ∧ s.timedOut = none ∧ s.pwr.sleep = .run ∧ s.on d = false ∧ d < 27 ∧ (¬(s.wakeOk a.addr.toNat d))) | _ => false) = true) := by
  decide +kernel

theorem test_hypotheses_RegisterWrites_PlainRegisterWrite :
    let s : State := State.reset;
      let a : Access := { id := 0x01#8, write := true, addr := 0x40006040#32, size := 4, data := 0x0000000123456789#64, poison := false };
      (match pageAt a.addr.toNat with | some (k, _) => decide (memAt a.addr.toNat = none ∧ (k = .opt ∨ k = .mem ∨ k = .mgt ∨ (k = .pnl ∧ a.addr.toNat ≠ PNL.FLOW_CMD)) ∧ 0x40 ≤ a.addr.toNat % 0x1000 ∧ (rowAt k (a.addr.toNat % 0x1000)).isSome = true ∧ countAt k (a.addr.toNat % 0x1000) = none ∧ s.flag (HDR.LOCK_locked (pageBase a.addr.toNat)) = false ∧ a.write = true ∧ sizeOk a.addr.toNat a.size true = true ∧ s.ready a.addr.toNat = true ∧ (let b : Nat := 0; b ≠ a.addr.toNat)) | _ => false) = true := by
  decide +kernel

theorem test_hypotheses_RegisterWrites_WideValues :
    (let s : State := State.reset; let a : Word := 0x40009060#32;
      (match pageAt a.toNat with | some (k, _) => decide (memAt a.toNat = none ∧ a.toNat % 4 = 0 ∧ 0x40 ≤ a.toNat % 0x1000 ∧ s.ready a.toNat = true ∧ wideLo k (a.toNat % 0x1000) = true ∧ wideHi k (a.toNat % 0x1000) = false ∧ k ≠ .port) | _ => false) = true ∧
      (match pageAt a.toNat with | some (_, _) => decide (memAt a.toNat = none ∧ a.toNat % 4 = 0 ∧ 0x40 ≤ a.toNat % 0x1000 ∧ s.ready a.toNat = true ∧ a.toNat = FTM.START_LO) | _ => false) = true) ∧
    (let s : State := State.reset; let id : ReqId := 0x01#8; let a : Word := 0x40003064#32;
      (match pageAt a.toNat with | some (k, n) => decide (memAt a.toNat = none ∧ a.toNat % 4 = 0 ∧ 0x40 ≤ a.toNat % 0x1000 ∧ s.ready a.toNat = true ∧ wideHi k (a.toNat % 0x1000) = true ∧ writable a.toNat = true ∧ s.hiRefused id k n a.toNat = none ∧ (rowAt k (a.toNat % 0x1000)).isSome = true) | _ => false) = true) := by
  decide +kernel

theorem test_hypotheses_PageHeaders_HeaderWrites :
    (let s : State := State.reset; let n : BitVec 8 := 0x00#8; let v : Word := 0x00000001#32; pageDecoded n.toNat = true ∧
      s.ready (pageReg n 0x24) = true ∧ bits v 0 16 ≠ 0 ∧
      (let b : Nat := 0; b ≠ HDR.ERR_CODE (pageReg n 0) ∧ b ≠ HDR.ERR_ADDR (pageReg n 0)) ∧ s.ready (pageReg n 0x2C) = true ∧
      v ≠ 0x4C4B0001#32 ∧ (let b : Nat := 0; b ≠ HDR.LOCK (pageReg n 0)) ∧ s.ready (pageReg n 0x1C) = true ∧
      (match pageOfNumber n.toNat with | some (_, _) => true | _ => false) = true) ∧
    (let s : State := State.reset; let n : BitVec 8 := 0x00#8; let v : Word := 0x4c4b0001#32; pageDecoded n.toNat = true ∧
      s.ready (pageReg n 0x2C) = true ∧ v = 0x4C4B0001#32) := by
  decide +kernel

theorem test_hypotheses_PageHeaders_CountsClear :
    let s : State := State.reset; let a : Word := 0x4000604c#32; let v : Word := 0xffffffff#32; pageAt a.toNat = some (.mem, 0) ∧
      a.toNat % 4 = 0 ∧
      (match countAt .mem (a.toNat % 0x1000) with | some r => decide (bit v r.clear = true ∧ s.ready a.toNat = true) | _ => false) = true := by
  decide +kernel

theorem test_hypotheses_PageHeaders_SoftResetWarmValues :
    let s : State := busy State.reset; let n : BitVec 8 := 0x05#8; let v : Word := 0x00000002#32;
      (match pageOfNumber n.toNat with | some (k, _) => decide ((k = .clk ∨ k = .opt ∨ k = .mgt) ∧ bit v 1 = true ∧ s.ready (pageReg n 0x08) = true ∧ (let off : Nat := 64; 0x40 ≤ off ∧ off < 0x1000)) | _ => false) = true ∧
      (match pageOfNumber n.toNat with | some (k, _) => decide ((k = .clk ∨ k = .opt ∨ k = .mgt) ∧ bit v 1 = true ∧ s.ready (pageReg n 0x08) = true ∧ (let off : Nat := 0; off < 0x40 ∧ off ≠ 0x08)) | _ => false) = true := by
  decide +kernel

theorem test_hypotheses_ClaimsAndPins_ClaimWrites :
    (let s : State := State.reset; let id : ReqId := 0x00#8; let n : Fin 64 := 54; let v : Word := 0x00000001#32;
      s.ready (SYS.CLAIM n) = true ∧ n.val < 55 ∧ bits v 0 8 ≠ 0 ∧ (s.owner n ≠ 0 ∨ bits v 0 8 ≠ id.toNat)) ∧
    (let s : State := State.reset; let id : ReqId := 0x01#8; let n : Fin 64 := 54; let v : Word := 0x00000001#32;
      s.ready (SYS.CLAIM n) = true ∧ n.val < 55 ∧ s.owner n = 0 ∧ bits v 0 8 = id.toNat ∧ id.toNat ≠ 0 ∧
      (id.toNat < 0x40 ∨ 0x60 ≤ id.toNat)) ∧
    (let s : State := given State.reset fun s => { s with regs := (s.set ⟨SYS.CLAIM 1, 0, 8⟩ 1).regs }; let id : ReqId := 0x01#8;
      let n : Fin 64 := 1; let v : Word := 0x00000000#32; s.ready (SYS.CLAIM n) = true ∧ n.val < 55 ∧ s.owner n = id.toNat ∧ id.toNat ≠ 0 ∧
      bits v 0 8 = 0) := by
  decide +kernel

theorem test_hypotheses_ClaimsAndPins_GpioWrites :
    let s : State := State.reset; let id : ReqId := 0x01#8; let dir : Bool := false; let v : Word := 0x00000001#32;
      s.ready (if dir then SYS.GPIO_DIR else SYS.GPIO_OUT) = true ∧ (let n : Nat := 0; n < 16) ∧ (∃ n : Nat, n < 16 ∧
      s.holds id (16 + n) = false ∧ bit v n ≠ (s.get (if dir then SYS.GPIO_DIR_out else SYS.GPIO_OUT_lvl)).testBit n) := by
  decide +kernel

theorem test_hypotheses_ClaimsAndPins_GpioPinChanges :
    let s : State := State.reset.set SYS.GPIO_IRQ_en 0xFFFF;
      (match exec (.gpioInputChange 15 true) s with | .next t => decide ((s.gpioIn ^^^ t.gpioIn) &&& s.get SYS.GPIO_IRQ_en ≠ 0) | _ => false) = true := by
  decide +kernel

theorem test_hypotheses_ManagementPort_MgtFrames :
    (let s : State := State.reset; let tgt : BitVec 4 := 0x0#4; let a : Word := 0x10000100#32; let ws : List Word := [0x00000005#32];
      let c0 : Byte := 0x6b#8; let c1 : Byte := 0x6b#8; s.mgt.held = [] ∧ tgt.toNat = s.rst.madr.toNat ∧ s.pwr.sleep = .run ∧
      s.pwr.hand = none ∧ s.mgt.before = [] ∧ s.mgt.todo = [] ∧ 0x10000000 ≤ a.toNat ∧ a.toNat + 1024 ≤ 0x10400000 ∧ a.toNat % 4 = 0 ∧
      s.ready a.toNat = true ∧ s.get DBG.CMEM_FENCE_bank = 0 ∧ s.poison = [] ∧ s.upsets = [] ∧
      (let b : Nat := 0; (b < a.toNat ∨ a.toNat + 4 ≤ b)) ∧ 1 ≤ ws.length ∧ ws.length ≤ 256 ∧ (let i : Nat := 0; i < ws.length) ∧
      (let b : Nat := 0; (b < a.toNat ∨ a.toNat + 4 * ws.length ≤ b)) ∧ (¬(c0 = 0x6B#8 ∧ c1 = 0x94#8))) ∧
    (let s : State := given State.reset fun s => { s with mgt := { s.mgt with todo := [rdAcc mgtId 0x40000000] } };
      let tgt : BitVec 4 := 0x0#4; let ws : List Word := [0x00000005#32]; s.mgt.held = [] ∧ s.mgt.before ++ s.mgt.todo ≠ [] ∧
      tgt.toNat = s.rst.madr.toNat ∧ 1 ≤ ws.length ∧ ws.length ≤ 256 ∧ s.pwr.sleep = .run ∧ s.pwr.hand = none) ∧
    (let s : State := given State.reset fun s => { s with mgt := { s.mgt with todo := [rdAcc mgtId 0x40000000] } };
      let tgt : BitVec 4 := 0x3#4; tgt.toNat ≠ s.rst.madr.toNat ∧ tgt.toNat ≠ 15) ∧
    (let s : State := State.reset; let tgt : BitVec 4 := 0xf#4; let a : Word := 0x10000100#32; s.mgt.held = [] ∧ tgt.toNat = 15 ∧
      s.pwr.sleep = .run ∧ s.pwr.hand = none ∧ s.mgt.before = [] ∧ s.mgt.todo = [] ∧ 0x10000000 ≤ a.toNat ∧ a.toNat + 1024 ≤ 0x10400000 ∧
      a.toNat % 4 = 0 ∧ s.ready a.toNat = true ∧ s.get DBG.CMEM_FENCE_bank = 0 ∧ s.poison = [] ∧ s.upsets = [] ∧
      (let b : Nat := 0; (b < a.toNat ∨ a.toNat + 4 ≤ b))) := by
  decide +kernel

theorem test_hypotheses_ManagementPort_MgtResets :
    let s : State := State.reset; let tgt : BitVec 4 := 0x0#4; tgt.toNat = s.rst.madr.toNat ∧ s.pwr.sleep = .run ∧ s.rst.optFault = false ∧
      s.pwr.hand = none ∧ (¬(s.rst.warm = false ∧ s.rst.next = some 0)) := by
  decide +kernel

theorem test_hypotheses_ManagementPort_MgtReplies :
    (let s : State := given State.reset fun s => { s with mgt := { s.mgt with busy := true, reply := true, words := [5, 0x01020304], err := true } };
      s.mgt.busy = true ∧ s.mgt.before = [] ∧ s.mgt.todo = [] ∧ s.mgt.reply = true) ∧
    (let s : State := given State.reset fun s => { s with pwr := { s.pwr with sleep := .rest }, mgt := { s.mgt with held := [[0x02]] } };
      let cmd : Byte := 0x00#8; let rest : List Byte := []; cmd.toNat / 16 = s.rst.madr.toNat ∧ s.pwr.sleep = .rest ∧ s.pwr.hand = none ∧
      isReset (cmd :: rest) = false ∧ s.pwr.restExit = false) := by
  decide +kernel

theorem test_hypotheses_EntriesFetchedAndStarted_EntryFetched :
    (let s : State := given State.reset fun s => put ((tm (fun t => { t with running := none, accepted := some ⟨1, 2, 5000⟩ })) s);
      let u : Option (Fin 4) := none; (match s.nextFetch with | some (_, _, _, _, _) => decide (u = none) | _ => false) = true) ∧
    (let s : State := given State.reset fun s => put ((tm (fun t => { t with running := none, accepted := some ⟨1, 2, 5000⟩ })) s);
      let u : Option (Fin 4) := some 0; (match s.nextFetch with | some (_, _, _, _, _) => decide (u ≠ none) | _ => false) = true) := by
  decide +kernel

theorem test_hypotheses_EntriesFetchedAndStarted_EntryStarts :
    (let s : State := tm (fun t => { t with running := some l0, cur := some (ent 0 99000 3), fetched := some (ent 1 101000 1) }) State.reset;
      s.pair.hold = [] ∧ s.pair.recWant = none ∧ (match s.timer.fetched with | some _ => true | _ => false) = true) ∧
    (let s : State := tm (fun t => { t with running := some l0, cur := some (ent 1 99000 3), fetched := none, stopPending := true }) State.reset;
      s.pair.hold = [] ∧ s.pair.recWant = none ∧
      (match s.timer.cur with | some e => decide (s.timer.fetched = none ∧ s.timer.stopPending = true ∧ s.timer.stopFrame ≤ e.frame ∧ e.pos + 1 = e.list.count) | _ => false) = true) := by
  decide +kernel

theorem test_hypotheses_ListsAndScheduleTable_ListsCommit :
    (let s : State := tm (fun t => { t with checking := some ⟨0, 0, 5⟩ }) State.reset; let v : Word := 0x00000001#32;
      s.ready FTM.NEXT_CTRL = true ∧ bit v 0 = true ∧ (match s.timer.checking with | some _ => true | _ => false) = true ∧
      (match s.timer.checking with | some l => decide ((match s.listRefusal l with | some _ => true | _ => false) = true) | _ => false) = true) ∧
    (let s : State := State.reset; let v : Word := 0x00000001#32; s.ready FTM.NEXT_CTRL = true ∧ bit v 0 = true ∧ s.timer.checking = none) ∧
    (let s : State := given State.reset fun s => (tm (fun t => { t with checking := some ⟨4, 2, 312⟩ }) s).setWord (schedAddr 5 0) 32;
      (match s.timer.checking with | some l => decide (s.listRefusal l = none) | _ => false) = true) := by
  decide +kernel

theorem test_hypotheses_ListsAndScheduleTable_ScheduleTable :
    (let s : State := State.reset; let w : Fin 4096 := 4095; s.ready (0x39000000 + 4 * w.val) = true ∧
      (s.entryLive (w.val / 4) = false ∨ s.timer.badEntries.contains (w.val / 4) = true) ∧
      (let b : Nat := 956301312; (b < 0x39000000 + 4 * w.val ∨ 0x39000004 + 4 * w.val ≤ b)) ∧ s.parityBad (0x39000000 + 4 * w.val) = false) ∧
    (let s : State := tm (fun t => { t with pending := some ⟨1023, 1, 9⟩ }) State.reset; let w : Fin 4096 := 4095;
      s.ready (0x39000000 + 4 * w.val) = true ∧ s.entryLive (w.val / 4) = true ∧ s.timer.badEntries.contains (w.val / 4) = false) := by
  decide +kernel

theorem test_hypotheses_EventLinesAndMasters_EventLines :
    let s : State := tm (fun t => { t with edges := [⟨0, 5, true⟩, ⟨8, 9, true⟩, ⟨15, 4, false⟩, ⟨0, 9, false⟩], depth := [(15, 1)], fecHold := 7 }) State.reset;
      let v : Word := 0x00000004#32; let e : Fin 16 := 15; let rise : Bool := false;
      (match takeEdge e.val rise s.timer.edges with | some (_, _) => true | _ => false) = true ∧ s.ready FTM.CTRL = true ∧ bit v 2 = true := by
  decide +kernel

theorem test_hypotheses_EventLinesAndMasters_FesTransactionEnds :
    let s : State := tm (fun t => { t with fesBusy := [⟨0, 5, 100, 1, 0, 160, false, 99000⟩, ⟨1, 63, 7, 32, 1, 160, false, 99000⟩, ⟨2, 0, 7, 7, 1, 160, false, 99000⟩, ⟨0, 6, 100, 0, 0, 160, false, 99000⟩]}) State.reset;
      let n : Fin 3 := 2;
      (match takeFes n.val s.timer.fesBusy with | some (_, _) => decide ((let a : Nat := 0; a ≠ FTM.FES_RX n.val)) | _ => false) = true ∧
      (match takeFes n.val s.timer.fesBusy with | some (_, _) => decide (s.refclk = true) | _ => false) = true := by
  decide +kernel

theorem test_hypotheses_EventLinesAndMasters_StandsUngate :
    let s : State := tm (fun t => { t with running := some l0, cur := some { ent 0 99000 0 with gate := 0xFF }, fetched := some { ent 1 101000 3 with obs := true } }) State.reset;
      let st : Fin 8 := 7; let k : Fin 3 := 2;
      (match s.timer.fetched with | some f => decide (s.gatedNow st.val k.val = true ∧ s.entryGates f st.val k.val = false ∧ s.cnv.early.getLsbD (3 * st.val + k.val) = false) | _ => false) = true := by
  decide +kernel

theorem test_hypotheses_FesTriggers :
    (let s : State := tm (fun t => { t with fesQueue := [⟨0, 5, 100, 0, 0, 160, false, 99000⟩, ⟨1, 63, 7, 1, 1, 160, false, 99000⟩, ⟨2, 0, 7, 1, 1, 160, false, 99000⟩, ⟨0, 6, 100, 0, 0, 160, false, 99000⟩], fesBusy := [] }) State.reset;
      let n : Fin 3 := 2;
      (match takeFes n.val s.timer.fesQueue with | some (_, _) => decide (s.get (FTM.FES_CFG_en n.val) = 0) | _ => false) = true) ∧
    (let s : State := given State.reset fun s => tm (fun t => { t with fesQueue := [⟨0, 5, 100, 0, 0, 160, false, 99000⟩, ⟨1, 63, 7, 1, 1, 160, false, 99000⟩, ⟨2, 0, 7, 1, 1, 160, false, 99000⟩, ⟨0, 6, 100, 0, 0, 160, false, 99000⟩], fesBusy := [⟨1, 5, 6, 3, 4, 160, false, 99000⟩] }) (en s);
      let n : Fin 3 := 2;
      (match takeFes n.val s.timer.fesQueue with | some (_, _) => decide (s.get (FTM.FES_CFG_en n.val) = 1 ∧ s.fesBusy n.val = false) | _ => false) = true) ∧
    (let s : State := given State.reset fun s => tm (fun t => { t with fesQueue := [⟨0, 5, 100, 0, 0, 160, false, 99000⟩, ⟨1, 63, 7, 1, 1, 160, false, 99000⟩, ⟨2, 0, 7, 1, 1, 160, false, 99000⟩, ⟨0, 6, 100, 0, 0, 160, false, 99000⟩], fesBusy := [⟨1, 5, 6, 3, 4, 160, false, 99000⟩] }) (en s);
      let n : Fin 3 := 1;
      (match takeFes n.val s.timer.fesQueue with | some (_, _) => decide (s.get (FTM.FES_CFG_en n.val) = 1 ∧ s.fesBusy n.val = true) | _ => false) = true) := by
  decide +kernel

theorem test_hypotheses_TimerRunsAndStops :
    (let s : State := State.reset; let v : Word := 0x00000001#32; s.ready FTM.CTRL = true ∧ bit v 0 = true ∧ s.timer.running = none ∧
      s.timer.accepted = none ∧ s.get (HDR.BLK_CTRL_enable FTM.base) = 0) ∧
    (let s : State := given State.reset fun s => st (en2 s); let v : Word := 0x00000001#32; s.ready FTM.CTRL = true ∧ bit v 0 = true ∧
      s.timer.running = none ∧ s.timer.accepted = none ∧ s.get (HDR.BLK_CTRL_enable FTM.base) = 1 ∧ s.timer.pending = none) ∧
    (let s : State := given State.reset fun s => tm (fun t => { t with pending := some ⟨0, 1, 32⟩ }) (st (en2 s));
      let v : Word := 0x00000001#32; s.ready FTM.CTRL = true ∧ bit v 0 = true ∧ s.timer.running = none ∧ s.timer.accepted = none ∧
      (match s.timer.pending with | some _ => decide (s.get (HDR.BLK_CTRL_enable FTM.base) = 1 ∧ s.rd64 FTM.START_LO < s.ct + 32768 * 64) | _ => false) = true) ∧
    (let s : State := given State.reset fun s => tm (fun t => { t with pending := some ⟨0, 1, 32⟩ }) ((st (en2 s)).wr64 FTM.START_LO (s.ct + 64 * 32768));
      let v : Word := 0x00000001#32; s.ready FTM.CTRL = true ∧ bit v 0 = true ∧ s.timer.running = none ∧ s.timer.accepted = none ∧
      (match s.timer.pending with | some _ => decide (s.get (HDR.BLK_CTRL_enable FTM.base) = 1 ∧ s.ct + 32768 * 64 ≤ s.rd64 FTM.START_LO) | _ => false) = true) ∧
    (let s : State := given State.reset fun s => tm (fun t => { t with running := none, accepted := some ⟨0, 1, 32⟩ }) s;
      let v : Word := 0x00000000#32; s.ready FTM.CTRL = true ∧ bit v 0 = false ∧
      (match s.timer.accepted with | some _ => decide (s.timer.running = none) | _ => false) = true) ∧
    (let s : State := busy State.reset; let v : Word := 0x00000000#32; s.ready FTM.CTRL = true ∧ bit v 0 = false ∧ s.timer.running ≠ none) := by
  decide +kernel

theorem test_hypotheses_TsyncAndClock_TsyncModes :
    (let s : State := given State.reset fun s => s.set CLK.TSYNC_CTRL_mode 1; let v : Word := 0x00000000#32; s.ready CLK.TSYNC_CTRL = true ∧
      (bits v 0 2 = 0 ∨ bits v 0 2 = 2) ∧ s.get CLK.TSYNC_CTRL_mode = 1 ∧ s.timer.running = none) ∧
    (let s : State := given State.reset fun s => s.set CLK.TSYNC_CTRL_mode 2; let v : Word := 0x00000001#32; s.ready CLK.TSYNC_CTRL = true ∧
      bits v 0 2 = 1 ∧ s.timer.running = none ∧ s.get CLK.TSYNC_CTRL_mode = 2) ∧
    (let s : State := given (busy State.reset) fun s => s.set CLK.TSYNC_CTRL_mode 1; let v : Word := 0x00000001#32;
      s.ready CLK.TSYNC_CTRL = true ∧ bits v 0 2 = 1 ∧ s.timer.running ≠ none ∧ s.get CLK.TSYNC_CTRL_mode = 1) ∧
    (let s : State := State.reset; let v : Word := 0x00000003#32; s.ready CLK.TSYNC_CTRL = true ∧ bits v 0 2 = 3) := by
  decide +kernel

theorem test_hypotheses_TsyncAndClock_ClockEvents :
    (let s : State := lk State.reset; s.refclk = true ∧ s.get CLK.PLL_STAT_locked = 1) ∧
    (let s : State := State.reset; s.get CLK.PLL_CTRL_en = 1 ∧ s.refclk = true ∧ s.pwr.sleep = .run ∧ s.get CLK.PLL_STAT_locked = 0 ∧
      s.timer.running = none) ∧
    (let s : State := given State.reset fun s => { lk s with refclk := false }; s.refclk = false) := by
  decide +kernel

theorem test_hypotheses_PllAndConverters_PllControl :
    (let s : State := State.reset; let v : Word := 0x00000000#32; s.ready CLK.PLL_CTRL = true ∧
      (let c := Instr.pllEnableWrite 0x00#8 0x00000000#32; (s.convertersOn = false ∨ bit v 0 = true ∧ bits v 1 1 = s.get CLK.PLL_CTRL_half) ∧ bit v 0 = false)) ∧
    (let s : State := given State.reset fun s => (off s).set (STD.CNV_CTRL_adc 7) 1; let v : Word := 0x00000000#32;
      s.ready CLK.PLL_CTRL = true ∧
      (let c := Instr.pllEnableWrite 0x00#8 0x00000000#32; s.convertersOn = true ∧ (bit v 0 = false ∨ bits v 1 1 ≠ s.get CLK.PLL_CTRL_half))) := by
  decide +kernel

theorem test_hypotheses_PllAndConverters_ConverterEnables :
    (let s : State := sl (.armed none) State.reset; let st : Fin 8 := 7; let v : Word := 0x0000ffff#32;
      s.ready (STD.CNV_CTRL st.val) = true ∧
      (let i : Nat := 0; i < 4 ∧ (s.slice true i).live = true ∧ bits v 8 8 &&& (255 - s.get (STD.CNV_CTRL_dac st.val)) ≠ 0 ∧ s.bandCheck (fun k => if k = st.val then bits v 8 8 else s.convMask true k) true i st.val ≠ 0) ∧
      (let i : Nat := 0; i < 4 ∧ (s.slice false i).live = true ∧ bits v 0 8 &&& (255 - s.get (STD.CNV_CTRL_adc st.val)) ≠ 0 ∧ s.bandCheck (fun k => if k = st.val then bits v 0 8 else s.convMask false k) false i st.val ≠ 0)) ∧
    (let s : State := State.reset; let st : Fin 8 := 7; let v : Word := 0x00000000#32; s.ready (STD.CNV_CTRL st.val) = true ∧
      (∀ (i : Fin 4) (u : Fin 8), ((s.slice false i.val).live = true → s.bandCheck (fun k => if k = st.val then bits v 0 8 else s.convMask false k) false i.val u.val = 0) ∧ ((s.slice true i.val).live = true → s.bandCheck (fun k => if k = st.val then bits v 8 8 else s.convMask true k) true i.val u.val = 0))) := by
  decide +kernel

theorem test_hypotheses_SliceWordsAndEqualisers_SliceWords :
    (let s : State := State.reset; let tx : Bool := false; let st : Fin 8 := 7; let i : Fin 4 := 3;
      s.ready (sliceWordAddr tx st.val i.val) = true ∧ (s.slice tx i.val).active = false) ∧
    (let s : State := sl (.check 6) State.reset; let tx : Bool := false; let st : Fin 8 := 7; let i : Fin 4 := 3;
      s.ready (sliceWordAddr tx st.val i.val) = true ∧ (s.slice tx i.val).active = true) := by
  decide +kernel

theorem test_hypotheses_SliceWordsAndEqualisers_EqualiserCommit :
    (let s : State := State.reset; let st : Fin 8 := 7; let v : Word := 0x00000001#32; let n : Fin 32 := 0;
      s.ready (STD.EQ_COMMIT st.val) = true ∧ bit v n.val = true ∧
      ((s.slice false (n.val % 4)).isStarted = false ∨ s.timer.running = none) ∧ (let k : Nat := 0; k < 16)) ∧
    (let s : State := busy State.reset; let st : Fin 8 := 7; let v : Word := 0x00000001#32; let n : Fin 32 := 0;
      s.ready (STD.EQ_COMMIT st.val) = true ∧ bit v n.val = true ∧ (s.slice false (n.val % 4)).isStarted = true ∧ s.timer.running ≠ none) := by
  decide +kernel

theorem test_hypotheses_CalibrationAndMutes_CalibrationPlays :
    (let s : State := given State.reset fun s => { cl s with cnv := { s.cnv with play := some ⟨5, 0, 4, 2, 3, 7, [], 1, []⟩ } };
      let id : ReqId := 0x00#8; s.ready TXC.CAL_CTRL = true ∧ s.holds id 43 = false ∧ s.cnv.play ≠ none) ∧
    (let s : State := cl State.reset; let id : ReqId := 0x01#8; let v : Word := 0x00000003#32; s.ready TXC.CAL_CTRL = true ∧
      s.holds id 43 = true ∧ bit v 0 = true ∧ bit v 1 = true ∧ s.cnv.play = none) ∧
    (let s : State := given State.reset fun s => { cl s with cnv := { s.cnv with play := some ⟨5, 0, 4, 2, 3, 7, [], 1, []⟩ } };
      let id : ReqId := 0x01#8; let v : Word := 0x00000003#32; s.ready TXC.CAL_CTRL = true ∧ s.holds id 43 = true ∧ bit v 0 = true ∧
      bit v 1 = true ∧ s.cnv.play ≠ none) := by
  decide +kernel

theorem test_hypotheses_CalibrationAndMutes_MuteRegisters :
    (let s : State := State.reset; let v : Word := 0x00000005#32; s.ready TXC.MUTE_ALL = true ∧ bit v 0 = true ∧ s.timer.running = none ∧
      s.ready TXC.MUTE_STAND = true ∧ (let p : Fin 64 := 0; bit v (p.val / 8) = true) ∧ s.ready TXC.MUTE_PATH_LO = true ∧
      (let p : Fin 32 := 0; bit v p.val = true) ∧ s.ready TXC.MUTE_PATH_HI = true) ∧
    (let s : State := busy State.reset; s.ready TXC.MUTE_ALL = true ∧ s.timer.running ≠ none ∧ s.ready TXC.MUTE_STAND = true ∧
      s.ready TXC.MUTE_PATH_LO = true) := by
  decide +kernel

theorem test_hypotheses_SlicesStartAndStop :
    (let s : State := given State.reset fun s => (ok3 (sl (.check 200000) s)).set (RXC.SLICE_CFG_at_time 3) 1; let tx : Bool := false;
      let i : Fin 4 := 3; let v : Word := 0x00000000#32; s.shaped = true ∧ s.ready (if tx then TXC.SLICE_CTRL else RXC.SLICE_CTRL) = true ∧
      bit v (4 + i.val) = false ∧
      (match (s.slice tx i.val).phase with | .check bt => decide (s.bandFail tx i.val = none ∧ s.flag (if tx then TXC.SLICE_CFG_at_time i.val else RXC.SLICE_CFG_at_time i.val) = true ∧ s.sliceT tx < (s.atBt (bt : Int)).ct) | _ => false) = true ∧
      bit v i.val = false) ∧
    (let s : State := given State.reset fun s => (ok3 (sl (.check 200000) s)).set (RXC.SLICE_CFG_at_time 3) 1; let tx : Bool := false;
      let i : Fin 4 := 2; let v : Word := 0x000000f0#32; s.shaped = true ∧
      (match (s.slice tx i.val).phase with | .check _ => decide (s.bandFail tx i.val = none ∧ s.flag (if tx then TXC.SLICE_CFG_at_time i.val else RXC.SLICE_CFG_at_time i.val) = false) | _ => false) = true ∧
      s.ready (if tx then TXC.SLICE_CTRL else RXC.SLICE_CTRL) = true ∧ bit v i.val = false ∧ bit v (4 + i.val) = true ∧
      ((s.slice tx i.val).isStarted = false ∨ s.timer.running = none)) ∧
    (let s : State := given State.reset fun s => ((ok3 (sl (.check 200000) s)).set (RXC.SLICE_CFG_at_time 3) 1).wr64 RXC.SLICE_T_LO 0x10000000;
      let tx : Bool := false; let i : Fin 4 := 3; s.shaped = true ∧
      (match (s.slice tx i.val).phase with | .check bt => decide (s.bandFail tx i.val = none ∧ s.flag (if tx then TXC.SLICE_CFG_at_time i.val else RXC.SLICE_CFG_at_time i.val) = true ∧ (s.atBt (bt : Int)).ct ≤ s.sliceT tx) | _ => false) = true) ∧
    (let s : State := sl (.armed (some 7000000)) State.reset; let tx : Bool := false; let i : Fin 4 := 3; s.shaped = true ∧
      (match s.sliceInstant tx i.val with | some _ => true | _ => false) = true) ∧
    (let s : State := given (busy State.reset) fun s => (ok3 (sl (.check 200000) s)).set (RXC.SLICE_CFG_at_time 3) 1;
      let tx : Bool := false; let i : Fin 4 := 2; s.shaped = true ∧
      (match (s.slice tx i.val).phase with | .check _ => decide (s.bandFail tx i.val ≠ none) | _ => false) = true) ∧
    (let s : State := busy State.reset; let tx : Bool := false; let i : Fin 4 := 1; let v : Word := 0x000000f0#32; s.shaped = true ∧
      s.ready (if tx then TXC.SLICE_CTRL else RXC.SLICE_CTRL) = true ∧ bit v i.val = false ∧ bit v (4 + i.val) = true ∧
      (s.slice tx i.val).isStarted = true ∧ s.timer.running ≠ none) := by
  decide +kernel

theorem test_hypotheses_SliceConfigurationHolds :
    let s : State := sl2 (.armed none) State.reset; let i : Fin 4 := 3; s.ready (RXC.SLICE_CFG i.val) = true ∧
      (s.slice false i.val).live = true ∧ (let b : Nat := 0; (pageBase b ≠ RXC.base ∨ 0x40 ≤ b % 0x1000)) := by
  decide +kernel

theorem test_hypotheses_ReceiveSamples_AdcSamples :
    let s : State := State.reset; s.shaped = true ∧ s.adcSilent = false ∧ s.cnvTick = true := by
  decide +kernel

theorem test_hypotheses_ReceiveSamples_MonitorsAndGainSteps :
    (let s : State := given State.reset fun s => wbs (s.bt - 9000) (s.set RXC.LVL_CTRL_hold 0);
      (match s.rx.lvlWait.find? s.measured with | some b => decide (s.get RXC.LVL_CTRL_hold = 0 ∧ (let p : Fin 64 := 0; ((s.rxPath p.val).wb.get b ⟨0, 0, 0⟩).n ≠ 0)) | _ => false) = true) ∧
    (let s : State := given State.reset fun s => wbs (s.bt - 9000) (s.set RXC.LVL_CTRL_hold 1);
      (match s.rx.lvlWait.find? s.measured with | some _ => decide (s.get RXC.LVL_CTRL_hold = 1) | _ => false) = true) ∧
    (let s : State := given State.reset fun s => { s with rx := { s.rx with gstep := some (7000000, [(0, 0x1234, 3), (5, 7, 1), (63, 0x80008000, 2)]) } };
      (match s.rx.gstep with | some g => decide ((g.2.all fun x => decide (x.1 < 64)) = true ∧ (g.2.map (·.1)).Nodup) | _ => false) = true) := by
  decide +kernel

theorem test_hypotheses_GroupConfiguration_1 :
    (let s : State := sl (.armed none) State.reset; let g : Fin 4 := 3; let v : Word := 0x00010001#32; s.ready (BFG.PORTS g.val) = true ∧
      bits v 0 7 ≤ 64 ∧ bits v 16 7 ≤ 64 ∧ bits v 0 7 ≠ s.get (BFG.PORTS_rx g.val) ∧ (s.slice false (s.sliceOf g.val)).live = true ∧
      bits v 16 7 ≠ s.get (BFG.PORTS_tx g.val) ∧ (s.slice true (s.sliceOf g.val)).live = true ∧ s.ready BF.JOIN = true ∧
      (bits v 0 1 ≠ s.get BF.JOIN_en_0 ∨ bits v 8 8 ≠ s.get BF.JOIN_delta_0) ∧ (s.liveEither 0 = true ∨ s.liveEither 2 = true) ∧
      (bits v 1 1 ≠ s.get BF.JOIN_en_1 ∨ bits v 16 8 ≠ s.get BF.JOIN_delta_1) ∧ (s.liveEither 1 = true ∨ s.liveEither 3 = true) ∧
      s.ready BF.MODE = true ∧ (match s.antRefusal false (bit v 0) with | some _ => true | _ => false) = true ∧ s.shaped = true ∧
      s.ready (HDR.BLK_CTRL BF.base) = true ∧ bit v 1 = false ∧ bit v 0 = true ∧ s.get (HDR.BLK_CTRL_enable BF.base) = 0) ∧
    (let s : State := given State.reset fun s => ([0, 1, 2, 3].foldl (fun (s : State) g => (s.set (BFG.PORTS_rx g) 63).set (BFG.PORTS_tx g) 64) (sl .stopped s)).set BF.MODE_fdd 1;
      let g : Fin 4 := 3; let v : Word := 0x00000000#32; s.ready (BFG.PORTS g.val) = true ∧ bits v 0 7 ≤ 64 ∧ bits v 16 7 ≤ 64 ∧
      (s.slice false (s.sliceOf g.val)).live = false ∧ (s.slice true (s.sliceOf g.val)).live = false ∧
      (¬(((s.set (BFG.PORTS_rx g.val) (bits v 0 7)).set (BFG.PORTS_tx g.val) (bits v 16 7)).budgetOk)) ∧ s.ready BF.JOIN = true ∧
      s.anyLive false = false ∧ s.anyLive true = false ∧ bits v 8 8 < 160 ∧ bits v 16 8 < 160 ∧
      (¬(((((s.set BF.JOIN_en_0 (bits v 0 1)).set BF.JOIN_en_1 (bits v 1 1)).set BF.JOIN_delta_0 (bits v 8 8)).set BF.JOIN_delta_1 (bits v 16 8)).budgetOk = true)) ∧
      s.ready BF.MODE = true ∧ s.antRefusal false (bit v 0) = none ∧ s.antRefusal true (bit v 1) = none ∧
      (((s.set BF.MODE_ant_rx (bits v 0 1)).set BF.MODE_ant_tx (bits v 1 1)).set BF.MODE_fdd (bits v 2 1)).budgetOk = true ∧
      s.shaped = true ∧ s.ready (HDR.BLK_CTRL BF.base) = true ∧ bit v 1 = false ∧ bit v 0 = false) ∧
    (let s : State := State.reset; let g : Fin 4 := 3; let v : Word := 0x00000000#32; s.ready (BFG.PORTS g.val) = true ∧ bits v 0 7 ≤ 64 ∧
      bits v 16 7 ≤ 64 ∧ (s.slice false (s.sliceOf g.val)).live = false ∧ (s.slice true (s.sliceOf g.val)).live = false ∧
      ((s.set (BFG.PORTS_rx g.val) (bits v 0 7)).set (BFG.PORTS_tx g.val) (bits v 16 7)).budgetOk ∧ s.ready BF.JOIN = true ∧
      s.anyLive false = false ∧ s.anyLive true = false ∧ bits v 8 8 < 160 ∧ bits v 16 8 < 160 ∧
      ((((s.set BF.JOIN_en_0 (bits v 0 1)).set BF.JOIN_en_1 (bits v 1 1)).set BF.JOIN_delta_0 (bits v 8 8)).set BF.JOIN_delta_1 (bits v 16 8)).budgetOk = true) ∧
    (let s : State := given State.reset fun s => ([0, 1, 2, 3].foldl (fun (s : State) g => (s.set (BFG.PORTS_rx g) 63).set (BFG.PORTS_tx g) 64) (sl .stopped s)).set BF.MODE_fdd 1;
      let v : Word := 0x00000002#32; s.ready BF.MODE = true ∧
      (match s.antRefusal true (bit v 1) with | some _ => decide (s.antRefusal false (bit v 0) = none) | _ => false) = true) ∧
    (let s : State := given State.reset fun s => ([0, 1, 2, 3].foldl (fun (s : State) g => (s.set (BFG.PORTS_rx g) 63).set (BFG.PORTS_tx g) 64) (sl .stopped s)).set BF.MODE_fdd 1;
      let v : Word := 0x00000004#32; s.ready BF.MODE = true ∧ s.antRefusal false (bit v 0) = none ∧ s.antRefusal true (bit v 1) = none ∧
      (¬((((s.set BF.MODE_ant_rx (bits v 0 1)).set BF.MODE_ant_tx (bits v 1 1)).set BF.MODE_fdd (bits v 2 1)).budgetOk = true))) ∧
    (let s : State := given State.reset fun s => ([0, 1, 2, 3].foldl (fun (s : State) g => (s.set (BFG.PORTS_rx g) 63).set (BFG.PORTS_tx g) 64) (sl .stopped s)).set BF.MODE_fdd 1;
      let g : Fin 4 := 3; let v : Word := 0x00410003#32; s.ready (BFG.PORTS g.val) = true ∧ (64 < bits v 0 7 ∨ 64 < bits v 16 7)) ∧
    (let s : State := given State.reset fun s => ([0, 1, 2, 3].foldl (fun (s : State) g => (s.set (BFG.PORTS_rx g) 63).set (BFG.PORTS_tx g) 64) (sl .stopped s)).set BF.MODE_fdd 1;
      let v : Word := 0x00a00003#32; s.ready BF.JOIN = true ∧ s.anyLive false = false ∧ s.anyLive true = false ∧
      (160 ≤ bits v 8 8 ∨ 160 ≤ bits v 16 8)) := by
  decide +kernel

theorem test_hypotheses_GroupConfiguration_2 :
    let s : State := busy State.reset; let v : Word := 0x00000000#32; s.shaped = true ∧ s.ready (HDR.BLK_CTRL BF.base) = true ∧
      bit v 1 = false ∧ bit v 0 = false ∧ s.get (HDR.BLK_CTRL_enable BF.base) = 1 ∧ (s.anyLive false = true ∨ s.anyLive true = true) := by
  decide +kernel

theorem test_hypotheses_WeightsAndSeals_Weights :
    (let s : State := State.reset; let w : Fin 655360 := 655359; s.shaped = true ∧ s.ready (0x30000000 + 4 * w.val) = true ∧
      s.isSealing (w.val / 4096) = false ∧ s.refGroup (w.val / 4096) = none ∧
      (let b : Nat := 805306368; (b < 0x30000000 + 4 * w.val ∨ 0x30000004 + 4 * w.val ≤ b)) ∧ s.parityBad (0x30000000 + 4 * w.val) = false ∧
      (s.wctx (w.val / 4096)).isOpen = false) ∧
    (let s : State := given State.reset fun s => { s with bf := { s.bf with sealing := some (0, 5) } }; let w : Fin 655360 := 1;
      s.shaped = true ∧ s.ready (0x30000000 + 4 * w.val) = true ∧ s.isSealing (w.val / 4096) = true) ∧
    (let s : State := busy State.reset; let w : Fin 655360 := 1; s.shaped = true ∧ s.ready (0x30000000 + 4 * w.val) = true ∧
      (match s.refGroup (w.val / 4096) with | some _ => decide (s.isSealing (w.val / 4096) = false) | _ => false) = true) := by
  decide +kernel

theorem test_hypotheses_WeightsAndSeals_ContextsSeal :
    (let s : State := given State.reset fun s => op 5 { s with bf := { s.bf with sealing := some (5, 10) } }; let v : Word := 0x00000000#32;
      s.shaped = true ∧ s.ready BF.SEAL = true ∧ bits v 0 8 < 160 ∧ s.bf.sealing ≠ none ∧
      (match s.bf.sealing with | some x => decide (x.1 < 160) | _ => false) = true) ∧
    (let s : State := State.reset; let v : Word := 0x00000000#32; s.shaped = true ∧ s.ready BF.SEAL = true ∧ bits v 0 8 < 160 ∧
      s.bf.sealing = none ∧ (s.wctx (bits v 0 8)).isOpen = false) ∧
    (let s : State := State.reset; let v : Word := 0x000000a0#32; s.shaped = true ∧ s.ready BF.SEAL = true ∧ 160 ≤ bits v 0 8) ∧
    (let s : State := op 5 State.reset; let v : Word := 0x00000005#32; s.shaped = true ∧ s.ready BF.SEAL = true ∧ bits v 0 8 < 160 ∧
      s.bf.sealing = none ∧ (s.wctx (bits v 0 8)).isOpen = true ∧ s.refGroup (bits v 0 8) = none) := by
  decide +kernel

theorem test_hypotheses_RecomputeAndFallback_1 :
    (let s : State := State.reset; let g : Fin 4 := 3; let v : Word := 0x00000600#32; s.shaped = true ∧ s.ready BF.RCMP = true ∧
      s.ready (BFG.FALLBACK g.val) = true ∧ bits v 8 8 ≠ s.get (BFG.FALLBACK_tx g.val) ∧ bits v 8 8 < 160 ∧
      (s.wctx (bits v 8 8)).isOpen = false ∧ bits v 0 8 = s.get (BFG.FALLBACK_rx g.val) ∧ s.timer.running = none) ∧
    (let s : State := State.reset; let g : Fin 4 := 3; let v : Word := 0x0000a000#32; s.shaped = true ∧
      s.ready (BFG.FALLBACK g.val) = true ∧ bits v 8 8 ≠ s.get (BFG.FALLBACK_tx g.val) ∧ 160 ≤ bits v 8 8 ∧
      bits v 0 8 = s.get (BFG.FALLBACK_rx g.val)) ∧
    (let s : State := State.reset; let g : Fin 4 := 3; let v : Word := 0x00000005#32; s.shaped = true ∧
      s.ready (BFG.FALLBACK g.val) = true ∧ bits v 0 8 < 160 ∧ (s.wctx (bits v 0 8)).isOpen = false ∧
      bits v 8 8 = s.get (BFG.FALLBACK_tx g.val) ∧ bits v 0 8 ≠ s.get (BFG.FALLBACK_rx g.val) ∧ s.timer.running = none) ∧
    (let s : State := State.reset; let g : Fin 4 := 3; let v : Word := 0x000000a0#32; s.shaped = true ∧
      s.ready (BFG.FALLBACK g.val) = true ∧ bits v 0 8 ≠ s.get (BFG.FALLBACK_rx g.val) ∧ 160 ≤ bits v 0 8 ∧
      bits v 8 8 = s.get (BFG.FALLBACK_tx g.val)) ∧
    (let s : State := op 5 State.reset; let g : Fin 4 := 3; let v : Word := 0x00000005#32; s.shaped = true ∧
      s.ready (BFG.FALLBACK g.val) = true ∧ bits v 0 8 ≠ s.get (BFG.FALLBACK_rx g.val) ∧ bits v 0 8 < 160 ∧
      (s.wctx (bits v 0 8)).isOpen = true) ∧
    (let s : State := op 5 State.reset; let g : Fin 4 := 3; let v : Word := 0x00000506#32; s.shaped = true ∧
      s.ready (BFG.FALLBACK g.val) = true ∧ bits v 8 8 ≠ s.get (BFG.FALLBACK_tx g.val) ∧ bits v 8 8 < 160 ∧
      (s.wctx (bits v 8 8)).isOpen = true) ∧
    (let s : State := busy State.reset; let g : Fin 4 := 3; let v : Word := 0x00000600#32; s.shaped = true ∧
      s.ready (BFG.FALLBACK g.val) = true ∧ bits v 8 8 ≠ s.get (BFG.FALLBACK_tx g.val) ∧ bits v 8 8 < 160 ∧
      (s.wctx (bits v 8 8)).isOpen = false ∧ bits v 0 8 = s.get (BFG.FALLBACK_rx g.val) ∧ s.timer.running ≠ none) := by
  decide +kernel

theorem test_hypotheses_RecomputeAndFallback_2 :
    let s : State := busy State.reset; let g : Fin 4 := 3; let v : Word := 0x00000005#32; s.shaped = true ∧
      s.ready (BFG.FALLBACK g.val) = true ∧ bits v 0 8 < 160 ∧ (s.wctx (bits v 0 8)).isOpen = false ∧
      bits v 8 8 = s.get (BFG.FALLBACK_tx g.val) ∧ bits v 0 8 ≠ s.get (BFG.FALLBACK_rx g.val) ∧ s.timer.running ≠ none := by
  decide +kernel

theorem test_hypotheses_TransmitSamples_ReleaseStarts :
    let s : State := tmr (fun t => { t with running := some l0, cur := some (ent 0 99000 1), fetched := some (ent 1 101000 1) }) State.reset;
      let g : Fin 4 := 3; let u : Option (Fin 640 × Nat) := none;
      (match s.timer.fetched with | some e => decide (s.txCarries e g.val = true ∧ s.hasTxSym e g.val = false ∧ (let w := (s.atCt (64 * e.startBt - s.txLatency g.val)).flowsLook; u = none)) | _ => false) = true := by
  decide +kernel

theorem test_hypotheses_TransmitSamples_TxSamples :
    (let s : State := given State.reset fun s => pa (fun p => { p with active := true, runCt := 64 * 99000, inN := 20, outN := 17 }) (tmr (fun t => { t with running := some l0, cur := some { ent 1 99000 1 with frameBt := 98000, slice := 0 } }) (s.set TXC.CFR_CTRL_en 0));
      let p : Fin 64 := 63; s.shaped = true ∧ (s.txPath p.val).active = true ∧
      (match s.timer.cur with | some e => decide ((s.txPath p.val).endN = none ∧ (let n := (s.txPath p.val).inN; (let ct := (s.txPath p.val).runCt + 4 * n; 64 * e.startBt ≤ ct ∧ (s.txEntryNow p.val ct).isSome = true ∧ s.get TXC.CFR_CTRL_en = 0 ∧ (s.txPath p.val).dropTo ≤ (s.txPath p.val).runCt + 4 * (s.txPath p.val).outN))) | _ => false) = true) ∧
    (let s : State := given State.reset fun s => pa (fun p => { p with active := true, runCt := 64 * 99000, inN := 20, outN := 17 }) (tmr (fun t => { t with running := some l0, cur := some { ent 1 99000 2 with frameBt := 98000 } }) s);
      let p : Fin 64 := 63; s.shaped = true ∧ (s.txPath p.val).active = true ∧
      (match s.timer.cur with | some e => decide ((s.txPath p.val).endN = none ∧ (let n := (s.txPath p.val).inN; (let ct := (s.txPath p.val).runCt + 4 * n; 64 * e.startBt ≤ ct ∧ s.txEntryNow p.val ct = none ∧ (match s.txEntryAt ct with | .none => true | _ => false) = true))) | _ => false) = true) ∧
    (let s : State := given State.reset fun s => pa (fun p => { p with active := true, runCt := 64 * 99000, inN := 20, outN := 17 }) (tmr (fun t => { t with running := some l0, cur := some { ent 1 99000 1 with frameBt := 98000 }, fetched := some (ent 1 101000 1) }) s);
      let p : Fin 64 := 63; s.shaped = true ∧ (s.txPath p.val).active = true ∧
      (match s.timer.cur with | some e => decide ((s.txPath p.val).endN = none ∧ (let n := (s.txPath p.val).inN; (let ct := (s.txPath p.val).runCt + 4 * n; 64 * e.startBt ≤ ct ∧ s.txEntryNow p.val ct = none ∧ (match s.txEntryAt ct with | .none => false | _ => true) = true))) | _ => false) = true) ∧
    (let s : State := given State.reset fun s => pa (fun p => { p with active := true, runCt := 64 * 99000, inN := 20, outN := 20, endN := some 20 }) s;
      let p : Fin 64 := 63; s.shaped = true ∧ (s.txPath p.val).active = true ∧
      (match (s.txPath p.val).endN with | some n => decide (n ≤ (s.txPath p.val).inN ∧ n ≤ (s.txPath p.val).outN) | _ => false) = true) := by
  decide +kernel

theorem test_hypotheses_TransmitSamples_GateReleases :
    (let s : State := given State.reset fun s => tmd (pa (fun p => { p with active := true, runCt := 64 * 99000, gate := [⟨6400100, [⟨5, 6⟩, ⟨1,2⟩]⟩, ⟨6500004, [⟨5, 6⟩]⟩] }) { s with tx := { s.tx with muted := 0xFFFFFFFFFFFFFFFF }, cnv := { s.cnv with play := some ⟨5, 0, 4, 2, 3, 7, [], 1, []⟩ } });
      (s.shaped = true ∧ (let p : Fin 64 := 0; (match (s.txPath p.val).gate with | g :: _ => decide (s.dacHeld p.val g.ct = false ∧ ((s.txPath p.val).deficit || (s.txPath p.val).lost || s.clockDown) = false) | _ => false) = true)) ∧
      (s.shaped = true ∧ (let p : Fin 64 := 0; (match (s.txPath p.val).gate with | _ :: _ => decide (s.tx.muted.getLsbD p.val = true ∧ (s.txPath p.val).ramp = none) | _ => false) = true)) ∧
      (s.shaped = true ∧ (match s.cnv.play with | some _ => true | _ => false) = true)) ∧
    (let s : State := pa (fun p => { p with gate := [⟨6500000, [⟨5, 6⟩]⟩, ⟨6500004, [⟨5, 6⟩]⟩] }) State.reset;
      (s.shaped = true ∧ (let p : Fin 64 := 0; (match (s.txPath p.val).gate with | g :: _ => decide (s.dacHeld p.val g.ct = true) | _ => false) = true))) ∧
    (let s : State := given State.reset fun s => tmd (pa (fun p => { p with active := true, runCt := 64 * 99000, deficit := true, gate := [⟨6400100, [⟨5, 6⟩]⟩] }) s);
      (s.shaped = true ∧ (let p : Fin 64 := 0; (match (s.txPath p.val).gate with | g :: _ => decide (s.dacHeld p.val g.ct = false ∧ ((s.txPath p.val).deficit || (s.txPath p.val).lost || s.clockDown) = true) | _ => false) = true))) ∧
    (let s : State := given State.reset fun s => { s with link := { s.link with prog := [⟨0, flowOf 0x0 0x08000100 0 0, 99000, 3, 0, 0, none, 0⟩, ⟨1, flowOf 0x10000 0x08000100 0 0, 99000, 3, 0, 0, none, 0⟩] } };
      (s.shaped = true ∧ (let q : Fin 4 := 0; (match s.gateHead q.val with | some _ => true | _ => false) = true))) := by
  decide +kernel

theorem test_hypotheses_TransmitSamples_RateDeficits :
    (let s : State := given State.reset fun s => { s with link := { s.link with prog := [⟨0, flowOf 0x0 0x08000100 0 0, 99000, 3, 0, 0, none, 0⟩, ⟨1, flowOf 0x10000 0x08000100 0 0, 99000, 3, 0, 0, none, 0⟩] } };
      let v : Word := 0x00000001#32; let p : Fin 64 := 63; s.shaped = true ∧ (s.clockDown = true ∨ s.dacHeld p.val s.ct = true) ∧
      (let q : Fin 4 := 3; (s.clockDown = true ∨ s.gateMiss q.val = none)) ∧
      (let q : Fin 4 := 0; s.clockDown = false ∧ (match s.gateMiss q.val with | some _ => true | _ => false) = true) ∧
      s.ready PWR.RG_CTRL = true ∧ bit v 0 = true) ∧
    (let s : State := busy State.reset; let p : Fin 64 := 63; s.shaped = true ∧ s.clockDown = false ∧ s.dacHeld p.val s.ct = false ∧
      (s.txPath p.val).deficit = false) ∧
    (let s : State := given (busy State.reset) fun s => pa (fun p => { p with deficit := true }) (tmr (fun t => { t with running := some l0, cur := some (ent 0 99000 1), fetched := some (ent 1 101000 1) }) s);
      let p : Fin 64 := 63; s.shaped = true ∧ s.clockDown = false ∧ s.dacHeld p.val s.ct = false ∧ (s.txPath p.val).deficit = true) := by
  decide +kernel

theorem test_hypotheses_BankSwaps :
    (let s : State := given State.reset fun s => dp (fun d => { d with ibyp := true, held := some ⟨0, 16, true, 6, true⟩ }) (on s);
      let p : Fin 64 := 63; let v : Word := 0x000001ff#32; s.shaped = true ∧ s.ready (DPD.SWAP (p.val / 8)) = true ∧
      bit v (p.val % 8) = true ∧ (s.dpdPath p.val).marked (bits v 8 1) = false ∧ s.dpdOn = true ∧ (s.dpdPath p.val).fade = none ∧
      (match (s.dpdPath p.val).held with | some h => decide ((s.dpdPath p.val).fade = none ∧ h.pending = true ∧ (h.target ≠ (s.dpdPath p.val).active ∨ (s.dpdPath p.val).ibyp = true)) | _ => false) = true) ∧
    (let s : State := given State.reset fun s => dp (fun d => { d with ibyp := true, fade := some ⟨1, 32, 4, some (s.ct - 8)⟩ }) (on s);
      let p : Fin 64 := 63; let v : Word := 0x000001ff#32; s.shaped = true ∧ s.ready (DPD.SWAP (p.val / 8)) = true ∧
      bit v (p.val % 8) = true ∧ (s.dpdPath p.val).marked (bits v 8 1) = false ∧ s.dpdOn = true ∧ (s.dpdPath p.val).fade ≠ none ∧
      s.loadOk p.val (bits v 8 1) = true ∧
      (match (s.dpdPath p.val).fade with | some f => decide ((f.from_ ≠ none ∨ f.len ≤ f.k)) | _ => false) = true) ∧
    (let s : State := off2 State.reset; let p : Fin 64 := 63; let v : Word := 0x000001ff#32; s.shaped = true ∧
      s.ready (DPD.SWAP (p.val / 8)) = true ∧ bit v (p.val % 8) = true ∧ (s.dpdPath p.val).marked (bits v 8 1) = false ∧ s.dpdOn = false) ∧
    (let s : State := given State.reset fun s => dp (fun d => { d with markA := true }) (on s); let p : Fin 64 := 63;
      let v : Word := 0x00ff00ff#32; s.shaped = true ∧ s.ready (DPD.SWAP (p.val / 8)) = true ∧ bit v (p.val % 8) = true ∧
      (s.dpdPath p.val).marked (bits v 8 1) = true) := by
  decide +kernel

theorem test_hypotheses_PredistortionStore_DpdEnable :
    (let s : State := given State.reset fun s => onn 0 (s.set (DPD.TERMS_a 7) 40); let st : Fin 8 := 7; let v : Word := 0x00000000#32;
      s.shaped = true ∧ s.ready (DPD.CTRL st.val) = true ∧ bit v 0 = s.dpdOn) ∧
    (let s : State := given State.reset fun s => onn 0 (s.set (DPD.TERMS_a 7) 40); let st : Fin 8 := 7; let v : Word := 0x00000001#32;
      s.shaped = true ∧ s.ready (DPD.CTRL st.val) = true ∧ bit v 0 = true ∧ s.dpdOn = false ∧ s.anyLive true = false ∧
      (let u := (List.range 8).foldl (fun (x : State) k => x.setFlag (DPD.CTRL_en k) true) s; (¬(u.termsInUse ≤ termCap u.checkLevel)))) ∧
    (let s : State := onn 0 State.reset; let st : Fin 8 := 7; let v : Word := 0x00000001#32; s.shaped = true ∧
      s.ready (DPD.CTRL st.val) = true ∧ bit v 0 = true ∧ s.dpdOn = false ∧ s.anyLive true = false ∧
      (let u := (List.range 8).foldl (fun (x : State) k => x.setFlag (DPD.CTRL_en k) true) s; u.termsInUse ≤ termCap u.checkLevel)) ∧
    (let s : State := given State.reset fun s => sl (.started 4) (onn 0 s); let st : Fin 8 := 7; let v : Word := 0x00000001#32;
      s.shaped = true ∧ s.ready (DPD.CTRL st.val) = true ∧ bit v 0 ≠ s.dpdOn ∧ s.anyLive true = true) ∧
    (let s : State := given State.reset fun s => dp (fun d => { d with fade := some ⟨1, 32, 4, none⟩ , held := some ⟨0, 16, true, 6, true⟩ }) (onn 1 s);
      let st : Fin 8 := 7; let v : Word := 0x00000000#32; s.shaped = true ∧ s.ready (DPD.CTRL st.val) = true ∧ bit v 0 = false ∧
      s.dpdOn = true ∧ s.anyLive true = false ∧
      (let p : Fin 64 := 0; (match (s.dpdPath p.val).held with | some _ => true | _ => false) = true)) := by
  decide +kernel

theorem test_hypotheses_PredistortionStore_DpdTerms :
    (let s : State := State.reset; let st : Fin 8 := 7; let n : Fin 40 := 39; let z : Fin 2 := 1; let v : Word := 0x00050003#32;
      s.ready (DPD.CTRL st.val) = true ∧
      (let x := if z.val = 0 then DPD.TERM_A st.val n.val else DPD.TERM_B st.val n.val; (bits v 8 4 = 0 ∨ 9 < bits v 8 4)) ∧
      (let cap := min 40 (termCap s.checkLevel); 1 ≤ bits v 0 6 ∧ 1 ≤ bits v 16 6 ∧ bits v 0 6 ≤ cap ∧ bits v 16 6 ≤ cap ∧ (bits v 0 6 ≠ s.get (DPD.TERMS_a st.val) ∧ s.termsBusy st.val 0 = true ∨ bits v 16 6 ≠ s.get (DPD.TERMS_b st.val) ∧ s.termsBusy st.val 1 = true))) ∧
    (let s : State := State.reset; let st : Fin 8 := 7; let n : Fin 40 := 39; let z : Fin 2 := 1; let v : Word := 0xfffff7ff#32;
      s.ready (DPD.CTRL st.val) = true ∧
      (let x := if z.val = 0 then DPD.TERM_A st.val n.val else DPD.TERM_B st.val n.val; 1 ≤ bits v 8 4 ∧ bits v 8 4 ≤ 9 ∧ s.termsBusy st.val z.val = false ∧ (let a : Nat := 0; a ≠ x)) ∧
      (let cap := min 40 (termCap s.checkLevel); 1 ≤ bits v 0 6 ∧ 1 ≤ bits v 16 6 ∧ (cap < bits v 0 6 ∨ cap < bits v 16 6))) ∧
    (let s : State := State.reset; let st : Fin 8 := 7; let n : Fin 40 := 39; let z : Fin 2 := 0; let v : Word := 0x00000100#32;
      s.ready (DPD.CTRL st.val) = true ∧
      (let x := if z.val = 0 then DPD.TERM_A st.val n.val else DPD.TERM_B st.val n.val; 1 ≤ bits v 8 4 ∧ bits v 8 4 ≤ 9 ∧ s.termsBusy st.val z.val = true)) ∧
    (let s : State := given State.reset fun s => (List.range 8).foldl (fun s k => s.wr (DPD.CTRL k) 0) (sl .stopped s); let st : Fin 8 := 7;
      let v : Word := 0x00050003#32; s.ready (DPD.CTRL st.val) = true ∧
      (let cap := min 40 (termCap s.checkLevel); 1 ≤ bits v 0 6 ∧ 1 ≤ bits v 16 6 ∧ bits v 0 6 ≤ cap ∧ bits v 16 6 ≤ cap ∧ s.termsBusy st.val 0 = false ∧ s.termsBusy st.val 1 = false ∧ (let a : Nat := 0; a ≠ DPD.TERMS st.val))) := by
  decide +kernel

theorem test_hypotheses_PredistortionStore_ThermalStateLoads :
    (let s : State := State.reset; let p : Fin 64 := 63; let v : Word := 0x00000000#32; s.shaped = true ∧
      s.ready (DPD.THM_INIT (p.val / 8) (p.val % 8)) = true ∧ bit v 31 = false) ∧
    (let s : State := State.reset; let p : Fin 64 := 63; let v : Word := 0xffffffff#32; s.shaped = true ∧
      s.ready (DPD.THM_INIT (p.val / 8) (p.val % 8)) = true ∧ bit v 31 = true) := by
  decide +kernel

theorem test_hypotheses_PredistortionStore_BankStore :
    (let s : State := State.reset; let w : Fin 7680 := 7679; let st : Fin 8 := 7; s.shaped = true ∧
      s.ready (0x34000000 + 4 * w.val) = true ∧ s.bankBusy (w.val / 120) (w.val / 60 % 2) = false ∧
      (let b : Nat := 872415232; (b < 0x34000000 + 4 * w.val ∨ 0x34000004 + 4 * w.val ≤ b)) ∧ s.parityBad (0x34000000 + 4 * w.val) = false ∧
      s.ready (DPD.RELOAD st.val) = true) ∧
    (let s : State := State.reset; let w : Fin 7680 := 3840; s.shaped = true ∧ s.ready (0x34000000 + 4 * w.val) = true ∧
      s.bankBusy (w.val / 120) (w.val / 60 % 2) = true) := by
  decide +kernel

theorem test_hypotheses_Captures_Captures :
    (let s : State := cl2 State.reset; let id : ReqId := 0x01#8; let v : Word := 0x00000015#32; s.ready LND.CAP_CTRL = true ∧
      s.holds id 42 = true ∧ bit v 0 = true ∧ bit v 1 = false ∧ bit v 2 = true ∧ s.capture = none ∧
      (match ((((s.set LND.CAP_CTRL_mode (bits v 4 2)).set LND.CAP_CTRL_ref (bits v 6 2)).set LND.CAP_CTRL_line (bits v 8 4)).set LND.CAP_CTRL_en 1).capRefusal id with | some _ => true | _ => false) = true) ∧
    (let s : State := given State.reset fun s => { cl2 s with capture := some ⟨5, 6, 1, 2, 3, 4, [1], false⟩ }; let id : ReqId := 0x01#8;
      s.ready LND.CAP_CTRL = true ∧ s.holds id 42 = true ∧ s.capture ≠ none) ∧
    (let s : State := given State.reset fun s => { cl2 (((s.wr LND.CAP_SEL_LO 3).wr LND.CAP_LEN 99).wr LND.CAP_BASE 0) with capture := none };
      let id : ReqId := 0x01#8; let v : Word := 0x00000015#32; s.ready LND.CAP_CTRL = true ∧ s.holds id 42 = true ∧ bit v 0 = true ∧
      bit v 1 = false ∧ bit v 2 = true ∧ s.capture = none ∧
      ((((s.set LND.CAP_CTRL_mode (bits v 4 2)).set LND.CAP_CTRL_ref (bits v 6 2)).set LND.CAP_CTRL_line (bits v 8 4)).set LND.CAP_CTRL_en 1).capRefusal id = none) ∧
    (let s : State := given State.reset fun s => { cl2 (((s.wr LND.CAP_SEL_LO 3).wr LND.CAP_LEN 99).wr LND.CAP_BASE 0) with capture := none };
      let id : ReqId := 0x01#8; let v : Word := 0x00000023#32; s.ready LND.CAP_CTRL = true ∧ s.holds id 42 = true ∧ bit v 0 = true ∧
      bit v 1 = true ∧ s.capture = none ∧
      ((((s.set LND.CAP_CTRL_mode (bits v 4 2)).set LND.CAP_CTRL_ref (bits v 6 2)).set LND.CAP_CTRL_line (bits v 8 4)).set LND.CAP_CTRL_en 1).capRefusal id = none) := by
  decide +kernel

theorem test_hypotheses_Captures_CaptureEndsAndLandingReads :
    let s : State := given State.reset fun s => { s with capture := some ⟨5, 6, 1, 2, 3, 4, [1], false⟩ }; let w : Fin 2097152 := 2097151;
      s.capture ≠ none ∧ s.ready (0x20000000 + 4 * w.val) = true ∧ s.parityBad (0x20000000 + 4 * w.val) = false := by
  decide +kernel

theorem test_hypotheses_BiasChannels_BiasTargets :
    (let s : State := given State.reset fun s => s.set (BIA.LIM_lo 95) 9; let j : Fin 96 := 95; let v : Word := 0x00000000#32;
      s.ready (BIA.TARGET j.val) = true ∧ s.get (BIA.CODE_fault j.val) = 0 ∧
      (bits v 0 16 < s.get (BIA.LIM_lo j.val) ∨ s.get (BIA.LIM_hi j.val) < bits v 0 16)) ∧
    (let s : State := given State.reset fun s => s.set (BIA.LIM_lo 95) 9; let j : Fin 96 := 95; let v : Word := 0x0000a000#32;
      s.ready (BIA.TARGET j.val) = true ∧ s.get (BIA.CODE_fault j.val) = 0 ∧ s.get (BIA.LIM_lo j.val) ≤ bits v 0 16 ∧
      bits v 0 16 ≤ s.get (BIA.LIM_hi j.val) ∧ 80 ≤ j.val ∧ (s.biasCh j.val).change = none) ∧
    (let s : State := given State.reset fun s => s.set (BIA.CODE_fault 95) 1; let j : Fin 96 := 95; s.ready (BIA.TARGET j.val) = true ∧
      s.get (BIA.CODE_fault j.val) = 1) := by
  decide +kernel

theorem test_hypotheses_BiasChannels_BiasSlews :
    (let s : State := given State.reset fun s => ((s.set (BIA.CODE_clamp 95) 0).set (BIA.SLEW_ivl 95) 2).set (BIA.TARGET_target 95) 900;
      let j : Fin 96 := 95; s.shaped = true ∧ (s.pwr.sleep = .run ∨ s.pwr.sleep = .idle) ∧ s.on 26 = true ∧
      s.get (BIA.CODE_fault j.val) = 0 ∧ s.get (BIA.CODE_clamp j.val) = 0 ∧ (s.biasCh j.val).change = none ∧
      (s.biasCh j.val).cnt < s.get (BIA.SLEW_ivl j.val)) ∧
    (let s : State := given State.reset fun s => ((s.set (BIA.CODE_clamp 95) 0).set (BIA.SLEW_ivl 95) 2).set (BIA.TARGET_target 95) 900;
      let j : Fin 96 := 48; s.shaped = true ∧ (s.pwr.sleep = .run ∨ s.pwr.sleep = .idle) ∧ s.on 26 = true ∧
      s.get (BIA.CODE_fault j.val) = 0 ∧ s.get (BIA.CODE_clamp j.val) = 0 ∧ (s.biasCh j.val).change = none ∧
      s.get (BIA.CODE_code j.val) = s.get (BIA.TARGET_target j.val)) ∧
    (let s : State := given State.reset fun s => (((s.set (BIA.CODE_clamp 95) 0).set (BIA.SLEW_ivl 95) 0).set (BIA.TARGET_target 95) 900).set (BIA.CODE_code 95) 895;
      let j : Fin 96 := 95; s.shaped = true ∧ (s.pwr.sleep = .run ∨ s.pwr.sleep = .idle) ∧ s.on 26 = true ∧
      s.get (BIA.CODE_fault j.val) = 0 ∧ s.get (BIA.CODE_clamp j.val) = 0 ∧ (s.biasCh j.val).change = none ∧
      s.get (BIA.SLEW_ivl j.val) ≤ (s.biasCh j.val).cnt ∧ s.get (BIA.CODE_code j.val) < s.get (BIA.TARGET_target j.val)) ∧
    (let s : State := given State.reset fun s => (((s.set (BIA.CODE_clamp 95) 0).set (BIA.SLEW_ivl 95) 0).set (BIA.TARGET_target 95) 3).set (BIA.CODE_code 95) 895;
      let j : Fin 96 := 95; s.shaped = true ∧ (s.pwr.sleep = .run ∨ s.pwr.sleep = .idle) ∧ s.on 26 = true ∧
      s.get (BIA.CODE_fault j.val) = 0 ∧ s.get (BIA.CODE_clamp j.val) = 0 ∧ (s.biasCh j.val).change = none ∧
      s.get (BIA.SLEW_ivl j.val) ≤ (s.biasCh j.val).cnt ∧ s.get (BIA.TARGET_target j.val) < s.get (BIA.CODE_code j.val)) := by
  decide +kernel

theorem test_hypotheses_BiasChannels_SpanChanges :
    (let s : State := given State.reset fun s => { s with bias := s.bias.map fun b => { b with change := some ⟨1, 1, 4, 0⟩ } };
      let j : Fin 96 := 95; s.shaped = true ∧ s.ready (BIA.CFG j.val) = true ∧ s.get (BIA.CODE_fault j.val) = 0 ∧
      (s.biasCh j.val).change ≠ none ∧
      (match (s.biasCh j.val).change with | some x => decide (x.stage = 4 ∧ x.left = 0 ∧ restCode j.val x.mode x.span = s.get (BIA.TARGET_target j.val)) | _ => false) = true) ∧
    (let s : State := given State.reset fun s => s.set (BIA.CODE_fault 95) 1; let j : Fin 96 := 95; s.shaped = true ∧
      s.ready (BIA.CFG j.val) = true ∧ s.get (BIA.CODE_fault j.val) = 1) ∧
    (let s : State := given State.reset fun s => s.set (BIA.CODE_fault 95) 1; let j : Fin 96 := 48; let v : Word := 0x00000001#32;
      s.shaped = true ∧ s.ready (BIA.CFG j.val) = true ∧ s.get (BIA.CODE_fault j.val) = 0 ∧ (s.biasCh j.val).change = none ∧
      s.spanOk j.val (bits v 0 1) (bits v 1 2) = true ∧ (bits v 0 1 ≠ s.get (BIA.CFG_mode j.val) ∨ bits v 1 2 ≠ s.get (BIA.CFG_span j.val))) ∧
    (let s : State := given State.reset fun s => s.set (BIA.CODE_fault 95) 1; let j : Fin 96 := 48; let v : Word := 0x00000005#32;
      s.shaped = true ∧ s.ready (BIA.CFG j.val) = true ∧ s.get (BIA.CODE_fault j.val) = 0 ∧ (s.biasCh j.val).change = none ∧
      s.spanOk j.val (bits v 0 1) (bits v 1 2) = false) ∧
    (let s : State := given State.reset fun s => { s with bias := s.bias.map fun b => { b with change := some ⟨1, 1, 4, 0⟩ } };
      let j : Fin 96 := 48; s.shaped = true ∧
      (match (s.biasCh j.val).change with | some x => decide (x.stage = 4 ∧ x.left = 0 ∧ restCode j.val x.mode x.span ≠ s.get (BIA.TARGET_target j.val)) | _ => false) = true) := by
  decide +kernel

theorem test_hypotheses_ScalerConverts_ScalerConverts :
    (let s : State := given State.reset fun s => ln (z (fun c => { c with queue := [⟨3, 5000, 12, 1, 4, 77⟩, req] }) (s.set SCL.CTRL_en_aen_b 3));
      let x : Fin 2 := 1; s.shaped = true ∧ s.sclOn x.val = true ∧ s.get (SCL.SEQ_CFG_run x.val) = 1 ∧ s.get (SCL.SEQ_CFG_len x.val) ≠ 0 ∧
      (s.sclCh x.val).pos = none ∧ (s.sclCh x.val).passT = 0 ∧
      (match sclHead (s.sclCh x.val).queue with | some _ => decide ((s.sclCh x.val).conv = none ∧ (s.sclCh x.val).cal ≠ 2 ∧ s.sclOn x.val = true) | _ => false) = true) ∧
    (let s : State := given State.reset fun s => ln (z (fun c => { c with conv := some ⟨none, 0, 12345, 5, 6⟩, pos := some 0 }) s);
      let x : Fin 2 := 1; s.shaped = true ∧
      (match (s.sclCh x.val).conv with | some v => decide ((s.sclWhat x.val (s.sclCh x.val) v).1 < 60 ∧ (s.sclWhat x.val (s.sclCh x.val) v).2.2.1 ≤ v.got + 1 ∧ (s.sclCh x.val).fifo.length < 64) | _ => false) = true) := by
  decide +kernel

theorem test_hypotheses_ScalerConverts_ScalerCalibrates :
    (let s : State := given State.reset fun s => cl3 (z2 (fun c => { c with cal := 1 }) s); let id : ReqId := 0x00#8;
      let v : Word := 0x00000010#32; let x : Fin 2 := 0; s.shaped = true ∧ s.ready SCL.CTRL = true ∧ bit v (4 + x.val) = true ∧
      s.holds id (40 + x.val) = false ∧ (s.sclCh x.val).cal = 1 ∧ (s.sclCh x.val).queue = [] ∧ (s.sclCh x.val).conv = none) ∧
    (let s : State := given State.reset fun s => cl3 (z2 (fun c => { c with cal := 2, queue := [], conv := none }) s);
      let id : ReqId := 0x01#8; let v : Word := 0x00000010#32; let x : Fin 2 := 0; s.shaped = true ∧ s.ready SCL.CTRL = true ∧
      bit v (4 + x.val) = true ∧ s.holds id (40 + x.val) = true ∧ (s.sclCh x.val).cal ≠ 0 ∧ bit v (5 - x.val) = false ∧
      (s.sclCh x.val).cal = 2) ∧
    (let s : State := cl3 State.reset; let id : ReqId := 0x01#8; let v : Word := 0x00000010#32; let x : Fin 2 := 0; s.shaped = true ∧
      s.ready SCL.CTRL = true ∧ bit v (4 + x.val) = true ∧ s.holds id (40 + x.val) = true ∧ (s.sclCh x.val).cal = 0) := by
  decide +kernel

theorem test_hypotheses_Protection :
    (let s : State := given State.reset fun s => match exec (.comparatorTrip 0 .above) (((s.set (PRT.CMP_en 0) 1).set PRT.TRIP_RAW_raw 0).set (PRT.CMP_lo 0) 5) with | .next t => (match exec (.comparatorTrip 0 .inside) t with | .next u => u | _ => t) | _ => s;
      let v : Word := 0x00000001#32; let m : Fin 16 := 0; s.get (PRT.CMP_en m.val) = 1 ∧ (s.pwr.sleep = .run ∨ s.pwr.sleep = .idle) ∧
      s.on 26 = true ∧ (s.get PRT.TRIP_RAW_raw).testBit m.val = false ∧ s.get (PRT.CMP_lo m.val) ≠ 0 ∧ s.ready PRT.ACT_CLR = true ∧
      bit v m.val = true ∧ s.acting m.val = true ∧ s.srcRaw m.val = false) ∧
    (let s : State := given State.reset fun s => ((s.set (PRT.CMP_en 15) 1).set PRT.TRIP_RAW_raw 0).set (PRT.CMP_lo 15) 0;
      let m : Fin 16 := 15; s.get (PRT.CMP_en m.val) = 1 ∧ (s.pwr.sleep = .run ∨ s.pwr.sleep = .idle) ∧ s.on 26 = true ∧
      (s.get PRT.TRIP_RAW_raw).testBit m.val = false ∧ s.get (PRT.CMP_lo m.val) = 0) ∧
    (let s : State := given State.reset fun s => match exec (.comparatorTrip 0 .above) (((s.set (PRT.CMP_en 0) 1).set PRT.TRIP_RAW_raw 0).set (PRT.CMP_lo 0) 5) with | .next t => t | _ => s;
      let v : Word := 0x00000001#32; let m : Fin 16 := 0; s.ready PRT.ACT_CLR = true ∧ bit v m.val = true ∧ s.acting m.val = true ∧
      s.srcRaw m.val = true) := by
  decide +kernel

theorem test_hypotheses_Temperatures_ThermalUpdates :
    (let s : State := given State.reset fun s => (s.set THM.CTRL_xchk_en 0);
      let n : List Nat := [1400, 1400, 1400, 1400, 1400, 1400, 1400, 1400, 1400, 1400, 1400, 1400, 1400, 1400, 1400, 1400, 1400, 1400, 1400, 1400, 1400, 1400, 1400, 1400, 1400, 1400, 1400, 1400, 1400, 1400, 1400, 1400, 1400, 1400, 1400, 1400, 1400, 1400, 1400, 1400];
      n.length = 40 ∧ s.refclk = true ∧ s.rst.held.contains 7 = false ∧ s.rst.next ≠ some 0 ∧ s.pwr.sleep = .run ∧ s.thm.above < 156 ∧
      s.get THM.CTRL_xchk_en = 0 ∧ (let r := fun u : Nat => s.otp.reading u (n.getD u 0); (∀ u : Fin 40, r u.val < s.thmCeil))) ∧
    (let s : State := given State.reset fun s => { (s.set THM.CTRL_xchk_en 0).set THM.ALARM_TEMP_temp 400 with otp := { s.otp with grade := 1, therm := (List.range 40).map fun i => (1000, 2000 + i) } };
      let n : List Nat := [600, 600, 600, 600, 600, 600, 600, 600, 600, 600, 600, 600, 600, 600, 600, 600, 600, 600, 600, 600, 600, 600, 600, 600, 600, 600, 600, 600, 600, 600, 3000, 3000, 3000, 3000, 3000, 3000, 3000, 3000, 3000, 3000];
      n.length = 40 ∧ s.refclk = true ∧ s.rst.held.contains 7 = false ∧ s.rst.next ≠ some 0 ∧ s.pwr.sleep = .run ∧ s.thm.above < 156 ∧
      s.get THM.CTRL_xchk_en = 0 ∧ (let r := fun u : Nat => s.otp.reading u (n.getD u 0); (∃ u : Fin 40, s.thmCeil ≤ r u.val))) := by
  decide +kernel

theorem test_hypotheses_Temperatures_ThermalClears :
    (let s : State := given State.reset fun s => { s with rst := { s.rst with held := [7] }, thm := { s.thm with under := 16 } };
      let id : ReqId := 0x00#8; let v : Word := 0x00000001#32; s.rst.held.contains 7 = true ∧ 16 ≤ s.thm.under ∧ s.ready THM.HALT = true ∧
      bit v 0 = true ∧ (∀ u : Fin 40, s.thmRep u.val < s.thmCeil - 80) ∧ s.shaped = true ∧ s.ready THM.SUSPECT_LO = true ∧
      s.stage.find? id.toNat = none ∧ s.ready THM.SUSPECT_HI = true) ∧
    (let s : State := given State.reset fun s => { (s.wr THM.SUSPECT_LO 0xFFFFFFFF).wr THM.SUSPECT_HI 0xFF with stage := [(0, 0x21), (1, 3)] };
      let id : ReqId := 0x00#8; let v : Word := 0x00000001#32; s.shaped = true ∧ s.ready THM.SUSPECT_LO = true ∧
      (match s.stage.find? id.toNat with | some _ => true | _ => false) = true ∧
      (let u : Fin 32 := 0; bit v u.val = true ∧ (s.rd THM.SUSPECT_LO).getLsbD u.val = true)) ∧
    (let s : State := given State.reset fun s => (tp 300 s).set (THM.TEMP_rep 39) 2000; let v : Word := 0x00000001#32;
      s.ready THM.HALT = true ∧ bit v 0 = true ∧ (∃ u : Fin 40, s.thmCeil - 80 ≤ s.thmRep u.val)) := by
  decide +kernel

theorem test_hypotheses_Ports_PortsTrain :
    (let s : State := given State.reset fun s => cf 0 3 0 1 (st2 1 s); let q : Fin 4 := 3;
      (let order : List (Fin 16) := [0, 1, 2, 3, 4, 5, 6, 7, 8, 9, 10, 11, 12, 13, 14, 15]; (let v : Word := 0x00000000#32; s.get (PORT.STAT_state q.val) = 1 ∧ s.on (22 + q.val) = true ∧ s.pwr.railsOut = [] ∧ (let w := s.portWidth q.val; (let got := (List.range w).map fun p => (order.map (·.val)).getD p 0; (let rev := (List.range w).map fun p => w - 1 - p; (got = List.range w ∨ got = rev ∧ s.get (PORT.CFG_allow_rev q.val) = 1)))))) ∧
      (let order : List (Fin 16) := [1, 0]; (let v : Word := 0x00000000#32; s.get (PORT.STAT_state q.val) = 1 ∧ s.on (22 + q.val) = true ∧ s.pwr.railsOut = [] ∧ (let w := s.portWidth q.val; (let got := (List.range w).map fun p => (order.map (·.val)).getD p 0; (let rev := (List.range w).map fun p => w - 1 - p; got ≠ List.range w ∧ (got = rev → s.get (PORT.CFG_allow_rev q.val) = 0))))))) ∧
    (let s : State := given State.reset fun s => cf 0 3 0 0 (st2 0 s); let q : Fin 4 := 3;
      (let order : List (Fin 16) := [0, 1, 2, 3, 4, 5, 6, 7, 8, 9, 10, 11, 12, 13, 14, 15]; (let v : Word := 0x00000001#32; s.ready (HDR.BLK_CTRL (PORT.base q.val)) = true ∧ bit v 0 = true ∧ s.portEn q.val = false ∧ s.portRefusal q.val = none))) ∧
    (let s : State := given State.reset fun s => cf 4 13 0 1 (st2 0 s); let q : Fin 4 := 3;
      (let order : List (Fin 16) := [0, 1, 2, 3, 4, 5, 6, 7, 8, 9, 10, 11, 12, 13, 14, 15]; (let v : Word := 0x00000001#32; s.ready (HDR.BLK_CTRL (PORT.base q.val)) = true ∧ bit v 0 = true ∧ s.portEn q.val = false ∧ (match s.portRefusal q.val with | some _ => true | _ => false) = true))) ∧
    (let s : State := given State.reset fun s => cf 2 3 1 1 (st2 2 s); let q : Fin 4 := 3;
      (let order : List (Fin 16) := [0, 1, 2, 3, 4, 5, 6, 7, 8, 9, 10, 11, 12, 13, 14, 15]; (let v : Word := 0x00000000#32; (s.get (PORT.STAT_state q.val) = 2 ∨ s.get (PORT.STAT_state q.val) = 3)))) := by
  decide +kernel

theorem test_hypotheses_Ports_PortStates :
    (let s : State := given State.reset fun s => tma 1 (cf 2 3 1 1 (st2 3 s)); let q : Fin 4 := 3; s.ready (PORT.CTRL q.val) = true ∧
      s.portEn q.val = true ∧ s.get (PORT.STAT_state q.val) = 3 ∧ s.get (PORT.STAT_timed_armed q.val) = 1 ∧ s.pwr.sleep = .run) ∧
    (let s : State := given State.reset fun s => cf 2 3 0 0 (st2 2 s); let q : Fin 4 := 3; s.ready (PORT.CTRL q.val) = true ∧
      s.get (PORT.STAT_state q.val) = 2) ∧
    (let s : State := given State.reset fun s => cf 0 3 1 1 (st2 4 s); let q : Fin 4 := 3; s.ready (PORT.CTRL q.val) = true ∧
      s.get (PORT.STAT_state q.val) = 4) := by
  decide +kernel

theorem test_hypotheses_LanesAndTests_LaneEvents :
    (let s : State := given State.reset fun s => li 0 (cf 2 3 0 0 (st2 2 s)); let l : Fin 16 := 15; s.shaped = true ∧
      (match s.laneOwner l.val with | some q => decide (s.get (PORT.STAT_state q) = 2 ∧ (let cause : BitVec 3 := 0x1#3; 1 ≤ cause.toNat ∧ cause.toNat ≤ 6 ∧ (cause.toNat = 6 → s.get (LANE.VIOL_LIM_lim l.val) ≠ 0))) | _ => false) = true ∧
      (match s.laneOwner l.val with | some q => decide (s.get (PORT.STAT_state q) = 2 ∧ (let rd : Bool := false; (let g : CodeGroup := { bits := 0x000#10, bnd := 0 }; g.bnd.val = (s.lst l.val).bnd ∧ (let x := if s.get (LANE.CFG_rx_inv l.val) = 1 then 1023 - g.bits.toNat else g.bits.toNat; isViolation rd x = true ∧ s.get (LANE.VIOL_LIM_lim l.val) = 0)))) | _ => false) = true ∧
      (match s.laneOwner l.val with | some q => decide (s.get (PORT.STAT_state q) = 2 ∧ (let rd : Bool := false; (let g : CodeGroup := { bits := 0x0fa#10, bnd := 0 }; g.bnd.val = (s.lst l.val).bnd ∧ (let x := if s.get (LANE.CFG_rx_inv l.val) = 1 then 1023 - g.bits.toNat else g.bits.toNat; isViolation rd x = false ∧ (let a : Nat := 0; a ≠ LANE.STAT l.val))))) | _ => false) = true ∧
      (match s.laneOwner l.val with | some q => decide (s.get (PORT.STAT_state q) = 2 ∧ (let rd : Bool := false; (let g : CodeGroup := { bits := 0x0fa#10, bnd := 0 }; g.bnd.val = (s.lst l.val).bnd ∧ (let x := if s.get (LANE.CFG_rx_inv l.val) = 1 then 1023 - g.bits.toNat else g.bits.toNat; isViolation rd x = false ∧ decode10 rd x = some k28_5)))) | _ => false) = true ∧
      (match s.laneOwner l.val with | some q => decide (s.get (PORT.STAT_state q) = 2 ∧ (let rd : Bool := false; (let g : CodeGroup := { bits := 0x0fa#10, bnd := 3 }; g.bnd.val ≠ (s.lst l.val).bnd ∧ (let x := if s.get (LANE.CFG_rx_inv l.val) = 1 then 1023 - g.bits.toNat else g.bits.toNat; decode10 rd x = some k28_5)))) | _ => false) = true ∧
      (match s.laneOwner l.val with | some q => decide (s.get (PORT.STAT_state q) = 2 ∧ (let h : BitVec 10 := 0x000#10; (let a : Nat := 0; a ≠ LANE.EYE l.val))) | _ => false) = true) ∧
    (let s : State := given State.reset fun s => li 1 (cf 2 3 0 1 (st2 2 s)); let l : Fin 16 := 15; s.shaped = true ∧
      (match s.laneOwner l.val with | some q => decide (s.get (PORT.STAT_state q) = 2 ∧ (let rd : Bool := false; (let g : CodeGroup := { bits := 0x000#10, bnd := 0 }; g.bnd.val = (s.lst l.val).bnd ∧ (let x := if s.get (LANE.CFG_rx_inv l.val) = 1 then 1023 - g.bits.toNat else g.bits.toNat; isViolation rd x = true ∧ s.get (LANE.VIOL_LIM_lim l.val) = 1)))) | _ => false) = true) := by
  decide +kernel

theorem test_hypotheses_LanesAndTests_TestEngines :
    (let s : State := given State.reset fun s => cl4 (pr 0 0xF (st3 0 s)); let id : ReqId := 0x00#8; let q : Fin 4 := 3; s.shaped = true ∧
      s.ready (PORT.PRBS_CTRL q.val) = true ∧
      (let v : Word := 0x00000001#32; bit v 0 = true ∧ bit v 6 = false ∧ s.get (PORT.PRBS_CTRL_en q.val) = 0 ∧ s.prbsLanesOk q.val (bit v 3) (s.get (PORT.PRBS_LANES_mask q.val)) = true ∧ s.holds id (44 + q.val) = false) ∧
      (let v : Word := 0x00000009#32; bit v 0 = true ∧ bit v 6 = false ∧ s.get (PORT.PRBS_CTRL_en q.val) = 0 ∧ s.prbsLanesOk q.val (bit v 3) (s.get (PORT.PRBS_LANES_mask q.val)) = false)) ∧
    (let s : State := given State.reset fun s => sy 0xFFFF (pr 0x21 0xFFFF (st3 0 s)); let q : Fin 4 := 0; s.shaped = true ∧
      (let l : Fin 16 := 0; s.prbsChecker l.val = some q.val ∧ (s.get (PORT.PRBS_STAT_sync q.val)).testBit l.val = true)) ∧
    (let s : State := given State.reset fun s => cl4 (pr 0 0xF (st3 0 s)); let id : ReqId := 0x01#8; let q : Fin 4 := 3; s.shaped = true ∧
      s.ready (PORT.PRBS_CTRL q.val) = true ∧
      (let v : Word := 0x00000001#32; bit v 0 = true ∧ bit v 6 = false ∧ s.get (PORT.PRBS_CTRL_en q.val) = 0 ∧ s.prbsLanesOk q.val (bit v 3) (s.get (PORT.PRBS_LANES_mask q.val)) = true ∧ s.holds id (44 + q.val) = true)) ∧
    (let s : State := given State.reset fun s => cl4 (pr 0x11 0xFFFF (st3 0 s)); let id : ReqId := 0x01#8; let q : Fin 4 := 3;
      s.shaped = true ∧ s.ready (PORT.PRBS_CTRL q.val) = true ∧
      (let v : Word := 0x00000051#32; bits v 0 7 = 0x51 ∧ s.get (PORT.PRBS_CTRL_en q.val) = 1 ∧ s.holds id (44 + q.val) = true ∧ s.prbsLanesOk q.val false (s.get (PORT.PRBS_LANES_mask q.val)) = true ∧ (let l : Fin 16 := 0; (s.get (PORT.PRBS_LANES_mask q.val)).testBit l.val = true))) ∧
    (let s : State := given State.reset fun s => pr 0x21 0xFFFF (st3 0 s); let q : Fin 4 := 0; s.shaped = true ∧
      (let l : Fin 16 := 0; s.prbsChecker l.val = some q.val ∧ (s.get (PORT.PRBS_STAT_sync q.val)).testBit l.val = false)) := by
  decide +kernel

theorem test_hypotheses_Flows_FlowCommands_1 :
    (let s : State := given State.reset fun s => { alloc [3] (fl true s) with upsets := [(0x38000060, .flip 7)] };
      let v : Word := 0x00010000#32; s.ready PNL.FLOW_CMD = true ∧ s.link.cmd = none ∧ bits v 16 3 = 1) ∧
    (let s : State := given State.reset fun s => { alloc [3] (fl true s) with upsets := [(0x38000060, .flip 7)] };
      let v : Word := 0x00020000#32; s.ready PNL.FLOW_CMD = true ∧ s.link.cmd = none ∧ bits v 16 3 = 2) ∧
    (let s : State := given State.reset fun s => { alloc [3] (fl true s) with upsets := [(0x38000060, .flip 7)] };
      let v : Word := 0x00030000#32; s.ready PNL.FLOW_CMD = true ∧ s.link.cmd = none ∧ bits v 16 3 = 3) ∧
    (let s : State := given State.reset fun s => { alloc [3] (fl true s) with upsets := [(0x38000060, .flip 7)] };
      let v : Word := 0x00040000#32; s.ready PNL.FLOW_CMD = true ∧ s.link.cmd = none ∧ bits v 16 3 = 4) ∧
    (let s : State := given State.reset fun s => { alloc [3] (fl true s) with upsets := [(0x38000060, .flip 7)] };
      let v : Word := 0x00050000#32; s.ready PNL.FLOW_CMD = true ∧ s.link.cmd = none ∧ bits v 16 3 = 5) ∧
    (let s : State := given State.reset fun s => { alloc [3] (fl true s) with upsets := [(0x38000060, .flip 7)] };
      let v : Word := 0x00060000#32; s.ready PNL.FLOW_CMD = true ∧ s.link.cmd = none ∧ (bits v 16 3 = 0 ∨ 6 ≤ bits v 16 3)) ∧
    (let s : State := given State.reset fun s => { alloc [3] (fl true s) with link := { s.link with cmd := some (0x20003, 20000000) } };
      let v : Word := 0x00010000#32; let x : Word := 0x00010000#32; s.ready PNL.FLOW_CMD = true ∧
      (match s.link.cmd with | some (x, _) => decide (1 ≤ bits v 16 3 ∧ bits v 16 3 ≤ 5) | _ => false) = true) := by
  decide +kernel

theorem test_hypotheses_Flows_FlowCommands_2 :
    (let s : State := given (busy State.reset) fun s => { alloc [3] (fl true s) with link := { s.link with cmd := some (0x30003, 5) } };
      let v : Word := 0x00010000#32;
      (match s.link.cmd with | some (v, e) => decide (e ≤ s.now ∧ (let a : Access := { id := 0x01#8, write := true, addr := 0x4006c040#32, size := 4, data := 0x0000000000020003#64, poison := false }; (match domOf a.addr.toNat with | some _ => decide (sizeOk a.addr.toNat a.size a.write = true ∧ s.flowSettle.ready a.addr.toNat = true) | _ => false) = true)) | _ => false) = true) ∧
    (let s : State := given State.reset fun s => { alloc [3] (fl true s) with upsets := [(0x38000060, .flip 7)] };
      let v : Word := 0x00010003#32;
      (let i := bits v 0 10; bits v 16 3 = 1 ∧ ((List.range 640).any fun j => decide (s.link.alloc.contains j = false)) = true) ∧
      (let i := bits v 0 10; (let k : Nat := 0; (s.link.alloc.contains k = true → s.flowBad k = false))) ∧
      (let i := bits v 0 10; s.link.alloc.contains i = true ∧ s.flowBad i = true) ∧
      (let i := bits v 0 10; 1 ≤ bits v 16 3 ∧ bits v 16 3 ≤ 5)) ∧
    (let s : State := given State.reset fun s => { alloc [3] (fl true s) with upsets := [(0x38000060, .flip 7)] };
      let v : Word := 0x00020007#32;
      (let i := bits v 0 10; bits v 16 3 = 2 ∧ i < 640 ∧ (s.flow i).en = false ∧ (match (s.enableLooks i).flowRefusal i with | some _ => true | _ => false) = true)) ∧
    (let s : State := given State.reset fun s => { alloc [3] (fl true s) with upsets := [(0x38000060, .flip 7)] };
      let v : Word := 0x00030003#32; (let i := bits v 0 10; bits v 16 3 = 3 ∧ i < 640 ∧ ((s.flowLook i).flow i).en = false)) ∧
    (let s : State := given State.reset fun s => { alloc [3] (fl true s) with upsets := [(0x38000060, .flip 7)] };
      let v : Word := 0x00040000#32; (let i := bits v 0 10; bits v 16 3 = 4 ∧ i < 640 ∧ ((s.flowLook i).flow i).en = true)) ∧
    (let s : State := given State.reset fun s => { alloc [3] (fl true s) with upsets := [(0x38000060, .flip 7)] };
      let v : Word := 0x00040003#32;
      (let i := bits v 0 10; bits v 16 3 = 4 ∧ i < 640 ∧ s.link.alloc.contains i = true ∧ ((s.flowLook i).flow i).en = false ∧ (let w : Nat := 0; w < 8))) ∧
    (let v : Word := 0x00050000#32;
      (let i := bits v 0 10; bits v 16 3 = 5 ∧ i < 640 ∧ (let b : Nat := 0; (b < flowAddr i 6 ∨ flowAddr i 8 ≤ b)))) := by
  decide +kernel

theorem test_hypotheses_Flows_FlowCommands_3 :
    (let s : State := given State.reset fun s => { alloc [3] (fl true s) with staged := [⟨3, 0, 1, 0, false, 100000, [[]], 0, false, 5, false⟩] };
      let v : Word := 0x00030003#32;
      (let i := bits v 0 10; bits v 16 3 = 3 ∧ i < 640 ∧ s.link.alloc.contains i = true ∧ ((s.flowLook i).flow i).en = true ∧ (let x : Staged := { idx := 3, v0 := 0, blocks := 1, g := 0, combine := false, symtime := 100000, smp := [[]], flags := 0, above := false, at_ := 5, off := true }; x.idx = i))) ∧
    (let s : State := fl false State.reset; let v : Word := 0x00020003#32;
      (let i := bits v 0 10; bits v 16 3 = 2 ∧ i < 640 ∧ (s.flow i).en = false ∧ (s.enableLooks i).flowRefusal i = none)) ∧
    (let s : State := given State.reset fun s => alloc (List.range 640) (fl true s); let v : Word := 0x00010000#32;
      (let i := bits v 0 10; bits v 16 3 = 1 ∧ ((List.range 640).all fun j => decide (s.link.alloc.contains j = true)) = true)) := by
  decide +kernel

theorem test_hypotheses_Flows_FlowTable :
    (let s : State := fl false State.reset; let w : Fin 5120 := 5119; s.ready (0x38000000 + 4 * w.val) = true ∧ 5 ≤ w.val % 8 ∧
      (let b : Nat := 939524096; (b < 0x38000000 + 32 * (w.val / 8) ∨ 0x38000020 + 32 * (w.val / 8) ≤ b)) ∧
      s.parityBad (0x38000000 + 4 * w.val) = false) ∧
    (let s : State := fl false State.reset; let w : Fin 5120 := 5112; s.ready (0x38000000 + 4 * w.val) = true ∧ w.val % 8 < 4 ∧
      (s.flow (w.val / 8)).en = false) ∧
    (let s : State := fl true State.reset; let w : Fin 5120 := 5112; s.ready (0x38000000 + 4 * w.val) = true ∧ w.val % 8 < 4 ∧
      (s.flow (w.val / 8)).en = true) := by
  decide +kernel

theorem test_hypotheses_PacketsReceived_1 :
    (let s : State := given State.reset fun s => f 0 0 (up s); let q : Fin 4 := 3; s.flowIdle = true ∧ s.portUp q.val = false) ∧
    (let s : State := given State.reset fun s => f 0 0 (up s); let q : Fin 4 := 0;
      let b : List Byte := [0x00#8, 0x70#8, 0x00#8, 0x05#8, 0x00#8, 0x01#8, 0x86#8, 0xa0#8, 0xff#8, 0x10#8, 0x00#8, 0x00#8, 0x00#8, 0x30#8, 0x74#8, 0xb8#8, 0x07#8, 0x07#8, 0x07#8, 0x07#8, 0x07#8, 0x07#8, 0x07#8, 0x07#8, 0x07#8, 0x07#8, 0x07#8, 0x07#8, 0x07#8, 0x07#8, 0x07#8, 0x07#8, 0x07#8, 0x07#8, 0x07#8, 0x07#8, 0x07#8, 0x07#8, 0x07#8, 0x07#8, 0x07#8, 0x07#8, 0x07#8, 0x07#8, 0x07#8, 0x07#8, 0x07#8, 0x07#8, 0x07#8, 0x07#8, 0x07#8, 0x07#8, 0x07#8, 0x07#8, 0x07#8, 0x07#8, 0x07#8, 0x07#8, 0x07#8, 0x07#8, 0x07#8, 0x07#8, 0x07#8, 0x07#8, 0x42#8, 0x41#8, 0x0e#8, 0x9b#8];
      s.flowIdle = true ∧ s.portUp q.val = true ∧ headerOk b [] = true ∧
      (match s.ingressFlow q.val (headerOf b) with | some i => decide (s.flowBad i = false ∧ 255 ≤ (headerOf b).hop) | _ => false) = true) ∧
    (let s : State := given State.reset fun s => f 0 0 (up s); let q : Fin 4 := 0;
      let b : List Byte := [0x00#8, 0x71#8, 0x00#8, 0x05#8, 0x00#8, 0x01#8, 0x86#8, 0xa0#8, 0x00#8, 0x10#8, 0x00#8, 0x00#8, 0x00#8, 0x30#8, 0x65#8, 0x64#8, 0x07#8, 0x07#8, 0x07#8, 0x07#8, 0x07#8, 0x07#8, 0x07#8, 0x07#8, 0x07#8, 0x07#8, 0x07#8, 0x07#8, 0x07#8, 0x07#8, 0x07#8, 0x07#8, 0x07#8, 0x07#8, 0x07#8, 0x07#8, 0x07#8, 0x07#8, 0x07#8, 0x07#8, 0x07#8, 0x07#8, 0x07#8, 0x07#8, 0x07#8, 0x07#8, 0x07#8, 0x07#8, 0x07#8, 0x07#8, 0x07#8, 0x07#8, 0x07#8, 0x07#8, 0x07#8, 0x07#8, 0x07#8, 0x07#8, 0x07#8, 0x07#8, 0x07#8, 0x07#8, 0x07#8, 0x07#8, 0x4e#8, 0x23#8, 0x95#8, 0x37#8];
      s.flowIdle = true ∧ s.portUp q.val = true ∧ headerOk b [] = true ∧ s.ingressFlow q.val (headerOf b) = none) ∧
    (let s : State := given State.reset fun s => f 0 0 (up s); let q : Fin 4 := 0; let b : List Byte := []; s.flowIdle = true ∧
      s.portUp q.val = true ∧ headerOk b [] = false) ∧
    (let s : State := given State.reset fun s => f 1 0 (up s); let q : Fin 4 := 0;
      let b : List Byte := [0x00#8, 0x71#8, 0x00#8, 0x06#8, 0x00#8, 0x01#8, 0x86#8, 0xa0#8, 0x00#8, 0x10#8, 0x00#8, 0x00#8, 0x00#8, 0x30#8, 0x1d#8, 0x9e#8, 0x07#8, 0x07#8, 0x07#8, 0x07#8, 0x07#8, 0x07#8, 0x07#8, 0x07#8, 0x07#8, 0x07#8, 0x07#8, 0x07#8, 0x07#8, 0x07#8, 0x07#8, 0x07#8, 0x07#8, 0x07#8, 0x07#8, 0x07#8, 0x07#8, 0x07#8, 0x07#8, 0x07#8, 0x07#8, 0x07#8, 0x07#8, 0x07#8, 0x07#8, 0x07#8, 0x07#8, 0x07#8, 0x07#8, 0x07#8, 0x07#8, 0x07#8, 0x07#8, 0x07#8, 0x07#8, 0x07#8, 0x07#8, 0x07#8, 0x07#8, 0x07#8, 0x07#8, 0x07#8, 0x07#8, 0x07#8, 0xa0#8, 0xf7#8, 0x65#8];
      s.flowIdle = true ∧ s.portUp q.val = true ∧ headerOk b [] = true ∧
      (match s.ingressFlow q.val (headerOf b) with | some i => decide (s.flowBad i = false ∧ (headerOf b).hop < 255 ∧ (s.flow i).ty ≠ 0 ∧ crcOk b [] = false) | _ => false) = true) ∧
    (let s : State := given State.reset fun s => f 4 0 (up s); let q : Fin 4 := 0;
      let b : List Byte := [0x00#8, 0x74#8, 0x00#8, 0x06#8, 0x00#8, 0x01#8, 0x86#8, 0xa0#8, 0x00#8, 0x10#8, 0x01#8, 0x00#8, 0x00#8, 0x08#8, 0x9c#8, 0xbf#8, 0x09#8, 0x09#8, 0x09#8, 0x09#8, 0x09#8, 0x09#8, 0x09#8, 0x09#8, 0x66#8, 0x94#8, 0x7e#8, 0xba#8];
      s.flowIdle = true ∧ s.portUp q.val = true ∧ headerOk b [] = true ∧
      (match s.ingressFlow q.val (headerOf b) with | some i => decide (s.flowBad i = false ∧ (headerOf b).hop < 255 ∧ crcOk b [] = true ∧ s.seqOk i (headerOf b).seq = true ∧ (s.flow i).ty = 4 ∧ (headerOf b).len = 8) | _ => false) = true) ∧
    (let s : State := given State.reset fun s => f 4 (65536 + 5) (up s); let q : Fin 4 := 0;
      let b : List Byte := [0x00#8, 0x74#8, 0x00#8, 0x05#8, 0x00#8, 0x01#8, 0x86#8, 0xa0#8, 0x00#8, 0x10#8, 0x00#8, 0x00#8, 0x00#8, 0x30#8, 0x25#8, 0xaa#8, 0x07#8, 0x07#8, 0x07#8, 0x07#8, 0x07#8, 0x07#8, 0x07#8, 0x07#8, 0x07#8, 0x07#8, 0x07#8, 0x07#8, 0x07#8, 0x07#8, 0x07#8, 0x07#8, 0x07#8, 0x07#8, 0x07#8, 0x07#8, 0x07#8, 0x07#8, 0x07#8, 0x07#8, 0x07#8, 0x07#8, 0x07#8, 0x07#8, 0x07#8, 0x07#8, 0x07#8, 0x07#8, 0x07#8, 0x07#8, 0x07#8, 0x07#8, 0x07#8, 0x07#8, 0x07#8, 0x07#8, 0x07#8, 0x07#8, 0x07#8, 0x07#8, 0x07#8, 0x07#8, 0x07#8, 0x07#8, 0xd2#8, 0x1d#8, 0xa1#8, 0x67#8];
      s.flowIdle = true ∧ s.portUp q.val = true ∧ headerOk b [] = true ∧
      (match s.ingressFlow q.val (headerOf b) with | some i => decide (s.flowBad i = false ∧ (headerOf b).hop < 255 ∧ (s.flow i).ty ≠ 0 ∧ crcOk b [] = true ∧ s.seqOk i (headerOf b).seq = false) | _ => false) = true) := by
  decide +kernel

theorem test_hypotheses_PacketsReceived_2 :
    let s : State := given State.reset fun s => f 1 65536 { up s with dev := 6400000 }; let q : Fin 4 := 0;
      let b : List Byte := [0x00#8, 0x71#8, 0x00#8, 0x05#8, 0x00#8, 0x01#8, 0x86#8, 0xa0#8, 0x00#8, 0x10#8, 0x00#8, 0x00#8, 0x00#8, 0x30#8, 0x65#8, 0x64#8, 0x07#8, 0x07#8, 0x07#8, 0x07#8, 0x07#8, 0x07#8, 0x07#8, 0x07#8, 0x07#8, 0x07#8, 0x07#8, 0x07#8, 0x07#8, 0x07#8, 0x07#8, 0x07#8, 0x07#8, 0x07#8, 0x07#8, 0x07#8, 0x07#8, 0x07#8, 0x07#8, 0x07#8, 0x07#8, 0x07#8, 0x07#8, 0x07#8, 0x07#8, 0x07#8, 0x07#8, 0x07#8, 0x07#8, 0x07#8, 0x07#8, 0x07#8, 0x07#8, 0x07#8, 0x07#8, 0x07#8, 0x07#8, 0x07#8, 0x07#8, 0x07#8, 0x07#8, 0x07#8, 0x07#8, 0x07#8, 0x4e#8, 0x23#8, 0x95#8, 0x37#8];
      s.flowIdle = true ∧ s.portUp q.val = true ∧ headerOk b [] = true ∧
      (match s.ingressFlow q.val (headerOf b) with | some i => decide (s.flowBad i = false ∧ (headerOf b).hop < 255 ∧ crcOk b [] = true ∧ s.seqOk i (headerOf b).seq = true ∧ (s.flow i).ty = 1 ∧ (s.flow i).used = true ∧ (headerOf b).len = (s.flow i).bytes ∧ (let u := s.setSeq i (headerOf b).seq true; u.dueCt (s.flow i) (u.fullBt (headerOf b).symtime) - 64 * (s.flow i).win ≤ u.ct ∧ (∀ x, u.lateCt (s.flow i) (u.fullBt (headerOf b).symtime) = some x → (u.ct : Int) < x) ∧ (∀ x ∈ s.staged, ¬(x.idx = i ∧ x.symtime = (headerOf b).symtime)) ∧ u.slotsUsed i < (s.flow i).slots)) | _ => false) = true := by
  decide +kernel

theorem test_hypotheses_PacketsSent_PacketsSent :
    (let s : State := given State.reset fun s => op2 2 (f2 2 5 (up s)); s.shaped = true ∧
      (let q : Fin 4 := 0; s.flowIdle = true ∧ s.nextSample q.val = none ∧ (match s.link.out.getD q.val [] with | p :: _ => decide ((s.fitsGap q.val p.payload.length = true ∨ s.portUp q.val = false) ∧ (let x := s.slotSpan q.val false (slotFrom (s.colFrom q.val s.ct)) p.payload.length; s.portUp q.val = true ∧ (p.ty = 4 → p.payload.length = 8))) | _ => false) = true) ∧
      (let q : Fin 4 := 1; s.flowIdle = true ∧ s.nextSample q.val = none ∧ (match s.link.out.getD q.val [] with | p :: _ => decide ((s.fitsGap q.val p.payload.length = true ∨ s.portUp q.val = false) ∧ (let x := s.slotSpan q.val false (slotFrom (s.colFrom q.val s.ct)) p.payload.length; s.portUp q.val = false)) | _ => false) = true)) ∧
    (let s : State := given State.reset fun s => pr2 (stg (f2 1 5 (up s))); s.shaped = true ∧
      (match s.unscheduled with | some (_, _) => true | _ => false) = true ∧
      (let g : Fin 4 := 0; (match earliest ((s.link.prog.filter fun y => y.cfg.g = g.val && s.role != 0).map fun y => (s.combineCt y, y.idx)) with | some (due, i) => decide ((match (s.link.prog.filter fun y => y.cfg.g = g.val && s.role != 0).find? (fun y => y.idx = i && s.combineCt y = due) with | some _ => decide (s.flowIdle = true ∧ (∀ k ∈ s.enabledFlows, s.flowBad k = false)) | _ => false) = true) | _ => false) = true)) := by
  decide +kernel

theorem test_hypotheses_PacketsSent_LinkSessions :
    (let s : State := given State.reset fun s => { s with link := { s.link with chal := some (3, [1,2], 55) } }; s.link.chal ≠ none) ∧
    (let s : State := given (busy State.reset) fun s => { s with link := { s.link with resetAt := some (55, 56) } };
      (match s.link.resetAt with | some x => decide (s.rst.optFault = false ∧ (¬(s.rst.warm = false ∧ s.rst.next = some 0)) ∧ x.2 ≤ s.now) | _ => false) = true) := by
  decide +kernel

theorem test_hypotheses_PairsAndMirrors_PairSettings :
    (let s : State := given State.reset fun s => s.wr PAR.CFG 0x0301; let v : Word := 0x00000004#32; s.ready PAR.CFG = true ∧
      s.get PAR.CFG_en = 1 ∧ bits v 8 8 ≠ s.get PAR.CFG_miss ∧ s.ready PAR.CTRL = true ∧ bits v 0 3 = 4) ∧
    (let s : State := State.reset; let v : Word := 0x00000000#32; s.ready PAR.CFG = true ∧ s.get PAR.CFG_en = 0 ∧ bits v 8 8 = 0) ∧
    (let s : State := State.reset; let v : Word := 0x00000301#32; s.ready PAR.CFG = true ∧ s.get PAR.CFG_en = 0 ∧ bit v 0 = true ∧
      bits v 8 8 ≠ 0) ∧
    (let s : State := given State.reset fun s => s.wr PAR.CFG 0x0301; let v : Word := 0x00000300#32; s.ready PAR.CFG = true ∧
      s.get PAR.CFG_en = 1 ∧ bit v 0 = false ∧ s.rd PAR.CFG &&& 0xFFFFFF06#32 = v &&& 0xFFFFFF06#32 ∧ bits v 8 8 ≠ 0) := by
  decide +kernel

theorem test_hypotheses_PairsAndMirrors_MirrorAndHeartbeats :
    (let s : State := given State.reset fun s => pp (fun p => { p with pass := none, dirty := [(3, 10), (70, 20)], unacked := [(1, 50), (5, 4)] }) (a s);
      s.mirrors = true ∧ s.pair.pass = none ∧ (match s.pair.dirty with | (_, _) :: _ => true | _ => false) = true ∧
      (match s.oldestSent with | some (_, _) => true | _ => false) = true ∧ s.get PAR.CFG_en = 1 ∧ s.pair.hbRx = none) ∧
    (let s : State := given (busy State.reset) fun s => pp (fun p => { p with pass := some 0 }) (a s); s.mirrors = true ∧
      (match s.pair.pass with | some _ => true | _ => false) = true ∧ s.get PAR.CFG_en = 1 ∧
      (match s.pair.hbRx with | some b => decide (s.pair.hbWin ≤ b) | _ => false) = true) ∧
    (let s : State := given State.reset fun s => (pp (fun p => { p with pass := none, dirty := [(2700, 10)], unacked := [] }) (a s)).set PAR.STAT_sync 1;
      s.mirrors = true ∧ s.oldestDirty ≠ none ∧ s.get PAR.STAT_sync = 1) := by
  decide +kernel

theorem test_hypotheses_Takeover :
    (let s : State := given State.reset fun s => pp (fun p => { p with take := .waitLow 50 }) (a2 3 s); let v : Word := 0x00000001#32;
      s.ready PAR.CTRL = true ∧ bits v 0 3 = 1 ∧ s.get PAR.STAT_role ≠ 1 ∧
      (match s.pair.take with | .waitLow _ => true | _ => false) = true) ∧
    (let s : State := a2 2 State.reset; let v : Word := 0x00000002#32; s.ready PAR.CTRL = true ∧ bits v 0 3 = 2 ∧ s.get PAR.STAT_role = 2 ∧
      s.pwr.sleep = .run ∧ s.get PAR.CFG_en = 1) ∧
    (let s : State := given State.reset fun s => pp (fun p => { p with take := .guard 50 }) (a2 3 s);
      (match s.pair.take with | .guard _ => decide (s.pair.image = []) | _ => false) = true ∧ s.pwr.sleep = .run ∧ s.get PAR.CFG_en = 1 ∧
      s.get PAR.STAT_role = 3 ∧ (match s.pair.take with | .guard _ => true | _ => false) = true) ∧
    (let s : State := a2 1 State.reset; let v : Word := 0x00000001#32; s.ready PAR.CTRL = true ∧ bits v 0 3 = 1 ∧ s.get PAR.STAT_role = 1 ∧
      s.get PAR.STAT_tki = 0) ∧
    (let s : State := given State.reset fun s => (a2 1 s).set PAR.STAT_tki 1; let v : Word := 0x00000001#32; s.ready PAR.CTRL = true ∧
      bits v 0 3 = 1 ∧ s.get PAR.STAT_role = 1 ∧ s.get PAR.STAT_tki = 1) ∧
    (let s : State := given State.reset fun s => pp (fun p => { p with peerRst := some 50 }) (a2 3 s); s.pair.peerRst ≠ none) ∧
    (let s : State := given State.reset fun s => pp (fun p => { p with take := .settle 999990 }) (a2 3 s);
      (match s.pair.take with | .settle _ => true | _ => false) = true) := by
  decide +kernel

theorem test_hypotheses_BundlesIssue :
    (let s : State := run (bw 0 0 0 2) id State.reset; let c : Fin 8 := 7;
      let o : BundleOps := { m0 := MOp.nop, m1 := MOp.nop, l := LOp.nop, s := SOp.imm 5 0x00001234#32, fetchUpset := none, loadUpset := none };
      s.shaped = true ∧ (s.core c.val).mode = .running ∧ s.on (3 + c.val) = true ∧ o.fetchUpset = none ∧ s.upsets = [] ∧ s.poison = [] ∧
      (s.core c.val).pc < 8192 ∧ s.coreStalled c.val = false ∧ ((s.core c.val).haltReq = false ∨ (s.core c.val).eligible = false) ∧
      (let k := s.core c.val; (let w := s.load (bundleAddr c.val k.pc) 16; opsMatch w o = true ∧ issueExc k w o = none ∧ k.remote = none ∧ k.loaded = [] ∧ k.haltReq = false ∧ o.l = .nop ∧ o.s ≠ .halt)) ∧
      (let k := s.core c.val; (let w := s.load (bundleAddr c.val k.pc) 16; opsMatch w o = true ∧ issueExc k w o = none ∧ k.remote = none ∧ k.loaded = [] ∧ k.haltReq = false ∧ o.m0 = .nop ∧ o.m1 = .nop ∧ o.l = .nop ∧ (match o.s with | .imm _ _ => decide (slotRuns k (slotsOf w).2.2.2 = true ∧ k.flights = [] ∧ k.branch = none ∧ k.lc = (0, 0) ∧ bitsOf w 3 5 = 0) | _ => false) = true))) ∧
    (let s : State := run 1 id State.reset; let c : Fin 8 := 7;
      let o : BundleOps := { m0 := MOp.nop, m1 := MOp.nop, l := LOp.nop, s := SOp.nop, fetchUpset := none, loadUpset := none };
      s.shaped = true ∧ (s.core c.val).mode = .running ∧ s.on (3 + c.val) = true ∧ o.fetchUpset = none ∧ s.upsets = [] ∧ s.poison = [] ∧
      (s.core c.val).pc < 8192 ∧ s.coreStalled c.val = false ∧ ((s.core c.val).haltReq = false ∨ (s.core c.val).eligible = false) ∧
      (let k := s.core c.val; (let w := s.load (bundleAddr c.val k.pc) 16; illegalBundle w o.l = true ∧ k.drain.istBit 2 = false))) ∧
    (let s : State := run 1 (fun c => { c with ist := 4 }) State.reset; let c : Fin 8 := 7;
      let o : BundleOps := { m0 := MOp.nop, m1 := MOp.nop, l := LOp.nop, s := SOp.nop, fetchUpset := none, loadUpset := none };
      s.shaped = true ∧ (s.core c.val).mode = .running ∧ s.on (3 + c.val) = true ∧ o.fetchUpset = none ∧ s.upsets = [] ∧ s.poison = [] ∧
      (s.core c.val).pc < 8192 ∧ s.coreStalled c.val = false ∧ ((s.core c.val).haltReq = false ∨ (s.core c.val).eligible = false) ∧
      (let k := s.core c.val; (let w := s.load (bundleAddr c.val k.pc) 16; illegalBundle w o.l = true ∧ k.drain.istBit 2 = true))) ∧
    (let s : State := run (bw 0 0 0 1) (fun c => { c with g := [(2, 7), (3, 0xFFFFFFFF)], rb := 3 }) State.reset; let c : Fin 8 := 7;
      let o : BundleOps := { m0 := MOp.nop, m1 := MOp.nop, l := LOp.nop, s := SOp.alu (AluFn.add) 5 2 3, fetchUpset := none, loadUpset := none };
      s.shaped = true ∧ (s.core c.val).mode = .running ∧ s.on (3 + c.val) = true ∧ o.fetchUpset = none ∧ s.upsets = [] ∧ s.poison = [] ∧
      (s.core c.val).pc < 8192 ∧ s.coreStalled c.val = false ∧ ((s.core c.val).haltReq = false ∨ (s.core c.val).eligible = false) ∧
      (let k := s.core c.val; (let w := s.load (bundleAddr c.val k.pc) 16; opsMatch w o = true ∧ issueExc k w o = none ∧ k.remote = none ∧ k.loaded = [] ∧ k.haltReq = false ∧ (let d : Fin 64 := 5; (let x : Fin 64 := 2; (let y : Fin 64 := 3; o.m0 = .nop ∧ o.m1 = .nop ∧ o.l = .nop ∧ o.s = .alu .add d x y ∧ slotRuns k (slotsOf w).2.2.2 = true ∧ (slotsOf w).2.2.2.sat = false ∧ k.flights = [] ∧ k.branch = none ∧ k.lc = (0, 0) ∧ bitsOf w 3 5 = 0)))))) ∧
    (let s : State := run (bw 0 0 0 4) id State.reset; let c : Fin 8 := 7;
      let o : BundleOps := { m0 := MOp.nop, m1 := MOp.nop, l := LOp.nop, s := SOp.branch 0x0063#13 none, fetchUpset := none, loadUpset := none };
      s.shaped = true ∧ (s.core c.val).mode = .running ∧ s.on (3 + c.val) = true ∧ o.fetchUpset = none ∧ s.upsets = [] ∧ s.poison = [] ∧
      (s.core c.val).pc < 8192 ∧ s.coreStalled c.val = false ∧ ((s.core c.val).haltReq = false ∨ (s.core c.val).eligible = false) ∧
      (let k := s.core c.val; (let w := s.load (bundleAddr c.val k.pc) 16; opsMatch w o = true ∧ issueExc k w o = none ∧ k.remote = none ∧ k.loaded = [] ∧ k.haltReq = false ∧ o.l = .nop ∧ (match o.s with | .branch _ none => decide (slotRuns k (slotsOf w).2.2.2 = true ∧ k.lc = (0, 0)) | _ => false) = true))) ∧
    (let s : State := given State.reset fun s => dm (run (bw 0 0 2 0) id s); let c : Fin 8 := 7;
      let o : BundleOps := { m0 := MOp.nop, m1 := MOp.nop, l := LOp.store { n := 0, mode := AddrMode.indirect, size := 4, sext := false } 2, s := SOp.nop, fetchUpset := none, loadUpset := none };
      s.shaped = true ∧ (s.core c.val).mode = .running ∧ s.on (3 + c.val) = true ∧ o.fetchUpset = none ∧ s.upsets = [] ∧ s.poison = [] ∧
      (s.core c.val).pc < 8192 ∧ s.coreStalled c.val = false ∧ ((s.core c.val).haltReq = false ∨ (s.core c.val).eligible = false) ∧
      (let k := s.core c.val; (let w := s.load (bundleAddr c.val k.pc) 16; opsMatch w o = true ∧ issueExc k w o = none ∧ k.remote = none ∧ k.loaded = [] ∧ k.haltReq = false ∧ (match o.l with | .store m _ => decide (o.s = .nop ∧ m.size = 4 ∧ slotRuns k (slotsOf w).2.2.1 = true ∧ ownDmem c.val (memAddr k m).1 = true ∧ (let b : Nat := 0; (b < (memAddr k m).1 ∨ (memAddr k m).1 + 4 ≤ b))) | _ => false) = true))) := by
  decide +kernel

theorem test_hypotheses_CoresResume_CoresResume :
    (let s : State := given State.reset fun s => let u := rem 0x10000100 id (s.set (HDR.BLK_CTRL_wake_ok (pageOf 0x10000000)) 1);
      { u with pwr := { u.pwr with domOn := 7 } }; let c : Fin 8 := 7; s.shaped = true ∧ (s.core c.val).mode = .remote ∧
      (match (s.core c.val).remote with | some o => decide ((s.core c.val).haltReq = false ∧ lStores o.l = [] ∧ o.s ≠ .halt ∧ (let k := s.core c.val; (let w := s.load (bundleAddr c.val k.pc) 16; (let loads := if slotRuns k (slotsOf w).2.2.1 then lLoads o.l else []; (let r := s.coreLoads c.val k o.loadUpset loads k.loaded; (let d := loadResults k (loads.zip (r.2.filterMap id)); r.1.core c.val = k ∧ r.2.any (·.isNone) = true)))))) | _ => false) = true ∧
      s.stalled = [] ∧ (s.core c.val).haltReq = false ∧ (s.core c.val).mode ≠ .fencing) ∧
    (let s : State := rem 0x10000100 id State.reset; let c : Fin 8 := 7; s.shaped = true ∧ (s.core c.val).mode = .remote ∧
      (match (s.core c.val).remote with | some o => decide ((s.core c.val).haltReq = false ∧ lStores o.l = [] ∧ o.s ≠ .halt ∧ (let k := s.core c.val; (let w := s.load (bundleAddr c.val k.pc) 16; (let loads := if slotRuns k (slotsOf w).2.2.1 then lLoads o.l else []; (let r := s.coreLoads c.val k o.loadUpset loads k.loaded; (let d := loadResults k (loads.zip (r.2.filterMap id)); r.1.core c.val = k ∧ r.2.any (·.isNone) = false ∧ d.2 = none ∧ r.1.coreStalled c.val = false)))))) | _ => false) = true) ∧
    (let s : State := given State.reset fun s => ae (rem 0x60000000 id s); let c : Fin 8 := 7; s.shaped = true ∧
      (s.core c.val).mode = .remote ∧
      (match (s.core c.val).remote with | some o => decide ((s.core c.val).haltReq = false ∧ lStores o.l = [] ∧ o.s ≠ .halt ∧ (let k := s.core c.val; (let w := s.load (bundleAddr c.val k.pc) 16; (let loads := if slotRuns k (slotsOf w).2.2.1 then lLoads o.l else []; (let r := s.coreLoads c.val k o.loadUpset loads k.loaded; (let d := loadResults k (loads.zip (r.2.filterMap id)); r.1.core c.val = k ∧ r.2.any (·.isNone) = false ∧ (match d.2 with | some _ => decide (s.get (CORE.CTRL_aerr_exc c.val) = 1 ∧ k.drain.istBit 2 = false) | _ => false) = true)))))) | _ => false) = true) ∧
    (let s : State := given State.reset fun s => { s with cores := s.cores.map fun c => { c with mode := .fencing, stores := 4 } };
      let c : Fin 8 := 7; s.shaped = true ∧ s.stalled = [] ∧ (s.core c.val).haltReq = false ∧ (s.core c.val).mode = .fencing) ∧
    (let s : State := given State.reset fun s => { s with cores := s.cores.map fun c => { c with mode := .waiting } }; let c : Fin 8 := 7;
      s.shaped = true ∧ (s.core c.val).mode = .waiting ∧ s.coreStalled c.val = false ∧ s.flowIdle = true ∧ s.lowestLine c.val = none) ∧
    (let s : State := given State.reset fun s => (List.range 8).foldl (fun s c => (s.wr (CORE.INT_EN_LO c) 0xFFFFFFFF)) { s with cores := s.cores.map fun c => { c with mode := .waiting, latched := 8 } };
      let c : Fin 8 := 7; s.shaped = true ∧ (s.core c.val).mode = .waiting ∧ s.coreStalled c.val = false ∧ s.flowIdle = true ∧
      (match s.lowestLine c.val with | some _ => decide ((s.core c.val).istBit 0 = false) | _ => false) = true) := by
  decide +kernel

theorem test_hypotheses_CoresResume_CoreEntries :
    (let s : State := given State.reset fun s => en3 { s with cores := s.cores.map fun c => { c with mode := .running, latched := 8, ist := 1, pc := 9 } };
      let c : Fin 8 := 7; s.shaped = true ∧ (s.core c.val).mode = .running ∧ (s.core c.val).eligible = true ∧ s.coreStalled c.val = false ∧
      s.flowIdle = true ∧ (s.core c.val).istBit 0 = true ∧ (match s.lowestLine c.val with | some _ => true | _ => false) = true) ∧
    (let s : State := given State.reset fun s => en3 { s with cores := s.cores.map fun c => { c with mode := .running, latched := 8, ist := 0, pc := 9 } };
      let c : Fin 8 := 7; s.shaped = true ∧ (s.core c.val).mode = .running ∧ (s.core c.val).eligible = true ∧ s.coreStalled c.val = false ∧
      s.flowIdle = true ∧ (s.core c.val).istBit 0 = false) ∧
    (let s : State := given State.reset fun s => { s with cores := s.cores.map fun c => { c with mode := .running, nmi := true, pc := 9000, ist := 9 } };
      let c : Fin 8 := 7; s.shaped = true ∧ (s.core c.val).mode = .running ∧ (s.core c.val).eligible = true ∧ s.coreStalled c.val = false ∧
      s.flowIdle = true ∧ (s.core c.val).nmi = true) := by
  decide +kernel

theorem test_hypotheses_CorePages :
    (let s : State := md .halted id State.reset; let id : ReqId := 0x01#8; let c : Fin 8 := 7; let v : Word := 0x00000001#32;
      s.shaped = true ∧ s.ready (CORE.DOORBELL c.val) = true ∧ bit v 0 = true ∧ (id.toNat = 1 ∨ id.toNat = 2 ∨ id.toNat = 0x30) ∧
      s.ready (CORE.CTRL c.val) = true ∧ (s.core c.val).mode = .halted ∧ s.get RST.BOOT_STAT_accepted = 0 ∧
      s.ready (CORE.WDOG_KICK c.val) = true ∧ bits v 0 16 ≠ 0x5A5A ∧
      (let w : Fin 32768 := 0; s.ready (0x08000000 + c.val * 0x100000 + 4 * w.val) = true ∧ (s.core c.val).mode = .halted) ∧
      (let w : Fin 32768 := 0; s.ready (0x08000000 + c.val * 0x100000 + 4 * w.val) = true ∧ (let b : Nat := 0; (b < 0x08000000 + c.val * 0x100000 + 4 * w.val ∨ 0x08000004 + c.val * 0x100000 + 4 * w.val ≤ b)))) ∧
    (let s : State := md .running (fun c => { c with wdog := some 99999999, flights := [⟨1, .ist 0, false⟩] }) State.reset;
      let c : Fin 8 := 7; let v : Word := 0x00005a5a#32; s.shaped = true ∧ s.ready (CORE.CTRL c.val) = true ∧ bit v 0 = false ∧
      (s.core c.val).mode = .running ∧ (s.core c.val).eligible = true ∧ s.coreStalled c.val = false ∧
      s.ready (CORE.WDOG_KICK c.val) = true ∧ bits v 0 16 = 0x5A5A ∧ s.on (3 + c.val) = true ∧ (s.core c.val).wdog ≠ none ∧
      (let d : Nat := 0; d ≠ c.val) ∧
      (let w : Fin 32768 := 0; s.ready (0x08000000 + c.val * 0x100000 + 4 * w.val) = true ∧ (s.core c.val).mode ≠ .halted)) ∧
    (let s : State := given State.reset fun s => (md .halted id s).set RST.BOOT_STAT_accepted 1; let id : ReqId := 0x10#8;
      let c : Fin 8 := 7; let v : Word := 0x00000001#32; s.shaped = true ∧ s.ready (CORE.DOORBELL c.val) = true ∧ bit v 0 = true ∧
      (let n : Fin 8 := 0; id.toNat = 0x10 + n.val) ∧ s.ready (CORE.CTRL c.val) = true ∧ (s.core c.val).mode = .halted ∧
      s.get RST.BOOT_STAT_accepted = 1) ∧
    (let s : State := md .halted id State.reset; let id : ReqId := 0x47#8; let c : Fin 8 := 7; let v : Word := 0x00000001#32;
      s.shaped = true ∧ s.ready (CORE.DOORBELL c.val) = true ∧ bit v 0 = true ∧ 0x40 ≤ id.toNat) ∧
    (let s : State := md .running (fun c => { c with branch := some (1, 7) }) State.reset; let c : Fin 8 := 7;
      let v : Word := 0x00000000#32; s.shaped = true ∧ s.ready (CORE.CTRL c.val) = true ∧ bit v 0 = false ∧ (s.core c.val).mode = .running ∧
      ((s.core c.val).eligible = false ∨ s.coreStalled c.val = true)) := by
  decide +kernel

theorem test_hypotheses_CoresNeedAnImage :
    let s : State := State.reset; let c : Fin 8 := 7; let v : Word := 0x00000001#32; let w : Fin 32768 := 32767; s.shaped = true ∧
      s.get RST.BOOT_STAT_accepted = 0 ∧ (s.core c.val).mode = .halted ∧ s.ready (CORE.CTRL c.val) = true ∧ bit v 0 = true ∧
      s.ready (0x08000000 + c.val * 0x100000 + 4 * w.val) = true ∧ (let b : Nat := 0;
      (b < 0x08000000 + c.val * 0x100000 + 4 * w.val ∨ 0x08000004 + c.val * 0x100000 + 4 * w.val ≤ b)) := by
  decide +kernel

theorem test_hypotheses_ChannelControl :
    (let s : State := given State.reset fun s => ((s.wr (YCH.RING_BASE 31) 0x10000000).wr (YCH.RING_SIZE 31) 0).wr (YCH.CTRL 31) 0;
      let k : Fin 32 := 31; let v : Word := 0x00000001#32; s.shaped = true ∧ s.ready (YCH.CTRL k.val) = true ∧ bits v 0 3 = 1 ∧
      s.get (YCH.CTRL_en k.val) = 0 ∧ s.ringOk k.val = true ∧ s.ready (YCH.PROD k.val) = true ∧
      (let now := outstanding (bits v 0 16) (bits v 16 1) (s.get (YCH.CONS_idx k.val)) (s.get (YCH.CONS_wrap k.val)) (s.ringSize k.val); (s.ringSize k.val ≤ bits v 0 16 ∨ now < s.ringUsed k.val ∨ (s.ringSize k.val : Int) < now))) ∧
    (let s : State := given State.reset fun s => ((s.wr (YCH.RING_BASE 31) 0x10000000).wr (YCH.RING_SIZE 31) 0).wr (YCH.CTRL 31) 0;
      let k : Fin 32 := 16; let v : Word := 0x00000001#32; s.shaped = true ∧ s.ready (YCH.CTRL k.val) = true ∧ bits v 0 3 = 1 ∧
      s.get (YCH.CTRL_en k.val) = 0 ∧ s.ringOk k.val = false ∧ s.ready (YCH.PROD k.val) = true ∧
      (let now := outstanding (bits v 0 16) (bits v 16 1) (s.get (YCH.CONS_idx k.val)) (s.get (YCH.CONS_wrap k.val)) (s.ringSize k.val); bits v 0 16 < s.ringSize k.val ∧ s.ringUsed k.val ≤ now ∧ now ≤ s.ringSize k.val)) ∧
    (let s : State := given State.reset fun s => s.set (YCH.CTRL_en 31) 1; let k : Fin 32 := 31; let v : Word := 0x00000003#32;
      s.shaped = true ∧ s.ready (YCH.CTRL k.val) = true ∧ bits v 0 3 = 3 ∧ s.get (YCH.CTRL_en k.val) = 1) ∧
    (let s : State := given State.reset fun s => s.set (YCH.CTRL_en 31) 1; let k : Fin 32 := 31; let v : Word := 0x00000005#32;
      s.shaped = true ∧ s.ready (YCH.CTRL k.val) = true ∧ bits v 0 3 = 5 ∧ s.get (YCH.CTRL_en k.val) = 1 ∧ (s.chan k.val).desc = none ∧
      (s.chan k.val).halted = false) ∧
    (let s : State := given State.reset fun s => (ch (fun c => { c with desc := some d0 }) s).set (YCH.CTRL_en 31) 1; let k : Fin 32 := 31;
      let v : Word := 0x00000005#32; s.shaped = true ∧ s.ready (YCH.CTRL k.val) = true ∧ bits v 0 3 = 5 ∧ s.get (YCH.CTRL_en k.val) = 1 ∧
      (s.chan k.val).desc ≠ none ∧ (s.chan k.val).left = 0) ∧
    (let s : State := given State.reset fun s => (ch (fun c => { c with desc := some d0, left := 5 }) s).set (YCH.CTRL_en 31) 1;
      let k : Fin 32 := 31; let v : Word := 0x00000005#32; s.shaped = true ∧ s.ready (YCH.CTRL k.val) = true ∧ bits v 0 3 = 5 ∧
      s.get (YCH.CTRL_en k.val) = 1 ∧ (s.chan k.val).desc ≠ none ∧ (s.chan k.val).left ≠ 0) := by
  decide +kernel

theorem test_hypotheses_ChannelWork_1 :
    (let s : State := given State.reset fun s => (r1 31 (ch2 (fun _ => Chan.reset) s)).set DBG.CMEM_FENCE_bank 1; let k : Fin 32 := 31;
      s.shaped = true ∧ s.get (YCH.CTRL_en k.val) = 1 ∧ (s.chan k.val).halted = false ∧ (s.chan k.val).paused = false ∧
      (s.chan k.val).desc = none ∧ 0 < s.ringUsed k.val ∧ s.yarderUp = true ∧
      (let a := s.descAddr k.val; (let r := (s.setChan k.val { s.chan k.val with refs := domMask a }).descWords k.val; (let d := descOf r.2.1; domMask a &&& ~~~s.pwr.domOn = 0 ∧ r.2.2.2 = true))) ∧
      (let a := s.descAddr k.val; (let r := (s.setChan k.val { s.chan k.val with refs := domMask a }).descWords k.val; (let d := descOf r.2.1; s.ready a = true ∧ s.fenced a = true ∧ memAt a = some .cmem)))) ∧
    (let s : State := given State.reset fun s => let u : State := r1 31 (ch2 (fun _ => Chan.reset) (s.set (HDR.BLK_CTRL_wake_ok (pageOf 0x10000000)) 1));
      { u with pwr := { u.pwr with domOn := 7 } }; let k : Fin 32 := 31; s.shaped = true ∧ s.get (YCH.CTRL_en k.val) = 1 ∧
      (s.chan k.val).halted = false ∧ (s.chan k.val).paused = false ∧ (s.chan k.val).desc = none ∧ 0 < s.ringUsed k.val ∧
      s.yarderUp = true ∧
      (let a := s.descAddr k.val; (let r := (s.setChan k.val { s.chan k.val with refs := domMask a }).descWords k.val; (let d := descOf r.2.1; domMask a &&& ~~~s.pwr.domOn ≠ 0 ∧ s.wakeOk a ((domOf a).getD 2) = true ∧ (let x : Fin 27 := 11; (domMask a).getLsbD x.val = true ∧ s.on x.val = false))))) ∧
    (let s : State := given State.reset fun s => r1 31 (ch2 (fun _ => Chan.reset) s); let k : Fin 32 := 31; s.shaped = true ∧
      s.get (YCH.CTRL_en k.val) = 1 ∧ (s.chan k.val).halted = false ∧ (s.chan k.val).paused = false ∧ (s.chan k.val).desc = none ∧
      0 < s.ringUsed k.val ∧ s.yarderUp = true ∧
      (let a := s.descAddr k.val; (let r := (s.setChan k.val { s.chan k.val with refs := domMask a }).descWords k.val; (let d := descOf r.2.1; domMask a &&& ~~~s.pwr.domOn = 0 ∧ r.2.2.2 = false ∧ r.2.2.1 = false ∧ r.1.descBad k.val d (r.2.1.getD 3 0) = true)))) ∧
    (let s : State := given State.reset fun s => dsc [0x10000100, 0x10000200, 64, 0, 0, 0, 0, 0] (r1 31 (ch2 (fun _ => Chan.reset) s));
      let k : Fin 32 := 31; s.shaped = true ∧ s.get (YCH.CTRL_en k.val) = 1 ∧ (s.chan k.val).halted = false ∧
      (s.chan k.val).paused = false ∧ (s.chan k.val).desc = none ∧ 0 < s.ringUsed k.val ∧ s.yarderUp = true ∧
      (let a := s.descAddr k.val; (let r := (s.setChan k.val { s.chan k.val with refs := domMask a }).descWords k.val; (let d := descOf r.2.1; domMask a &&& ~~~s.pwr.domOn = 0 ∧ r.2.2.2 = false ∧ r.2.2.1 = false ∧ r.1.descBad k.val d (r.2.1.getD 3 0) = false ∧ (∀ x ∈ d.places, r.1.on x.2 = true ∨ r.1.wakeOk x.1 x.2 = true))))) ∧
    (let s : State := given State.reset fun s => { r1 31 (ch2 (fun _ => Chan.reset) s) with upsets := [(0x10000008, .multi)] };
      let k : Fin 32 := 31; s.shaped = true ∧ s.get (YCH.CTRL_en k.val) = 1 ∧ (s.chan k.val).halted = false ∧
      (s.chan k.val).paused = false ∧ (s.chan k.val).desc = none ∧ 0 < s.ringUsed k.val ∧ s.yarderUp = true ∧
      (let a := s.descAddr k.val; (let r := (s.setChan k.val { s.chan k.val with refs := domMask a }).descWords k.val; (let d := descOf r.2.1; domMask a &&& ~~~s.pwr.domOn = 0 ∧ r.2.2.2 = false ∧ r.2.2.1 = true)))) ∧
    (let s : State := given State.reset fun s => ch2 (fun c => { c with desc := some d02 }) (r1 0 s); let k : Fin 32 := 0; s.shaped = true ∧
      s.winner = some k.val ∧ (s.chan k.val).left = 0 ∧ s.flowIdle = true ∧ (∀ i ∈ s.enabledFlows, s.flowBad i = false)) ∧
    (let s : State := given State.reset fun s0 => let s := s0.set (HDR.BLK_CTRL_wake_ok (pageOf 0x20000100)) 0;
      { dsc [0x20000100, 0x10000200, 64, 0, 0, 0, 0, 0] (ring 3 (ch2 (fun _ => Chan.reset) s)) with pwr := { s.pwr with domOn := 0x805 } };
      let k : Fin 32 := 31; s.shaped = true ∧ s.get (YCH.CTRL_en k.val) = 1 ∧ (s.chan k.val).halted = false ∧
      (s.chan k.val).paused = false ∧ (s.chan k.val).desc = none ∧ 0 < s.ringUsed k.val ∧ s.yarderUp = true ∧
      (let a := s.descAddr k.val; (let r := (s.setChan k.val { s.chan k.val with refs := domMask a }).descWords k.val; (let d := descOf r.2.1; domMask a &&& ~~~s.pwr.domOn = 0 ∧ r.2.2.2 = false ∧ r.2.2.1 = false ∧ r.1.descBad k.val d (r.2.1.getD 3 0) = false ∧ (∃ x ∈ d.places, r.1.on x.2 = false ∧ r.1.wakeOk x.1 x.2 = false))))) := by
  decide +kernel

theorem test_hypotheses_ChannelWork_2 :
    (let s : State := given State.reset fun s0 => let s := s0.set (HDR.BLK_CTRL_wake_ok (pageOf 0x10000000)) 0;
      { dsc [0x20000100, 0x10000200, 64, 0, 0, 0, 0, 0] (ring 3 (ch2 (fun _ => Chan.reset) s)) with pwr := { s.pwr with domOn := 0x5 } };
      let k : Fin 32 := 31; s.shaped = true ∧ s.get (YCH.CTRL_en k.val) = 1 ∧ (s.chan k.val).halted = false ∧
      (s.chan k.val).paused = false ∧ (s.chan k.val).desc = none ∧ 0 < s.ringUsed k.val ∧ s.yarderUp = true ∧
      (let a := s.descAddr k.val; (let r := (s.setChan k.val { s.chan k.val with refs := domMask a }).descWords k.val; (let d := descOf r.2.1; domMask a &&& ~~~s.pwr.domOn ≠ 0 ∧ s.wakeOk a ((domOf a).getD 2) = false)))) ∧
    (let s : State := given State.reset fun s => (only 1 (fun c => { c with desc := some d02, left := 4 }) (ring 3 s)).setWord 0x10000100 0x12345678;
      let k : Fin 32 := 1; s.shaped = true ∧ s.winner = some k.val ∧
      (match (s.chan k.val).desc with | some d => decide (0 < d.burst ∧ d.srcReq = false ∧ d.dstReq = false ∧ memAt d.src = some .cmem ∧ memAt d.dst = some .cmem ∧ d.src % 4 = 0 ∧ d.dst % 4 = 0 ∧ s.fenced d.src = false ∧ s.fenced d.dst = false ∧ s.ready d.src = true ∧ 1 < (s.chan k.val).remaining ∧ (s.chan k.val).abort = false ∧ (s.chan k.val).withdrawn = false ∧ (∀ i ∈ s.enabledFlows, s.flowBad i = false) ∧ 1 < (s.chan k.val).left) | _ => false) = true) ∧
    (let s : State := given State.reset fun s => (only 1 (fun c => { c with desc := some d02, left := 1, done := 3 }) (ring 3 s)).setWord 0x1000010C 0x12345678;
      let k : Fin 32 := 1; s.shaped = true ∧ s.winner = some k.val ∧
      (match (s.chan k.val).desc with | some d => decide (0 < d.burst ∧ d.srcReq = false ∧ d.dstReq = false ∧ memAt d.src = some .cmem ∧ memAt d.dst = some .cmem ∧ d.src % 4 = 0 ∧ d.dst % 4 = 0 ∧ s.fenced d.src = false ∧ s.fenced d.dst = false ∧ s.ready d.src = true ∧ 1 < (s.chan k.val).remaining ∧ (s.chan k.val).abort = false ∧ (s.chan k.val).withdrawn = false ∧ (∀ i ∈ s.enabledFlows, s.flowBad i = false) ∧ (s.chan k.val).left = 1 ∧ (s.chan k.val).stage = [] ∧ (let b : Nat := 0; (b < d.dst ∨ d.dst + 4 ≤ b))) | _ => false) = true) := by
  decide +kernel

theorem test_hypotheses_MemoryUpsets_MemoryUpsets :
    (let s : State := given State.reset fun s => s.store 0x10000100 0x1122334455667788 8;
      let a : Access := { id := 0x10#8, write := false, addr := 0x10000100#32, size := 8, data := 0x0000000123456789#64, poison := false };
      (match memAt a.addr.toNat with | some m => decide ((match secdedIndex m with | some _ => decide (a.write = false ∧ sizeOk a.addr.toNat a.size false = true ∧ s.ready a.addr.toNat = true ∧ s.fenced a.addr.toNat = false ∧ s.poisoned a.addr.toNat = false ∧ s.upsets.find? (a.addr.toNat - a.addr.toNat % 8) = none ∧ a.id ≠ 1 ∧ a.id ≠ 2) | _ => false) = true) | _ => false) = true) ∧
    (let s : State := given State.reset fun s => s.store 0x10000100 0x1122334455667788 8;
      let a : Access := { id := 0x01#8, write := false, addr := 0x10000100#32, size := 4, data := 0x0000000123456789#64, poison := false };
      (match memAt a.addr.toNat with | some m => decide ((match secdedIndex m with | some _ => decide (a.write = false ∧ sizeOk a.addr.toNat a.size false = true ∧ s.ready a.addr.toNat = true ∧ s.fenced a.addr.toNat = false ∧ s.poisoned a.addr.toNat = false ∧ s.upsets.find? (a.addr.toNat - a.addr.toNat % 8) = none ∧ (a.id = 1 ∨ a.id = 2)) | _ => false) = true) | _ => false) = true) := by
  decide +kernel

theorem test_hypotheses_MemoryUpsets_CruiserWalks :
    (let s : State := given State.reset fun s => s.set MEM.CRU_CTRL_en 0; s.cruStill = true) ∧
    (let s : State := cr (some (0xFFFFFFFF, 0, 0x10000100)) State.reset; let u : Option Upset := none; s.cruStill = false ∧
      (match s.cru.walk with | some (mask, n, a0) => decide ((let n' : Nat := 0; (match s.cruAt mask n a0 with | some (n', a) => decide (a % 8 = 0 ∧ s.cruAt mask n' (a + 8) = some (n', a + 8) ∧ u = none ∧ s.upsets = []) | _ => false) = true)) | _ => false) = true) ∧
    (let s : State := cr (some (0xFFFFFFFF, 0, 0x10000100)) State.reset; let u : Option Upset := some (Upset.multi); s.cruStill = false ∧
      (match s.cru.walk with | some (mask, n, a0) => decide ((let n' : Nat := 0; (match s.cruAt mask n a0 with | some (n', a) => decide (a % 8 = 0 ∧ (match memAt a with | some m => decide ((match secdedIndex m with | some _ => decide (s.poisoned a = false ∧ u = some .multi) | _ => false) = true) | _ => false) = true) | _ => false) = true)) | _ => false) = true) := by
  decide +kernel

theorem test_hypotheses_LevelChanges :
    (let s : State := given State.reset fun s => pw (fun p => { p with vok := true }) (vd 0x6E s); let v : Word := 0x00000000#32;
      s.ready PWR.PL_CTRL = true ∧ s.pwr.hand = none ∧ s.needLevel ≤ bits v 0 2 ∧ s.pwr.change = none ∧ bits v 0 2 ≠ s.get PWR.PL_STAT_cur ∧
      s.pwr.restExit = false ∧ s.vid ≠ levelCode (bits v 0 2) ∧ s.vid ≠ s.pwr.goal ∧ s.pwr.goal < 256 ∧ s.pwr.vok = true ∧ s.vid ≠ 0) ∧
    (let s : State := given State.reset fun s => (s.set (DPD.CTRL_en 0) 1).set (DPD.TERMS_a 0) 40; let v : Word := 0x00000000#32;
      s.ready PWR.PL_CTRL = true ∧ s.pwr.hand = none ∧ bits v 0 2 < s.needLevel ∧ s.get DBG.CHAR_lvl_ovr = 0) ∧
    (let s : State := pw (fun p => { p with hand := some hs }) State.reset; s.ready PWR.PL_CTRL = true ∧ s.pwr.hand ≠ none) ∧
    (let s : State := given State.reset fun s => pw (fun p => { p with vok := true }) (vd 0x6E s); let v : Word := 0x00000003#32;
      s.ready PWR.PL_CTRL = true ∧ s.pwr.hand = none ∧ s.needLevel ≤ bits v 0 2 ∧ s.pwr.change = none ∧ bits v 0 2 ≠ s.get PWR.PL_STAT_cur ∧
      s.pwr.restExit = false ∧ s.vid = levelCode (bits v 0 2) ∧ s.pwr.vok = true) ∧
    (let s : State := given State.reset fun s => pw (fun p => { p with change := some ⟨2, 3, false⟩, goal := 0x6E }) (vd 0x6E s);
      (match s.pwr.change with | some c => decide (c.back = false ∧ s.vid = s.pwr.goal ∧ s.vid ≠ 0 ∧ s.pwr.restExit = false ∧ s.pwr.vok = false ∧ s.pwr.waiting = none) | _ => false) = true) := by
  decide +kernel

theorem test_hypotheses_SleepStates :
    (let s : State := pw (fun p => { p with hand := some (hs2 2 [.port, .lnd]) }) State.reset; let v : Word := 0x00000001#32;
      s.ready PWR.SLEEP_CTRL = true ∧ bits v 0 2 = 1 ∧
      (match s.pwr.hand with | some h => decide ((match h.todo with | p :: _ => decide (((p.asked h.target).findSome? fun d => (s.refusal d h.force false s.pwr.wakeSeen).map fun r => (d, r)) = none ∧ p ≠ .core ∧ p ≠ .lnd) | _ => false) = true) | _ => false) = true) ∧
    (let s : State := pw (fun p => { p with hand := some (hs2 1 []) }) State.reset; let v : Word := 0x00000002#32;
      s.ready PWR.SLEEP_CTRL = true ∧ bits v 0 2 = 2 ∧
      (match s.pwr.hand with | some h => decide (h.todo = [] ∧ s.pwr.wakeSeen = false ∧ h.target = 1) | _ => false) = true) ∧
    (let s : State := pw (fun p => { p with hand := some (hs2 2 []) }) State.reset; let v : Word := 0x00000003#32;
      s.ready PWR.SLEEP_CTRL = true ∧ bits v 0 2 = 3 ∧
      (match s.pwr.hand with | some h => decide (h.todo = [] ∧ s.pwr.wakeSeen = false ∧ h.target = 2 ∧ (let d : Nat := 1; 1 ≤ d ∧ d < 27)) | _ => false) = true) ∧
    (let s : State := pw (fun p => { p with sleep := .idle }) State.reset; let v : Word := 0x00000000#32; s.ready PWR.SLEEP_CTRL = true ∧
      bits v 0 2 = 0 ∧ s.pwr.sleep = .idle ∧ s.pwr.hand = none) ∧
    (let s : State := pw (fun p => { p with hand := some (hs2 3 []) }) State.reset;
      (match s.pwr.hand with | some h => decide (h.todo = [] ∧ s.pwr.wakeSeen = false ∧ h.target = 3 ∧ (let d : Nat := 1; 1 ≤ d ∧ d < 27)) | _ => false) = true) ∧
    (let s : State := pw (fun p => { p with hand := some (hs2 2 [.fab, .lnd]) }) (busy State.reset);
      (match s.pwr.hand with | some h => decide ((match h.todo with | p :: _ => decide ((let d : Nat := 2; (let r : Nat := 3; ((p.asked h.target).findSome? fun d => (s.refusal d h.force false s.pwr.wakeSeen).map fun r => (d, r)) = some (d, r)))) | _ => false) = true) | _ => false) = true) := by
  decide +kernel

theorem test_hypotheses_DomainsAndWakes_DomainsAndWakes :
    (let s : State := given State.reset fun s => we 3 (pw (fun p => { p with sleep := .idle }) s); let v : Word := 0x00000000#32;
      s.ready PWR.DOM_CTRL = true ∧ s.get PWR.DOM_CTRL_off = 0 ∧ bits v 0 27 &&& 0x4000807 = 0 ∧ (s.get PWR.WAKE_EN_src).testBit 0 = true ∧
      s.pwr.hand = none ∧ s.pwr.sleep = .idle ∧ (s.get PWR.WAKE_EN_src).testBit 1 = true ∧ s.pwr.sleep ≠ .run) ∧
    (let s : State := given State.reset fun s => we 0 s; let v : Word := 0x00000001#32; s.ready PWR.DOM_CTRL = true ∧
      s.get PWR.DOM_CTRL_off = 0 ∧ bits v 0 27 &&& 0x4000807 ≠ 0 ∧ (s.get PWR.WAKE_EN_src).testBit 0 = false ∧
      (s.get PWR.WAKE_EN_src).testBit 1 = false) ∧
    (let s : State := given State.reset fun s => pw (fun p => { p with domOn := 7 }) (s.wr PWR.DOM_CTRL 0x7FFFF8);
      let v : Word := 0x00000000#32; s.ready PWR.DOM_CTRL = true ∧
      (let d : Fin 27 := 3; (s.get PWR.DOM_CTRL_off).testBit d.val = true ∧ (bits v 0 27).testBit d.val = false ∧ bits v 0 27 &&& 0x4000807 = 0 ∧ s.on d.val = false) ∧
      (s.get PWR.WAKE_EN_src).testBit 0 = true ∧ s.pwr.hand = none ∧ s.pwr.sleep = .run) ∧
    (let s : State := given State.reset fun s => we 3 (pw (fun p => { p with sleep := .rest }) s);
      (s.get PWR.WAKE_EN_src).testBit 0 = true ∧ s.pwr.hand = none ∧ s.pwr.sleep = .rest ∧ s.vid = s.pwr.goal ∧
      (s.get PWR.WAKE_EN_src).testBit 1 = true ∧ s.pwr.sleep ≠ .run ∧ s.pwr.sleep ≠ .idle) ∧
    (let s : State := given State.reset fun s => we 3 (pw (fun p => { p with sleep := .rest, goal := 0x28, vidN := 2 }) (s.set PWR.PL_STAT_vid 0x2A));
      (s.get PWR.WAKE_EN_src).testBit 0 = true ∧ s.pwr.hand = none ∧ s.pwr.sleep = .rest ∧ s.vid ≠ s.pwr.goal) ∧
    (let s : State := pw (fun p => { p with offTodo := [⟨14, false, false⟩, ⟨15, true, true⟩] }) State.reset; s.pwr.hand = none ∧
      (match s.pwr.offTodo with | o :: _ => decide (o.dom < 27 ∧ s.on o.dom = true ∧ o.dom ≠ 13 ∧ s.refusal o.dom o.force true o.woke = none) | _ => false) = true) ∧
    (let s : State := pw (fun p => { p with offTodo := [⟨14, false, false⟩, ⟨15, true, true⟩] }) (busy State.reset); s.pwr.hand = none ∧
      (match s.pwr.offTodo with | o :: _ => decide (o.dom < 27 ∧ s.on o.dom = true ∧ o.dom ≠ 13 ∧ (match s.refusal o.dom o.force true o.woke with | some _ => true | _ => false) = true) | _ => false) = true) := by
  decide +kernel

theorem test_hypotheses_DomainsAndWakes_DomainsBecomeReady :
    let s : State := given State.reset fun s => { s with pwr := { s.pwr with domOn := 1, domWaking := 0x7FFFFFE } }; let d : Fin 27 := 26;
      s.pwr.domWaking.getLsbD d = true ∧ s.on d = false ∧ s.unreleased d = false ∧ s.stalled = [] ∧ s.mgt.held = [] ∧
      s.pwr.restExit = false ∧ d.val ≠ 2 := by
  decide +kernel

theorem test_hypotheses_DomainsAndWakes_WakesTimeOut :
    let s : State := given State.reset fun s => { s with stalled := [ac 0x40000040], pwr := { s.pwr with domOn := 1 } };
      let d : Fin 27 := 2;
      let a : Access := { id := 0x01#8, write := true, addr := 0x40000040#32, size := 4, data := 0x0000000000000055#64, poison := false };
      s.on d = false ∧ s.stalled = [a] ∧ accDomain a = d.val ∧ s.mgt.before = [] ∧ s.mgt.todo = [] ∧ s.mgmt = [] ∧
      (∀ c : Fin 8, (s.core c.val).mode ≠ .remote) := by
  decide +kernel

theorem test_hypotheses_ResetsAssert :
    (let s : State := rs (fun r => { r with wdog := some 99 }) State.reset; let v : Word := 0x00000000#32; s.rst.optFault = false ∧
      (¬(s.rst.warm = false ∧ s.rst.next = some 0)) ∧ s.rst.wdog ≠ none ∧ s.ready RST.SWRST = true ∧ v ≠ 0x57530001#32 ∧
      s.get PAR.CFG_en = 0 ∧ s.pwr.pairEn = false) ∧
    (let s : State := given State.reset fun s => s.wr PAR.CFG 0x301; let v : Word := 0x57530001#32; s.rst.optFault = false ∧
      (¬(s.rst.warm = false ∧ s.rst.next = some 0)) ∧ s.get PAR.CFG_en = 1 ∧ s.ready RST.SWRST = true ∧ v = 0x57530001#32) ∧
    (let s : State := rs (fun r => { r with optFault := true }) State.reset; s.rst.optFault = true) := by
  decide +kernel

theorem test_hypotheses_ResetsRelease_ResetsRelease :
    (let s : State := rs (fun r => { r with next := some 1, held := [6, 9, 8] }) State.reset; let v : Word := 0x0000c3c3#32;
      s.pwr.railsOut.contains .vaon = false ∧ (let b : Nat := 3; b ∈ [3, 4, 5, 6, 9, 10]) ∧
      ([3, 4, 5, 6, 9, 10].any fun b => decide (s.rst.held.contains b = true)) = true ∧ s.rst.held ≠ [] ∧ s.ready RST.WDOG_KICK = true ∧
      bits v 0 16 = 0xC3C3) ∧
    (let s : State := given State.reset fun s => { s with pwr := { s.pwr with railsOut := [.vaon] } }; let v : Word := 0x00000000#32;
      s.pwr.railsOut.contains .vaon = true ∧ s.ready RST.WDOG_KICK = true ∧ bits v 0 16 ≠ 0xC3C3) ∧
    (let s : State := rs (fun r => { r with next := some 1, held := [], optLoaded := false }) State.reset; s.rst.held = [] ∧
      s.refclk = true ∧ s.rst.optFault = false ∧ s.rst.optLoading = false ∧ s.rst.next = some 1 ∧ s.rst.optLoaded = false) ∧
    (let s : State := rs (fun r => { r with next := some 1, held := [], optLoading := true, optLoaded := false }) State.reset;
      s.rst.optLoading = true ∧ s.refclk = true ∧ s.get RST.OPT_RESTARTS_crc_fail < 2) ∧
    (let s : State := given State.reset fun s => (rs (fun r => { r with next := some 1, held := [], optLoading := true, optLoaded := false }) s).set RST.OPT_RESTARTS_crc_fail 2;
      s.rst.optLoading = true ∧ s.refclk = true ∧ 2 ≤ s.get RST.OPT_RESTARTS_crc_fail) ∧
    (let s : State := rs (fun r => { r with next := some 0, held := [], madrPins := 5, bootPins := 2 }) State.reset; s.rst.held = [] ∧
      s.refclk = true ∧ s.rst.optFault = false ∧ s.rst.optLoading = false ∧ s.rst.next = some 0) ∧
    (let s : State := rs (fun r => { r with next := some 2, held := [], madrPins := 5, bootPins := 2 }) State.reset; s.rst.held = [] ∧
      s.refclk = true ∧ s.rst.optFault = false ∧ s.rst.optLoading = false ∧
      (match s.rst.next with | some n => decide (2 ≤ n ∧ (match relAfter n with | some _ => true | _ => false) = true) | _ => false) = true) := by
  decide +kernel

theorem test_hypotheses_ResetsRelease_Boot :
    (let s : State := rs (fun r => { r with boot := .checking .backup 0x20000000 64 }) State.reset; let v : Word := 0x00000001#32;
      s.ready RST.BOOT_CMD = true ∧ bit v 0 = true ∧ (match s.rst.boot with | .checking _ _ _ => true | _ => false) = true ∧
      (match s.rst.boot with | .checking r b n => decide (s.imgResult b n ≠ 1 ∧ r = .backup) | _ => false) = true ∧
      (match s.rst.boot with | .checking r b n => decide (s.imgResult b n ≠ 1 ∧ (r = .host ∨ r = .backup) ∧ s.rst.optFault = false ∧ s.inReset = false ∧ s.rst.next = none ∧ s.pwr.sleep = .run) | _ => false) = true) ∧
    (let s : State := given State.reset fun s => rs (fun r => { r with next := some 1 }) ({ s.set PWR.PL_STAT_vid 0x5A with pwr := { s.pwr with vok := false } });
      let v : Word := 0x00000001#32; s.rst.next = some 1 ∧ s.rst.warm = false ∧ s.rst.held = [] ∧ s.rst.vidOff = none ∧ s.vid = s.pwr.goal ∧
      s.pwr.vok = false ∧ s.ready RST.BOOT_CMD = true ∧ bit v 0 = true ∧ s.rst.boot = .idle) ∧
    (let s : State := rs (fun r => { r with boot := .checking .host 0x20000000 64 }) State.reset;
      (match s.rst.boot with | .checking r b n => decide (s.imgResult b n ≠ 1 ∧ r = .host ∧ s.get RST.BOOT_STAT_straps ≠ 2) | _ => false) = true) ∧
    (let s : State := given State.reset fun s => rs (fun r => { r with vidOff := some 50 }) { s.set PWR.PL_STAT_vid 0 with pwr := { s.pwr with goal := 0 } };
      (match s.rst.vidOff with | some _ => decide (s.vid = 0) | _ => false) = true) ∧
    (let s : State := rs (fun r => { r with boot := .waitHost }) State.reset; let v : Word := 0x00000001#32; s.ready RST.BOOT_CMD = true ∧
      bit v 0 = true ∧ s.rst.boot = .waitHost) ∧
    (let s : State := rs (fun r => { r with boot := .halted }) State.reset; let v : Word := 0x00000001#32; s.ready RST.BOOT_CMD = true ∧
      bit v 0 = true ∧ s.rst.boot = .halted) := by
  decide +kernel

theorem test_hypotheses_SecurityCommands_1 :
    (let s : State := State.reset; let id : ReqId := 0x00#8; let v : Word := 0x00000001#32; s.ready SEC.CMD = true ∧
      (let hash := BitVec.ofNat 256 (leNat (s.cmdBytes 4 32)); (let empty := s.otp.slots.all fun k => k.state == 0; bits v 0 4 = 1 ∧ s.get SEC.CTRL_km_dis = 0 ∧ s.sec.job = none ∧ empty = true ∧ id ≠ 1))) ∧
    (let s : State := State.reset; let id : ReqId := 0x00#8; let v : Word := 0x00000002#32; s.ready SEC.CMD = true ∧
      (let hash := BitVec.ofNat 256 (leNat (s.cmdBytes 4 32)); (let empty := s.otp.slots.all fun k => k.state == 0; bits v 0 4 = 2 ∧ s.get SEC.CTRL_km_dis = 0 ∧ s.sec.job = none ∧ s.cmdAuthorised id = false))) ∧
    (let s : State := State.reset; let id : ReqId := 0x00#8; let v : Word := 0x00000004#32; s.ready SEC.CMD = true ∧
      (let hash := BitVec.ofNat 256 (leNat (s.cmdBytes 4 32)); (let empty := s.otp.slots.all fun k => k.state == 0; bits v 0 4 = 4 ∧ s.get SEC.CTRL_km_dis = 0 ∧ s.sec.job = none ∧ (id.toNat < 0x10 ∨ 0x18 ≤ id.toNat)))) ∧
    (let s : State := State.reset; let v : Word := 0x00000005#32; s.ready SEC.CMD = true ∧
      (let hash := BitVec.ofNat 256 (leNat (s.cmdBytes 4 32)); (let empty := s.otp.slots.all fun k => k.state == 0; bits v 0 4 = 5 ∧ s.sec.job = none ∧ s.get SEC.RNG_STAT_ok = 0))) ∧
    (let s : State := given State.reset fun s => (s0 id s).wr SEC.CTRL 0xFFFFFFFF; let v : Word := 0x00000001#32; s.ready SEC.CMD = true ∧
      (let hash := BitVec.ofNat 256 (leNat (s.cmdBytes 4 32)); (let empty := s.otp.slots.all fun k => k.state == 0; bits v 0 4 = 1 ∧ s.get SEC.CTRL_km_dis = 1))) ∧
    (let s : State := s0 (fun x => { x with job := some ⟨1, 3, 0, 0, 0, 0, 0⟩ }) State.reset; let v : Word := 0x00000001#32;
      s.ready SEC.CMD = true ∧
      (let hash := BitVec.ofNat 256 (leNat (s.cmdBytes 4 32)); (let empty := s.otp.slots.all fun k => k.state == 0; bits v 0 4 = 1 ∧ s.get SEC.CTRL_km_dis = 0 ∧ s.sec.job ≠ none))) ∧
    (let s : State := given State.reset fun s => { cmd [0, 7, 0, 0, 7] (s0 id s) with otp := State.reset.otp };
      let v : Word := 0x00000003#32; s.ready SEC.CMD = true ∧
      (let hash := BitVec.ofNat 256 (leNat (s.cmdBytes 4 32)); (let empty := s.otp.slots.all fun k => k.state == 0; bits v 0 4 = 3 ∧ s.sec.job = none ∧ s.get SEC.LOCKS_id_bad = 0 ∧ memAt (4 * s.get SEC.CMD_ADDR_addr + 64) = some .cmem ∧ memAt (4 * s.get SEC.CMD_ADDR_addr + 64 + 17291) = some .cmem))) := by
  decide +kernel

theorem test_hypotheses_SecurityCommands_2 :
    (let s : State := given State.reset fun s => { cmd [0, 7, 0, 0, 7] (s0 id s) with otp := State.reset.otp }; let id : ReqId := 0x01#8;
      let v : Word := 0x00000001#32; s.ready SEC.CMD = true ∧
      (let hash := BitVec.ofNat 256 (leNat (s.cmdBytes 4 32)); (let empty := s.otp.slots.all fun k => k.state == 0; bits v 0 4 = 1 ∧ s.get SEC.CTRL_km_dis = 0 ∧ s.sec.job = none ∧ (empty = true ∧ id = 1 ∨ empty = false ∧ s.cmdAuthorised id = true) ∧ (s.otp.slots.any fun k => k.state == 0) = true ∧ s.cmdByte 0 < 4 ∧ (s.otp.slot (s.cmdByte 0)).state = 0 ∧ s.cmdByte 1 ≠ 0 ∧ s.cmdByte 1 < 8 ∧ keysLeft (slotsAfter s.otp 1 (s.cmdByte 0) (s.cmdByte 1) hash) = true))) ∧
    (let s : State := s0 (fun x => { x with imgRoll := some 3 }) State.reset; let id : ReqId := 0x10#8; let v : Word := 0x00000004#32;
      s.ready SEC.CMD = true ∧
      (let hash := BitVec.ofNat 256 (leNat (s.cmdBytes 4 32)); (let empty := s.otp.slots.all fun k => k.state == 0; bits v 0 4 = 4 ∧ s.get SEC.CTRL_km_dis = 0 ∧ s.sec.job = none ∧ 0x10 ≤ id.toNat ∧ id.toNat < 0x18 ∧ (match s.sec.imgRoll with | some r => decide (s.otp.rollCount < r) | _ => false) = true))) ∧
    (let s : State := s0 (fun x => { x with imgRoll := some 0 }) State.reset; let id : ReqId := 0x10#8; let v : Word := 0x00000004#32;
      s.ready SEC.CMD = true ∧
      (let hash := BitVec.ofNat 256 (leNat (s.cmdBytes 4 32)); (let empty := s.otp.slots.all fun k => k.state == 0; bits v 0 4 = 4 ∧ s.get SEC.CTRL_km_dis = 0 ∧ s.sec.job = none ∧ 0x10 ≤ id.toNat ∧ id.toNat < 0x18 ∧ (match s.sec.imgRoll with | some r => decide (r ≤ s.otp.rollCount) | _ => false) = true))) ∧
    (let s : State := given State.reset fun s => (s0 id s).set SEC.RNG_STAT_ok 1; let v : Word := 0x00000005#32; s.ready SEC.CMD = true ∧
      (let hash := BitVec.ofNat 256 (leNat (s.cmdBytes 4 32)); (let empty := s.otp.slots.all fun k => k.state == 0; bits v 0 4 = 5 ∧ s.sec.job = none ∧ s.get SEC.RNG_STAT_ok = 1))) ∧
    (let s : State := given State.reset fun s => ad ((s0 id s).set SEC.LOCKS_id_bad 1); let v : Word := 0x00000003#32;
      s.ready SEC.CMD = true ∧
      (let hash := BitVec.ofNat 256 (leNat (s.cmdBytes 4 32)); (let empty := s.otp.slots.all fun k => k.state == 0; bits v 0 4 = 3 ∧ s.sec.job = none ∧ s.get SEC.LOCKS_id_bad = 1))) := by
  decide +kernel

theorem test_hypotheses_SecurityEvents :
    (let s : State := s0 (fun x => { x with job := some ⟨1, 1, 0, 1, 77, 0, 0⟩ }) State.reset;
      (match s.sec.job with | some j => decide (j.op = 1) | _ => false) = true ∧ s.ready SEC.RNG_DATA = true ∧ s.get SEC.RNG_STAT_ok = 0) ∧
    (let s : State := given State.reset fun s => s.set SEC.RNG_STAT_ok 1; s.ready SEC.RNG_DATA = true ∧ s.get SEC.RNG_STAT_ok = 1) ∧
    (let s : State := s0 (fun x => { x with job := some ⟨1, 2, 3, 1, 77, 0, 0⟩ }) State.reset;
      (match s.sec.job with | some j => decide (j.op = 2) | _ => false) = true) ∧
    (let s : State := s0 (fun x => { x with job := some ⟨1, 4, 3, 1, 77, 0, 0⟩ }) State.reset;
      (match s.sec.job with | some j => decide (j.op = 4) | _ => false) = true) ∧
    (let s : State := s0 (fun x => { x with job := some ⟨1, 3, 0, 0, 0, 0x10000100, 0⟩ }) State.reset;
      (match s.sec.job with | some j => decide (j.op = 3 ∧ (let b : Nat := 0; (b < j.addr + 64 ∨ j.addr + 64 + (204 + 17088) ≤ b))) | _ => false) = true) ∧
    (let s : State := s0 (fun x => { x with challenge := some (1, [1,2,3], 5) }) State.reset;
      (match s.sec.challenge with | some (_, _, _) => true | _ => false) = true) := by
  decide +kernel

theorem test_hypotheses_Diagnostics :
    (let s : State := State.reset; let v : Word := 0x00000001#32; s.ready DBG.CMEM_FENCE = true ∧ bits v 0 16 &&& s.dumpBanks = 0 ∧
      (let a : Nat := 0; a ≠ DBG.CMEM_FENCE) ∧ s.ready DBG.FRZ_CMD = true ∧ bits v 0 2 = 1 ∧ s.get DBG.FRZ_STAT_valid = 0 ∧
      (let r : Rail := Rail.vaon; r = .vaon ∧ s.pwr.railsOut.contains r = false) ∧
      (let r : Rail := Rail.vneg; r = .vneg ∧ s.pwr.railsOut.contains r = false)) ∧
    (let s : State := State.reset; let v : Word := 0x00000002#32; s.ready DBG.FRZ_CMD = true ∧ bits v 0 2 = 2 ∧
      (let a : Nat := 0; a ≠ DBG.FRZ_STAT)) ∧
    (let s : State := given State.reset fun s => s.set DBG.FRZ_STAT_valid 1; let v : Word := 0x00000001#32; s.ready DBG.FRZ_CMD = true ∧
      bits v 0 2 = 1 ∧ s.get DBG.FRZ_STAT_valid = 1) ∧
    (let s : State := given State.reset fun s => (((s.set RST.DUMP_MARK_mark 1).set RST.DUMP_PTR_base 0x40000).set RST.DUMP_LEN_kib 255);
      let v : Word := 0x00000001#32; s.ready DBG.CMEM_FENCE = true ∧ bits v 0 16 &&& s.dumpBanks ≠ 0) := by
  decide +kernel

theorem test_hypotheses_JtagInstructions :
    (let s : State := State.reset; s.otp.dbgClosed = false) ∧
    (let s : State := given State.reset fun s => { s with otp := { s.otp with dbgClosed := true } }; s.otp.dbgClosed = true) := by
  decide +kernel

theorem test_hypotheses_StorageStaysWell_MemoryStaysCanonical :
    let s : State := { State.reset with pending := [.imemWrite 1 7 32767 5] }; s.memWf = true ∧ goesOn (step s) = true := by
  decide +kernel

theorem test_hypotheses_StorageStaysWell_PartsStayWhole :
    let s : State := { State.reset with pending := [.auxTickSlew] }; s.shaped = true ∧ goesOn (step s) = true := by
  decide +kernel

theorem test_hypotheses_FusesOnlyBurn :
    let s : State := { State.reset with pending := [.secCommandComplete] }; goesOn (step s) = true := by
  decide +kernel

theorem test_hypotheses_FrameOfTimingAndChains_FrameOfTiming :
    State.reset.ready FTM.CTRL = true ∧ State.reset.ready CLK.PLL_CTRL = true ∧
      goOn [.listCommit 1 1, .fecRelease 1 4, .timerRun 1 1, .timerStopRequest 1 0, .pllEnableWrite 1 1, .halfRateWrite 1 3, .tsyncModeWrite 1 1, .listCheckDone, .fesTransactionStart 2, .fesTransactionDone 2 5, .tsyncFallingEdge] = true := by
  decide +kernel

theorem test_hypotheses_FrameOfTimingAndChains_FrameOfSignalChains :
    State.reset.ready (STD.base 7) = true ∧ State.reset.ready (STD.EQ_COMMIT 7) = true ∧ State.reset.ready (STD.CNV_CTRL 7) = true ∧
      State.reset.ready TXC.MUTE_ALL = true ∧ State.reset.ready RXC.SLICE_CTRL = true ∧ State.reset.ready TXC.SLICE_CTRL = true ∧
      State.reset.ready TXC.CAL_CTRL = true ∧
      goOn [.eqCommit 1 7 1, .cnvCtrlWrite 1 7 1, .sliceStart 1 true 8, .sliceStop 1 true 0x80, .calGo 1 3, .muteRegisterWrite 1 .all 1, .adcSample (.path 63) 0x7FF, .levelMonitorUpdate, .gstepApply] = true := by
  decide +kernel

theorem test_hypotheses_FrameOfBeamformerAndFrontEnd_FrameOfBeamformer :
    State.reset.ready BF.JOIN = true ∧ State.reset.ready (BFG.PORTS 3) = true ∧ State.reset.ready (DPD.CTRL 7) = true ∧
      goOn [.contextSeal 1 159, .joinWrite 1 1, .bfModeWrite 1 1, .rcmpPop 1, .portsWrite 1 3 64, .fallbackWrite 1 3 159, .sealComplete, .dpdSwapRequest 1 7 0x80, .dpdTermsWrite 1 (BitVec.ofNat 32 (DPD.TERM_A 7 39)) 0x100, .dpdReloadPop 1 7] = true := by
  decide +kernel

theorem test_hypotheses_FrameOfBeamformerAndFrontEnd_FrameOfFrontEnd :
    State.reset.ready (BIA.TARGET 95) = true ∧ State.reset.ready SCL.CTRL = true ∧ State.reset.ready LND.CAP_CTRL = true ∧
      State.reset.ready THM.SUSPECT_LO = true ∧ State.reset.ready DBG.FRZ_CMD = true ∧
      goOn [.biasTargetWrite 1 95 5, .spanChangeStart 1 95 3, .scalerCalRequest 1 0x30, .scalerPassStart 1, .injectedDue 1, .scalerCalStart 1, .captureArm 1 5, .captureGo 1 3, .suspectClear 1 true 1, .cmemFenceWrite 1 1, .freezeNow 1 1, .freezeClear 1 2] = true := by
  decide +kernel

theorem test_hypotheses_FrameOfEngines :
    State.reset.ready (CORE.CTRL 7) = true ∧ State.reset.ready (YCH.CTRL 31) = true ∧ State.reset.ready SEC.CMD = true ∧
      State.reset.ready (PORT.PRBS_CTRL 3) = true ∧ State.reset.flowIdle = true ∧
      (State.reset.enabledFlows.all fun i => !State.reset.flowBad i) = true ∧
      goOn [.doorbell 1 7 1, .coreWatchdogKick 1 7 0x5A5A, .yarderProdWrite 1 31 1, .keyEnrol 1 1, .keyRevoke 1 2, .quote 1 3, .advanceRollback 1 4, .secChallenge 1 5, .rngRead 1, .prbsEnable 1 3 1, .prbsInject 1 3 0x51, .prbsSyncAcquired 15, .prbsBitError 15, .eyeUpdate 15 1023, .yarderBurstStart 31] = true := by
  decide +kernel

/-- A flow table in use to its last entry: the clause of a full table. -/
theorem test_hypotheses_Flows_FlowCommands_full : ∀ i, i < 640 → (alloc (List.range 640) State.reset).link.alloc.contains i = true := by
  intro i hi
  simp [alloc, hi]
/-! ## A signature that verifies

An SLH-DSA-SHA2-128s signature over the 120 bytes of a small image, made for these tests from FIPS 205 alone: the public key hides
one top-layer leaf whose chains start at 0, and everything below it is 0 but for one node a layer (log 23). -/

/-- The public seed of the key. -/
def sigSeed : Nat := 0x1000000000000000000000000000000

/-- The root of the key. -/
def sigRoot : Nat := 0x6efe469403d42856eedb0c2d5c594e5d

/-- The strings of the signature. -/
def sigParts : List Nat :=
  [1129] ++ List.replicate 181 0 ++ [5466] ++ List.replicate 43 0 ++ [213] ++ List.replicate 43 0 ++ [413] ++ List.replicate 43 0 ++
  [0x11082] ++ List.replicate 43 0 ++ [4915] ++ List.replicate 43 0 ++ [3352] ++ List.replicate 43 0 ++
  [0x532c, 0x175ad70f9fca4f53cbdce6ac2f17b46c, 0x6761e840b1d18cd104715d4cc8ccd4c7] ++
  [0x9674f33a1281cf04e15da94fea01016a, 0xe511d34b69247a6fa9353b9cafa044e2, 0xf4f6529fad5e4dea06280df4b5190532] ++
  [0x66154d41509bdfc2d721479c143ec20b, 0x8417aa2df5c5f616beb877b5ff3944f0, 0x6eddc017600c916c80c7c2a356b23b1c] ++
  [0x87a77d65dfbdffaeec02452ee17cb89b, 0x96fe8dfde7f4071e8a6c302bf9867d90, 0xdb07bd86b3358397b97e98ae4836a7b8] ++
  [0x3c06e588da030737bd0da5e60d9f6397, 0x5d14ebc4464e46e6baf94a19ad78bb66, 0x16e11e1e749d2957fabda0a9a573b92c] ++
  [0xefc14580ed7e3e4c3e43300a76b1645, 0x3564f6de8642c6d47c7bc5dfaa3fd3db, 0xd308246bce04a50d8e2e4048b2ab53b8] ++
  [0x8fcd8a260ce150e776294f8c8582658d, 0x4d78ff8bd9040b629a2711ab15720757, 0xf657fd22beb1cea6123a102e72d8d750] ++
  [0x3fb5665d880c73c0f27de07e7e2b36ce, 0x93f6437e2ff4b2322a832b2fa7a34cbb, 0xb2bbe89a85f75fa15ffb6892d136bc7b] ++
  [0x5ff9f7538794ee5b383453417610ca8d, 0x345c8d84cba2db2c03d785f918ce52e9, 0x2242413d667d147b24a5f981628514af] ++
  [0xc063f64b95b820b9bea06282700bee10, 0x63fa4ed0a3fa6e1915f5199b8430fb0c, 0x18efbccbab575328abf34bbec0c010b0] ++
  [0xd96a25b9fa3be9239ea1a1caae297489, 0x6db23939de4c26d3285df395cdec1bea, 0xf205e1ac074642f599ce17d94c6218c1] ++
  [0, 0x92d84f9f6934ae3b5fd21dce27944188, 0x8aa7ea78010e9f268ffaf00a914231ad] ++ List.replicate 8 0 ++ [17]

/-- The public key. -/
def sigKey : List Byte := numBytes 16 sigSeed ++ numBytes 16 sigRoot

/-- The signed image: header with the key, one segment of 8 bytes for common SRAM. -/
def sigMessage : List Byte := leBytes 4 0x4E544C49 ++ leBytes 2 1 ++ leBytes 2 1 ++ leBytes 4 7976 ++ leBytes 1 1 ++ leBytes 51 0 ++ sigKey ++
  leBytes 4 0x10000400 ++ leBytes 4 8 ++ leBytes 4 112 ++ leBytes 4 0 ++ leBytes 8 0x1122334455667788

/-- The signature. -/
def sigBytes : List Byte := sigParts.flatMap (numBytes 16)

theorem sigBytes_parts : slhParts 491 sigBytes = sigParts := by decide +kernel

theorem sig_lengths : sigBytes.length = 7856 ∧ sigKey.length = 32 ∧ sigMessage.length = 120 ∧ beNum (sigKey.take 16) = sigSeed ∧
    beNum (sigKey.drop 16) = sigRoot ∧ sigParts.getD 0 0 = 1129 := by decide +kernel

theorem sig_pick : slhPick slh128s 1129 sigSeed sigRoot (slhMessage sigMessage) =
    ⟨[300, 1034, 3490, 3889, 1331, 3036, 3332, 387, 3595, 2234, 1254, 746, 1865, 76], 22188503260088, 466⟩ := by decide +kernel

theorem sig_fors : forsKey slh128s (slhMid sigSeed) 22188503260088 466 (forsRoots slh128s (slhMid sigSeed) 22188503260088 466
    [300, 1034, 3490, 3889, 1331, 3036, 3332, 387, 3595, 2234, 1254, 746, 1865, 76] 0 (sigParts.drop 1)) =
    0xedd6ddc81fdceffbd08d6ae8ac8768fc := by decide +kernel

theorem sig_layer0 : xmssFromSig (slhMid sigSeed) 0 22188503260088 466 0xedd6ddc81fdceffbd08d6ae8ac8768fc ((sigParts.drop 183).take 44) =
    0xeee4fdd7cdfaa7cefa1dafec4ee1e57e := by decide +kernel

theorem sig_layer1 : xmssFromSig (slhMid sigSeed) 1 43336920429 440 0xeee4fdd7cdfaa7cefa1dafec4ee1e57e ((sigParts.drop 227).take 44) =
    0xfbecd7acf22e7caccbfac377fdeffa39 := by decide +kernel

theorem sig_layer2 : xmssFromSig (slhMid sigSeed) 2 84642422 365 0xfbecd7acf22e7caccbfac377fdeffa39 ((sigParts.drop 271).take 44) =
    0xecd9bbeaf8fefef3d66d584fcf7ede7d := by decide +kernel

theorem sig_layer3 : xmssFromSig (slhMid sigSeed) 3 165317 118 0xecd9bbeaf8fefef3d66d584fcf7ede7d ((sigParts.drop 315).take 44) =
    0xeddedda4b4a9bdff5edd3a8a3fcfddf9 := by decide +kernel

theorem sig_layer4 : xmssFromSig (slhMid sigSeed) 4 322 453 0xeddedda4b4a9bdff5edd3a8a3fcfddf9 ((sigParts.drop 359).take 44) =
    0xbdcb92dbd7f3bd8df7ce88c9aaebee7f := by decide +kernel

theorem sig_layer5 : xmssFromSig (slhMid sigSeed) 5 0 322 0xbdcb92dbd7f3bd8df7ce88c9aaebee7f ((sigParts.drop 403).take 44) =
    0xdefab62af729dfd98ad7cce4ffc3bf7f := by decide +kernel

theorem sig_layer6 : xmssFromSig (slhMid sigSeed) 6 0 0 0xdefab62af729dfd98ad7cce4ffc3bf7f ((sigParts.drop 447).take 44) =
    0x6efe469403d42856eedb0c2d5c594e5d := by decide +kernel

/-- One layer of the hypertree. -/
theorem sig_step {n j tree leaf m t' l' m' k : Nat} (h : xmssFromSig (slhMid sigSeed) j tree leaf m ((sigParts.drop k).take 44) = m')
    (ht : tree / 2 ^ 9 = t') (hl : tree % 2 ^ 9 = l') :
    htFromSig slh128s (slhMid sigSeed) (n + 1) j tree leaf m (sigParts.drop k) =
      htFromSig slh128s (slhMid sigSeed) n (j + 1) t' l' m' (sigParts.drop (k + 44)) := by
  subst h ht hl
  show htFromSig slh128s _ n (j + 1) _ _ _ ((sigParts.drop k).drop 44) = _
  rw [List.drop_drop]
  rfl

/-- The signature verifies. -/
theorem sig_verifies : slhVerify sigKey sigMessage sigBytes = true := by
  have h : slhRoot slh128s sigSeed sigRoot (slhMessage sigMessage) sigParts = sigRoot := by
    unfold slhRoot
    rw [sig_lengths.2.2.2.2.2, sig_pick]
    show htFromSig slh128s (slhMid sigSeed) 7 0 _ _ (forsKey slh128s (slhMid sigSeed) _ _ (forsRoots slh128s (slhMid sigSeed) _ _ _ 0
      (sigParts.drop 1))) (sigParts.drop 183) = _
    rw [sig_fors]
    exact (sig_step sig_layer0 rfl rfl).trans <| (sig_step sig_layer1 rfl rfl).trans <| (sig_step sig_layer2 rfl rfl).trans <|
      (sig_step sig_layer3 rfl rfl).trans <| (sig_step sig_layer4 rfl rfl).trans <| (sig_step sig_layer5 rfl rfl).trans <|
      sig_step (n := 0) sig_layer6 rfl rfl
  unfold slhVerify
  rw [sigBytes_parts, sig_lengths.2.2.2.1, sig_lengths.2.2.2.2.1, h, sig_lengths.1, sig_lengths.2.1]
  decide

/-- Bytes as memory lists them from an address on: zero bytes are not listed. -/
def cells : Nat → List Byte → List (Nat × Byte)
  | _, [] => []
  | a, b :: t => if b = 0 then cells (a + 1) t else (a, b) :: cells (a + 1) t

theorem get_cells (l : List Byte) : ∀ (a k : Nat), Store.get (cells a l) k 0 = if a ≤ k then l.getD (k - a) 0 else 0 := by
  induction l with
  | nil => intro a k; simp [cells, Store.get, Store.find?]
  | cons b t ih =>
    intro a k
    have hs : Store.get (cells (a + 1) t) k 0 = if a + 1 ≤ k then t.getD (k - (a + 1)) 0 else 0 := ih (a + 1) k
    have hz (h : k = a) : Store.get (cells (a + 1) t) k 0 = 0 := by rw [hs, if_neg (by omega)]
    have ho (h : k ≠ a) : Store.get (cells (a + 1) t) k 0 = if a ≤ k then (b :: t).getD (k - a) 0 else 0 := by
      rw [hs]
      by_cases h1 : a ≤ k
      · rw [if_pos (by omega), if_pos h1, show k - a = (k - (a + 1)) + 1 by omega]; rfl
      · rw [if_neg (by omega), if_neg h1]
    by_cases h : k = a
    · subst h
      simp only [cells, Nat.le_refl, if_true, Nat.sub_self, List.getD_cons_zero]
      split
      · rename_i hb; rw [hz rfl, hb]
      · simp [Store.get, Store.find?]
    · simp only [cells]
      split
      · exact ho h
      · have : Store.get ((a, b) :: cells (a + 1) t) k 0 = Store.get (cells (a + 1) t) k 0 := by simp [Store.get, Store.find?, h]
        rw [this, ho h]

/-- What a state reads whose memory lists bytes from an address on. -/
theorem bytes_cells {s : State} {a : Nat} {l : List Byte} (hm : s.mem = cells a l) (hd : ∀ k, a ≤ k → k < a + l.length → memDefault k = 0) :
    ∀ n k, k + n ≤ l.length → s.bytes (a + k) n = (l.drop k).take n := by
  intro n
  induction n with
  | zero => intro k _; simp [State.bytes]
  | succ n ih =>
    intro k hk
    have hb : s.byte (a + k) = l.getD k 0 := by
      rw [State.byte, hm, hd _ (by omega) (by omega), get_cells, if_pos (by omega), Nat.add_sub_cancel_left]
    have hl : k < l.length := by omega
    rw [State.bytes, hb, Nat.add_assoc, ih (k + 1) (by omega), List.drop_eq_getElem_cons hl, List.take_succ_cons]
    simp [List.getD_eq_getElem?_getD, hl]

/-- Every slot of the key fuses holds the key of the tests, with every permission. -/
def sigSlots : List KeySlot := List.replicate 4 ⟨sha256 sigKey, 7, true, false⟩

/-- The image and its signature are staged in the Landing Buffer, and the host has named them. -/
def sigImage : State := { State.reset with
  mem := cells 0x20000000 (sigMessage ++ sigBytes), upsets := [], otp := { State.reset.otp with slots := sigSlots },
  rst := { State.reset.rst with boot := .checking .host 0x20000000 7976 } }

theorem sigAll_length : (sigMessage ++ sigBytes).length = 7976 := by
  rw [List.length_append, sig_lengths.1, sig_lengths.2.2.1]

theorem sigImage_bytes (k n : Nat) (h : k + n ≤ 7976) : sigImage.bytes (0x20000000 + k) n = ((sigMessage ++ sigBytes).drop k).take n := by
  refine bytes_cells (a := 0x20000000) rfl (fun j h1 h2 => ?_) n k (by rw [sigAll_length]; exact h)
  rw [sigAll_length] at h2
  unfold memDefault
  rw [if_neg (by omega), if_neg (by omega)]

theorem sigImage_verifies : slhVerify (sigImage.bytes (0x20000000 + 64) 32)
    (sigImage.bytes 0x20000000 (sigImage.imgField 0x20000000 8 4 - 7856))
    (sigImage.bytes (0x20000000 + sigImage.imgField 0x20000000 8 4 - 7856) 7856) = true := by
  have hf : sigImage.imgField 0x20000000 8 4 = 7976 := by decide +kernel
  have hk : ((sigMessage ++ sigBytes).drop 64).take 32 = sigKey := by decide +kernel
  have hm : ((sigMessage ++ sigBytes).drop 0).take 120 = sigMessage := by
    rw [List.drop_zero, List.take_append_of_le_length (Nat.le_of_eq sig_lengths.2.2.1.symm), List.take_of_length_le (Nat.le_of_eq sig_lengths.2.2.1)]
  have hs : ((sigMessage ++ sigBytes).drop 120).take 7856 = sigBytes := by
    rw [List.drop_append_of_le_length (Nat.le_of_eq sig_lengths.2.2.1.symm), List.drop_of_length_le (Nat.le_of_eq sig_lengths.2.2.1), List.nil_append,
      List.take_of_length_le (Nat.le_of_eq sig_lengths.1)]
  rw [hf, sigImage_bytes 64 32 (by omega), hk]
  show slhVerify sigKey (sigImage.bytes (0x20000000 + 0) 120) (sigImage.bytes (0x20000000 + 120) 7856) = true
  rw [sigImage_bytes 0 120 (by omega), sigImage_bytes 120 7856 (by omega), hm, hs, sig_verifies]

/-- An image whose signature verifies is good: the clause of an accepted image. -/
theorem test_hypotheses_ResetsRelease_Boot_accepted :
    sigImage.rst.boot = .checking .host 0x20000000 7976 ∧ sigImage.imgResult 0x20000000 7976 = 1 := by
  refine ⟨rfl, ?_⟩
  unfold State.imgResult
  simp only [sigImage_verifies, Bool.not_true]
  decide +kernel

/-- The host revokes a slot with a signed command: the start of the signed bytes is its challenge, the rest the command's block. -/
def sigRevoke : State :=
  let s := State.reset.set SEC.CMD_ADDR_addr 0x04000040
  { s with mem := cells 0x10000100 (sigMessage.drop 84 ++ leBytes 4 3 ++ sigKey ++ sigBytes),
           otp := { s.otp with slots := sigSlots }, sec := { s.sec with challenge := some (1, sigMessage.take 84, 0) } }

theorem sigBlock_length : (sigMessage.drop 84 ++ leBytes 4 3 ++ sigKey ++ sigBytes).length = 7928 := by
  rw [List.length_append, sig_lengths.1]
  decide +kernel

theorem sigRevoke_bytes (k n : Nat) (h : k + n ≤ 7928) :
    sigRevoke.cmdBytes k n = ((sigMessage.drop 84 ++ leBytes 4 3 ++ sigKey ++ sigBytes).drop k).take n := by
  have ha : 4 * sigRevoke.get SEC.CMD_ADDR_addr = 0x10000100 := by decide +kernel
  unfold State.cmdBytes
  rw [ha]
  refine bytes_cells (a := 0x10000100) rfl (fun j h1 h2 => ?_) n k (by rw [sigBlock_length]; exact h)
  rw [sigBlock_length] at h2
  unfold memDefault
  rw [if_neg (by omega), if_neg (by omega)]

theorem sigRevoke_verifies : slhVerify (sigRevoke.cmdBytes 40 32) (sigMessage.take 84 ++ sigRevoke.cmdBytes 0 36)
    (sigRevoke.cmdBytes 72 7856) = true := by
  have hk : ((sigMessage.drop 84 ++ leBytes 4 3 ++ sigKey ++ sigBytes).drop 40).take 32 = sigKey := by decide +kernel
  have hm : sigMessage.take 84 ++ ((sigMessage.drop 84 ++ leBytes 4 3 ++ sigKey ++ sigBytes).drop 0).take 36 = sigMessage := by
    decide +kernel
  have hl : (sigMessage.drop 84 ++ leBytes 4 3 ++ sigKey).length = 72 := by decide +kernel
  have hs : ((sigMessage.drop 84 ++ leBytes 4 3 ++ sigKey ++ sigBytes).drop 72).take 7856 = sigBytes := by
    rw [List.drop_append_of_le_length (Nat.le_of_eq hl.symm), List.drop_of_length_le (Nat.le_of_eq hl), List.nil_append,
      List.take_of_length_le (Nat.le_of_eq sig_lengths.1)]
  rw [sigRevoke_bytes 40 32 (by omega), sigRevoke_bytes 0 36 (by omega), sigRevoke_bytes 72 7856 (by omega), hk, hm, hs, sig_verifies]

/-- A revoke whose signature verifies is authorised: the clause of a revoke that runs. -/
theorem test_hypotheses_SecurityCommands_revoke :
    sigRevoke.cmdAuthorised 1 = true ∧ sigRevoke.cmdByte 0 < 4 ∧ (sigRevoke.otp.slot (sigRevoke.cmdByte 0)).state = 1 ∧
      keysLeft (slotsAfter sigRevoke.otp 2 (sigRevoke.cmdByte 0) (sigRevoke.cmdByte 1) 0) = true ∧ sigRevoke.sec.job = none ∧
      sigRevoke.get SEC.CTRL_km_dis = 0 := by
  refine ⟨?_, by decide +kernel, by decide +kernel, by decide +kernel, by decide +kernel, by decide +kernel⟩
  have e : sigRevoke.sec.challenge = some (1, sigMessage.take 84, 0) := rfl
  unfold State.cmdAuthorised
  simp only [e, sigRevoke_verifies]
  decide +kernel

end Sys2Proof.Tests
end

section
/-!
SUPPORT. A trigger of a front-end serial master (R81, R82): what its start does to a master that is disabled, busy or idle.
-/
namespace Sys2Proof.Machine

/-- The state at the instant of a waiting transaction: the clock stands at it, or later, and the transaction is off the queue. -/
def State.fesTaken (s : State) (j : FesJob) (rest : List FesJob) : State :=
  { s.atBt j.bt with timer := { s.timer with fesQueue := rest } }

/-- A transaction of master n with what it holds from its start on (R81, log 137): the length and data of its slot, the SCK period and
the mode. -/
def State.fesHeld (s : State) (n : Nat) (j : FesJob) : FesJob :=
  { j with
    len := s.get (FTM.FES_FMT_len (64 * n + j.slot)) + 1
    data := s.rd (FTM.FES_DATA (64 * n + j.slot))
    sck := s.fesSck n
    mode3 := s.flag (FTM.FES_CFG_mode3 n) }

/-- A transaction joins those that run. -/
def State.fesRun (s : State) (j : FesJob) : State :=
  { s with timer := { s.timer with fesBusy := s.timer.fesBusy ++ [j] } }

/-- A trigger finds its master busy (R82). -/
def State.fesOverrun (s : State) : State := (s.count FTM.COUNTS_ovr 1).raise FTM.base 5

section
variable (s : State) (j : FesJob) (rest : List FesJob)

@[simp] theorem State.fesTaken_regs : (s.fesTaken j rest).regs = s.regs := by simp [State.fesTaken]
@[simp] theorem State.fesTaken_otp : (s.fesTaken j rest).otp = s.otp := by simp [State.fesTaken]
@[simp] theorem State.fesTaken_queue : (s.fesTaken j rest).timer.fesQueue = rest := rfl
@[simp] theorem State.fesTaken_busy : (s.fesTaken j rest).timer.fesBusy = s.timer.fesBusy := rfl
@[simp] theorem State.get_fesTaken (f : Fld) : (s.fesTaken j rest).get f = s.get f := by simp [State.get, State.rd]

@[simp] theorem State.fesRun_regs : (s.fesRun j).regs = s.regs := rfl
@[simp] theorem State.fesRun_queue : (s.fesRun j).timer.fesQueue = s.timer.fesQueue := rfl
@[simp] theorem State.fesRun_busy : (s.fesRun j).timer.fesBusy = s.timer.fesBusy ++ [j] := rfl

@[simp] theorem State.fesOverrun_timer : s.fesOverrun.timer = s.timer := by simp [State.fesOverrun]

/-- An overrun is counted; the count holds at 255 (R87). -/
theorem State.get_fesOverrun_ovr : s.fesOverrun.get FTM.COUNTS_ovr = min (s.get FTM.COUNTS_ovr + 1) 255 := by
  rw [State.fesOverrun, State.get_raise_other _ _ _ _ (by decide) (by decide), State.get_count_same _ _ _ (by decide)]
  rfl

/-- An overrun raises bit 5 of the raw latch. -/
theorem State.fesOverrun_raw_bit : (s.fesOverrun.rd (HDR.IRQ_RAW FTM.base)).getLsbD 5 = true := by
  rw [State.fesOverrun, State.raise_raw]
  simp

end

/-- What a trigger does, by the master's enable and whether it is busy. -/
theorem State.fesStart_of_takeFes {s : State} {n : Nat} {j : FesJob} {rest : List FesJob}
    (h : takeFes n s.timer.fesQueue = some (j, rest)) :
    s.fesStart n =
      if s.flag (FTM.FES_CFG_en n) then
        if s.fesBusy n then (s.fesTaken j rest).fesOverrun else (s.fesTaken j rest).fesRun (s.fesHeld n j)
      else s.fesTaken j rest := by
  have hbusy : (s.atBt j.bt).fesBusy n = s.fesBusy n := by simp [State.fesBusy]
  have hsck : (s.atBt j.bt).fesSck n = s.fesSck n := by simp [State.fesSck]
  by_cases hen : s.flag (FTM.FES_CFG_en n)
  · by_cases hb : s.fesBusy n
    · simp [State.fesStart, State.fesTaken, State.fesOverrun, h, hen, hb, hbusy]
    · simp [State.fesStart, State.fesTaken, State.fesRun, State.fesHeld, h, hen, hb, hbusy, hsck]
  · simp [State.fesStart, State.fesTaken, h, hen]

/-- A trigger is off the queue, whatever its master does. -/
theorem State.fesStart_queue {s : State} {n : Nat} {j : FesJob} {rest : List FesJob}
    (h : takeFes n s.timer.fesQueue = some (j, rest)) : (s.fesStart n).timer.fesQueue = rest := by
  rw [State.fesStart_of_takeFes h]
  split_ifs <;> simp

/-- Settles O13: each case is read off what a trigger does by the master's enable and whether it is busy. -/
theorem fesTriggers : Obligations.FesTriggers := by
  unfold Obligations.FesTriggers
  intro s n j rest h
  refine ⟨s.fesStart n.val, rfl, State.fesStart_queue h, fun hen => ?disabled, fun hen hbusy => ?busy, fun hen hidle => ?idle⟩
  all_goals rw [State.fesStart_of_takeFes h]
  case disabled => simp [State.flag, hen]
  case busy =>
    rw [if_pos (by simp [State.flag, hen]), if_pos hbusy]
    exact ⟨by simp, by simp [State.get_fesOverrun_ovr], State.fesOverrun_raw_bit _⟩
  case idle => simp [State.flag, hen, hidle, State.fesHeld]

end Sys2Proof.Machine
end
